-- ==== Sys2Proof/Word.lean ====
section
/-! DEFINITION. The widths the manual gives to values: bytes, halves, words and double words. -/

namespace Sys2Proof

/-- Eight bits, the addressable unit (R4). -/
abbrev Byte := BitVec 8

/-- Sixteen bits: an engine word (R26), a barrier generation (R138). -/
abbrev Half := BitVec 16

/-- Thirty-two bits: a lane word of a v register, a literal word (R6, R10). -/
abbrev Word := BitVec 32

/-- Sixty-four bits: an s register, a program counter, a lane mask (R6, R200). -/
abbrev Dword := BitVec 64

end Sys2Proof
end

