-- ==== Sys2Proof/Config.lean ====
section
/-! DEFINITION. What an implementation fixes and what the manual leaves open. The opaque constants are
the free values of the model: nothing in Lean can evaluate them, so a statement about one holds for every value. -/

namespace Sys2Proof

/-- The seven special functions of R87. -/
inductive SpecialFn where
  | rcp | rsq | exp2 | log2 | sin | cos | tanh
deriving DecidableEq, Repr

namespace Config

/-- R1, R433: an 8410 package; positions 0 to 8 of each hub's ring are fitted. -/
def ringPositions : Nat := 9

/-- Free value (log 1): which of the candidates moves next. -/
opaque freeChoice : Nat → Nat

/-- Free value (log 2): arithmetic cycles that pass in a step, beyond the first. -/
opaque elapsedCycles : Nat → Nat

/-- Free value (log 2): timebase ticks that pass in a step. -/
opaque elapsedTicks : Nat → Nat

/-- Free value (log 11): whether a cached copy has been replaced before this use; the first number is the
tick, the second the entry's key (R343, R383). -/
opaque freeReplaced : Nat → Nat → Bool

/-- Free value (log 13): whether an instruction already fetched past an IFENCE-less point is used (R117). -/
opaque freePrefetched : Nat → Bool

/-- Free value (log 14): the result of a special function before its bound is applied, by function and f32 input
(R88, R280: deterministic, not correctly rounded). -/
opaque special : SpecialFn → Word → Word

/-- Free value (log 15): whether byte n of a refused engine row stands (R299, cause 0x46). -/
opaque freeByteStands : Nat → Nat → Bool

/-- Free value (log 16): a register or field the manual names but whose value no rule gives, by tick and number
(power draw, sensor readings, R444). -/
opaque freeReading : Nat → Nat → Dword

/-- Free value (log 76): whether a package issued a name before the failure of a number, counted from 0 (R425). -/
opaque nameBefore : Dword → Nat → Bool

/-- Free value (log 74): whether latencies hold a group back from issue at a step (R255), by tick, team and gid. -/
opaque freeBusy : Nat → Nat → Nat → Bool

/-- Free value (log 25): the choice among several placements the manual leaves to the hub (R234, R246), and where it puts a chiplet's
range (R434). -/
opaque freePlacement : Nat → Nat

end Config
end Sys2Proof
end

