-- ==== Sys2Proof/Machine/Bits.lean ====
section
/-! DEFINITION. Bit fields, sign extension, lane masks, and bytes in little-endian order (R4). -/

namespace Sys2Proof.Machine

/-- bits(x, hi, lo) of the manual, as a number. -/
def bits {n : Nat} (x : BitVec n) (hi lo : Nat) : Nat := (x.toNat >>> lo) % 2 ^ (hi + 1 - lo)

/-- A number read as signed in w bits. -/
def signed (w x : Nat) : Int := if x % 2 ^ w < 2 ^ (w - 1) then (x % 2 ^ w : Nat) else ((x % 2 ^ w : Nat) : Int) - (2 ^ w : Nat)

/-- The low w bits of an integer. -/
def low (w : Nat) (x : Int) : Nat := (x % (2 ^ w : Nat)).toNat

/-- The low 64 bits of an integer. -/
def dword (x : Int) : Dword := BitVec.ofInt 64 x

/-- The low w bits of a value, sign-extended to 64 bits. -/
def sextDword (w : Nat) (x : Dword) : Dword := BitVec.ofInt 64 (signed w x.toNat)

/-- The low w bits of a value, zero-extended to 64 bits. -/
def zextDword (w : Nat) (x : Dword) : Dword := BitVec.ofNat 64 (x.toNat % 2 ^ w)

/-- The low 32 bits of a value. -/
def loWord (x : Dword) : Word := x.setWidth 32

/-- Bits 63 to 32 of a value. -/
def hiWord (x : Dword) : Word := (x >>> 32).setWidth 32

/-- Two words as one value, low word first (R11, R17). -/
def joinWords (lo hi : Word) : Dword := (hi.setWidth 64 <<< 32) ||| lo.setWidth 64

/-- A lane's bit of a mask. -/
def laneBit (m : Dword) (lane : Nat) : Bool := m.getLsbD lane

/-- The mask of the lanes below n that a test holds for. -/
def maskUpTo (f : Nat → Bool) : Nat → Dword
  | 0 => 0
  | n + 1 => if f n then maskUpTo f n ||| BitVec.twoPow 64 n else maskUpTo f n

/-- The mask of the lanes that a test holds for. -/
def maskOf (f : Nat → Bool) : Dword := maskUpTo f 64

/-- The lane numbers of a group. -/
def lanes64 : List Nat := List.range 64

/-- The lanes of a mask, ascending. -/
def maskLanes (m : Dword) : List Nat := lanes64.filter (laneBit m)

/-- The lowest lane of a mask, 0 when it is empty. -/
def lowestLane (m : Dword) : Nat := (maskLanes m).headD 0

/-- The number of lanes of a mask. -/
def maskCount (m : Dword) : Nat := (maskLanes m).length

/-- A number as k bytes, the lowest first (R4). -/
def toBytes : Nat → Nat → List Byte
  | 0, _ => []
  | k + 1, x => BitVec.ofNat 8 x :: toBytes k (x / 256)

/-- Bytes read as a number, the lowest first (R4). -/
def ofBytes : List Byte → Nat
  | [] => 0
  | b :: bs => b.toNat + 256 * ofBytes bs

/-- The first result of a search over a list. -/
def firstSome {α β : Type} (f : α → Option β) : List α → Option β
  | [] => none
  | x :: xs => match f x with
    | some y => some y
    | none => firstSome f xs

/-- Replaces every element that a test holds for. -/
def updateWhere {α : Type} (p : α → Bool) (f : α → α) (xs : List α) : List α :=
  xs.map (fun x => if p x then f x else x)

/-- Replaces the element at a place. -/
def modifyAt {α : Type} (n : Nat) (f : α → α) : List α → List α
  | [] => []
  | x :: xs => match n with
    | 0 => f x :: xs
    | k + 1 => x :: modifyAt k f xs

/-- Whether an address keeps bits 63 to 57 as copies of bit 56 (R377). -/
def canonical (a : Dword) : Bool := bits a 63 56 == 0 || bits a 63 56 == 255

end Sys2Proof.Machine
end

