-- ==== Sys2Proof/Machine/Float.lean ====
section
/-! DEFINITION. The number formats of R266 to R270, exact values, the rounding of R273, the conversion fates of
R84 and R275, and IEEE 754-2019 arithmetic as R76 to R81 give it. -/

namespace Sys2Proof.Machine

/-- What the codes with the largest exponent mean (R266). -/
inductive Specials where
  /-- Infinity and NaNs, as in the formats of IEEE 754-2019. -/
  | ieee
  /-- e4m3: only the all-ones magnitude is a NaN. -/
  | topNan
  /-- No infinity and no NaN. -/
  | finite
deriving DecidableEq, Repr

/-- A binary format with exponent and mantissa fields (R266). -/
structure Fmt where
  ebits : Nat
  mbits : Nat
  bias : Nat
  hasSign : Bool
  specials : Specials
deriving DecidableEq, Repr

def Fmt.f64 : Fmt := { ebits := 11, mbits := 52, bias := 1023, hasSign := true, specials := .ieee }
def Fmt.f32 : Fmt := { ebits := 8, mbits := 23, bias := 127, hasSign := true, specials := .ieee }
def Fmt.f16 : Fmt := { ebits := 5, mbits := 10, bias := 15, hasSign := true, specials := .ieee }
def Fmt.bf16 : Fmt := { ebits := 8, mbits := 7, bias := 127, hasSign := true, specials := .ieee }
def Fmt.e5m2 : Fmt := { ebits := 5, mbits := 2, bias := 15, hasSign := true, specials := .ieee }
def Fmt.e4m3 : Fmt := { ebits := 4, mbits := 3, bias := 7, hasSign := true, specials := .topNan }
def Fmt.e3m2 : Fmt := { ebits := 3, mbits := 2, bias := 3, hasSign := true, specials := .finite }
def Fmt.e2m3 : Fmt := { ebits := 2, mbits := 3, bias := 1, hasSign := true, specials := .finite }
def Fmt.e2m1 : Fmt := { ebits := 2, mbits := 1, bias := 1, hasSign := true, specials := .finite }
def Fmt.e3m5 : Fmt := { ebits := 3, mbits := 5, bias := 3, hasSign := false, specials := .finite }

/-- Bits of an element. -/
def Fmt.width (f : Fmt) : Nat := f.ebits + f.mbits + (if f.hasSign then 1 else 0)

/-- Smallest normal exponent (R266). -/
def Fmt.emin (f : Fmt) : Int := 1 - (f.bias : Int)

/-- The magnitude code of the largest finite value (R266). -/
def Fmt.maxCode (f : Fmt) : Nat :=
  match f.specials with
  | .ieee => (2 ^ f.ebits - 1) * 2 ^ f.mbits - 1
  | .topNan => 2 ^ (f.ebits + f.mbits) - 2
  | .finite => 2 ^ (f.ebits + f.mbits) - 1

/-- The sign bit of a result. -/
def Fmt.signBit (f : Fmt) (neg : Bool) : Nat := if neg && f.hasSign then 2 ^ (f.ebits + f.mbits) else 0

/-- The magnitude code of infinity, for the formats that have one. -/
def Fmt.infCode (f : Fmt) : Nat := (2 ^ f.ebits - 1) * 2 ^ f.mbits

/-- The default NaN (R74). -/
def Fmt.nanCode (f : Fmt) : Nat :=
  match f.specials with
  | .ieee => f.infCode + 2 ^ (f.mbits - 1)
  | .topNan => 2 ^ (f.ebits + f.mbits) - 1
  | .finite => 0

/-- The five exceptions of R73, in the bit places of FPST (R277). -/
abbrev Flags := BitVec 5
def flagNV : Flags := 1
def flagDZ : Flags := 2
def flagOF : Flags := 4
def flagUF : Flags := 8
def flagNX : Flags := 16

/-- An exact finite value: (-1)^neg * mag * 2^exp. -/
structure Dy where
  neg : Bool
  mag : Nat
  exp : Int
deriving DecidableEq, Repr

/-- The value of an element (R267). -/
inductive FVal where
  | nan (signalling : Bool)
  | inf (neg : Bool)
  | fin (d : Dy)
deriving DecidableEq, Repr

/-- A result with the exceptions it raises. -/
structure FRes where
  code : Nat
  flags : Flags
deriving DecidableEq, Repr

/-- R267: the value of a code. -/
def Fmt.value (f : Fmt) (code : Nat) : FVal :=
  let neg := f.hasSign && code.testBit (f.ebits + f.mbits)
  let e := code / 2 ^ f.mbits % 2 ^ f.ebits
  let m := code % 2 ^ f.mbits
  let finite := if e = 0 then FVal.fin { neg := neg, mag := m, exp := f.emin - f.mbits }
    else FVal.fin { neg := neg, mag := 2 ^ f.mbits + m, exp := (e : Int) - f.bias - f.mbits }
  match f.specials with
  | .finite => finite
  | .topNan => if e = 2 ^ f.ebits - 1 ∧ m = 2 ^ f.mbits - 1 then .nan false else finite
  | .ieee =>
    if e = 2 ^ f.ebits - 1 then if m = 0 then .inf neg else .nan (!m.testBit (f.mbits - 1)) else finite

/-- R266, R267: e8m0 has no zero and no sign. -/
def e8m0Value (code : Nat) : FVal :=
  if code % 256 = 255 then .nan false else .fin { neg := false, mag := 1, exp := (code % 256 : Nat) - 127 }

/-- The rounding modes of M[1:0] (R13). -/
inductive Rnd where
  | rne | rtz | rup | rdn
deriving DecidableEq, Repr

def Rnd.ofCode : Nat → Rnd
  | 0 => .rne
  | 1 => .rtz
  | 2 => .rup
  | _ => .rdn

/-- Multiplies by a power of two, which may be negative: the two halves of a quotient. -/
def scaleUp (n : Nat) (s : Int) : Nat := n <<< s.toNat

/-- floor(log2(n/d * 2^e)) for positive n and d. -/
def floorLog2 (n d : Nat) (e : Int) : Int :=
  let k : Int := (Nat.log2 n : Int) - Nat.log2 d
  let k := if scaleUp n (-k) ≥ scaleUp d k then k else k - 1
  k + e

/-- R273: the magnitude n/d * 2^e rounded to a multiple of 2^ulp; the quotient and whether it was inexact. -/
def roundQuot (mode : Rnd) (neg : Bool) (n d : Nat) (e ulp : Int) : Nat × Bool :=
  let s := e - ulp
  let num := scaleUp n s
  let den := scaleUp d (-s)
  let q := num / den
  let r := num % den
  let up := match mode with
    | .rne => decide (2 * r > den) || (decide (2 * r = den) && q % 2 == 1)
    | .rtz => false
    | .rup => decide (r ≠ 0) && !neg
    | .rdn => decide (r ≠ 0) && neg
  (if up then q + 1 else q, decide (r ≠ 0))

/-- Whether a rounding of this sign goes away from zero when the value overflows (R76). -/
def Rnd.overflowsAway (mode : Rnd) (neg : Bool) : Bool :=
  match mode with
  | .rne => true
  | .rtz => false
  | .rup => !neg
  | .rdn => neg

/-- R84, R275: the code of a finite overflow. -/
def Fmt.overflow (f : Fmt) (mode : Rnd) (sat neg : Bool) : FRes :=
  let c := match f.specials with
    | .finite => f.maxCode
    | .topNan => if sat then f.maxCode else 2 ^ (f.ebits + f.mbits) - 1
    | .ieee => if !sat && mode.overflowsAway neg then f.infCode else f.maxCode
  { code := f.signBit neg + c, flags := flagOF ||| flagNX }

/-- The code of q * 2^ulp, where ulp is the spacing of a binade that q may just leave (R273). -/
def Fmt.pack (f : Fmt) (q : Nat) (ulp : Int) : Nat :=
  if q < 2 ^ f.mbits then q
  else
    let (q, ulp) := if q = 2 ^ (f.mbits + 1) then (2 ^ f.mbits, ulp + 1) else (q, ulp)
    (ulp + f.mbits + f.bias).toNat * 2 ^ f.mbits + (q - 2 ^ f.mbits)

/-- R273, R274: rounds the exact nonzero magnitude n/d * 2^e with a sign. A negative value into an unsigned format
is handled by the caller. -/
def Fmt.round (f : Fmt) (mode : Rnd) (sat neg : Bool) (n d : Nat) (e : Int) : FRes :=
  if n = 0 then { code := f.signBit neg, flags := 0 }
  else
    let e0 := max (floorLog2 n d e) f.emin
    let ulp := e0 - f.mbits
    let (q, inexact) := roundQuot mode neg n d e ulp
    let c := f.pack q ulp
    if c > f.maxCode then f.overflow mode sat neg
    else
      let tiny := decide (q < 2 ^ f.mbits)
      { code := f.signBit neg + c,
        flags := (if inexact then flagNX else 0) ||| (if inexact && tiny then flagUF else 0) }

/-- Rounds an exact value; a zero keeps its sign. -/
def Fmt.roundDy (f : Fmt) (mode : Rnd) (x : Dy) : FRes := f.round mode false x.neg x.mag 1 x.exp

/-- R74: the default NaN with invalid raised. -/
def Fmt.invalid (f : Fmt) : FRes := { code := f.nanCode, flags := flagNV }

/-- R74: the NaN result of an operation with these operands. -/
def Fmt.nanOf (f : Fmt) (xs : List FVal) : FRes :=
  { code := f.nanCode, flags := if xs.contains (.nan true) then flagNV else 0 }

def FVal.isNan : FVal → Bool
  | .nan _ => true
  | _ => false

def FVal.isInf : FVal → Bool
  | .inf _ => true
  | _ => false

def FVal.isSnan : FVal → Bool
  | .nan s => s
  | _ => false

def FVal.neg? : FVal → Bool
  | .nan _ => false
  | .inf n => n
  | .fin d => d.neg

/-- A value with its sign inverted. -/
def FVal.flip : FVal → FVal
  | .nan s => .nan s
  | .inf n => .inf (!n)
  | .fin d => .fin { d with neg := !d.neg }

/-- A finite value as an integer at an exponent no greater than its own. -/
def Dy.at (x : Dy) (e : Int) : Int :=
  let m : Int := scaleUp x.mag (x.exp - e)
  if x.neg then -m else m

/-- The exact sum, with the sign of an exact zero by R76: minus zero when both are, and in rdn (DEDUCED, log 34: there also
for two zeros of sign plus, as the rule's words have it). -/
def Dy.add (mode : Rnd) (x y : Dy) : Dy :=
  let e := min x.exp y.exp
  let s := x.at e + y.at e
  if s = 0 then { neg := decide (mode = .rdn) || (x.neg && y.neg), mag := 0, exp := 0 }
  else { neg := decide (s < 0), mag := s.natAbs, exp := e }

/-- The exact product. -/
def Dy.mul (x y : Dy) : Dy := { neg := x.neg != y.neg, mag := x.mag * y.mag, exp := x.exp + y.exp }

/-- R76: a + b. -/
def Fmt.add (f : Fmt) (mode : Rnd) (x y : FVal) : FRes :=
  match x, y with
  | .fin a, .fin b => f.roundDy mode (Dy.add mode a b)
  | .inf a, .inf b => if a = b then { code := f.signBit a + f.infCode, flags := 0 } else f.invalid
  | .inf a, .fin _ => { code := f.signBit a + f.infCode, flags := 0 }
  | .fin _, .inf b => { code := f.signBit b + f.infCode, flags := 0 }
  | x, y => f.nanOf [x, y]

/-- An exact product, invalid for 0 times infinity (R76). -/
def mulVal (x y : FVal) : Option FVal :=
  match x, y with
  | .nan s, .nan t => some (.nan (s || t))
  | .nan s, _ => some (.nan s)
  | _, .nan s => some (.nan s)
  | .inf a, .inf b => some (.inf (a != b))
  | .inf a, .fin d => if d.mag = 0 then none else some (.inf (a != d.neg))
  | .fin d, .inf a => if d.mag = 0 then none else some (.inf (a != d.neg))
  | .fin a, .fin b => some (.fin (a.mul b))

/-- R76: a * b. -/
def Fmt.mul (f : Fmt) (mode : Rnd) (x y : FVal) : FRes :=
  if x.isNan || y.isNan then f.nanOf [x, y]
  else match mulVal x y with
    | none => f.invalid
    | some (.fin d) => f.roundDy mode d
    | some (.inf n) => { code := f.signBit n + f.infCode, flags := 0 }
    | some (.nan _) => f.nanOf [x, y]

/-- R76: a * b + c with one rounding; 0 times infinity is invalid even when c is a NaN. -/
def Fmt.fma (f : Fmt) (mode : Rnd) (x y z : FVal) : FRes :=
  match mulVal x y with
  | none => f.invalid
  | some p => if x.isNan || y.isNan || z.isNan then f.nanOf [x, y, z] else f.add mode p z

/-- R76: a / b. -/
def Fmt.div (f : Fmt) (mode : Rnd) (x y : FVal) : FRes :=
  match x, y with
  | .fin a, .fin b =>
    let neg := a.neg != b.neg
    if b.mag = 0 then
      if a.mag = 0 then f.invalid else { code := f.signBit neg + f.infCode, flags := flagDZ }
    else f.round mode false neg a.mag b.mag (a.exp - b.exp)
  | .inf _, .inf _ => f.invalid
  | .inf a, .fin b => { code := f.signBit (a != b.neg) + f.infCode, flags := 0 }
  | .fin a, .inf b => { code := f.signBit (a.neg != b), flags := 0 }
  | x, y => f.nanOf [x, y]

/-- The integer square root by bits, from bit i down. -/
def isqrtFrom (n : Nat) : Nat → Nat → Nat
  | 0, r => if (r + 1) * (r + 1) ≤ n then r + 1 else r
  | i + 1, r => isqrtFrom n i (if (r + 2 ^ (i + 1)) * (r + 2 ^ (i + 1)) ≤ n then r + 2 ^ (i + 1) else r)

/-- The square root of mag * 2^exp as a magnitude whose lowest bit is set when bits are left over. -/
def sqrtDy (mag : Nat) (exp : Int) : Nat × Int :=
  let (n, e) := if exp % 2 = 0 then (mag <<< 128, exp - 128) else (mag <<< 129, exp - 129)
  let r := isqrtFrom n 160 0
  (if r * r = n then 2 * r else 2 * r + 1, e / 2 - 1)

/-- R76: the square root; of minus zero, minus zero. -/
def Fmt.sqrt (f : Fmt) (mode : Rnd) (x : FVal) : FRes :=
  match x with
  | .fin a =>
    if a.mag = 0 then { code := f.signBit a.neg, flags := 0 }
    else if a.neg then f.invalid
    else
      let (m, e) := sqrtDy a.mag a.exp
      f.round mode false false m 1 e
  | .inf n => if n then f.invalid else { code := f.infCode, flags := 0 }
  | .nan s => f.nanOf [.nan s]

/-- Compares two values that are not NaNs, zeros equal: negative, zero or positive. -/
def FVal.cmp (x y : FVal) : Int :=
  match x, y with
  | .inf a, .inf b => if a = b then 0 else if a then -1 else 1
  | .inf a, _ => if a then -1 else 1
  | _, .inf b => if b then 1 else -1
  | .fin a, .fin b => let e := min a.exp b.exp; (a.at e - b.at e).sign
  | _, _ => 0

/-- R77: minimumNumber and maximumNumber, minus zero below plus zero; the operands are given with their codes. -/
def Fmt.minMax (f : Fmt) (isMax : Bool) (a b : Nat) : FRes :=
  let x := f.value a
  let y := f.value b
  let fl := if x.isSnan || y.isSnan then flagNV else 0
  if x.isNan && y.isNan then { code := f.nanCode, flags := fl }
  else if x.isNan then { code := b, flags := fl }
  else if y.isNan then { code := a, flags := fl }
  else
    let c := x.cmp y
    let aLess := decide (c < 0) || (decide (c = 0) && x.neg? && !y.neg?)
    { code := if aLess != isMax then a else b, flags := fl }

/-- R79: the condition of a comparison and the exceptions it raises. -/
def floatCompare (cond : Nat) (x y : FVal) : Bool × Flags :=
  let un := x.isNan || y.isNan
  let signalling := 2 ≤ cond ∧ cond ≤ 5
  let fl : Flags := if (un && decide signalling) || x.isSnan || y.isSnan then flagNV else 0
  let c := x.cmp y
  let t := match cond with
    | 0 => !un && c == 0
    | 1 => un || c != 0
    | 2 => !un && decide (c < 0)
    | 3 => !un && decide (c ≤ 0)
    | 4 => !un && decide (c > 0)
    | 5 => !un && decide (c ≥ 0)
    | 6 => un
    | _ => !un
  (t, fl)

/-- R80: the one-hot class mask. -/
def Fmt.classMask (f : Fmt) (code : Nat) : Nat :=
  let sub := code / 2 ^ f.mbits % 2 ^ f.ebits = 0
  match f.value code with
  | .nan s => if s then 256 else 512
  | .inf n => if n then 1 else 128
  | .fin d =>
    if d.mag = 0 then if d.neg then 8 else 16
    else if sub then if d.neg then 4 else 32
    else if d.neg then 2 else 64

/-- Sums exact values at one exponent. -/
def sumAt (e : Int) : List Dy → Int
  | [] => 0
  | d :: ds => d.at e + sumAt e ds

/-- The least exponent of a list, or the start value. -/
def minExp (start : Int) (ds : List Dy) : Int := ds.foldl (fun e d => min e d.exp) start

/-- The exact sum of terms: a zero sum is minus zero only when every term is (R81, R276). -/
def exactSum (ds : List Dy) : Dy :=
  let e := minExp 0 ds
  let s := sumAt e ds
  if s = 0 then { neg := !ds.isEmpty && ds.all (fun d => d.neg && d.mag == 0), mag := 0, exp := 0 }
  else { neg := decide (s < 0), mag := s.natAbs, exp := e }

/-- Terms summed with infinities and NaNs: invalid when a product was, or infinities of both signs meet; the bool
tells a signalling operand (R81, R148). -/
def sumVals (terms : List (Option FVal)) : FVal × Bool :=
  let vs := terms.filterMap id
  if terms.contains none then (.nan false, true)
  else if vs.any FVal.isNan then (.nan false, vs.any FVal.isSnan)
  else if vs.any (· == .inf true) && vs.any (· == .inf false) then (.nan false, true)
  else if vs.any (· == .inf true) then (.inf true, false)
  else if vs.any (· == .inf false) then (.inf false, false)
  else (.fin (exactSum (vs.filterMap (fun v => match v with | .fin d => some d | _ => none))), false)

/-- R81: c plus products, with one rounding to f32. -/
def dotRes (c : FVal) (terms : List (Option FVal)) : FRes :=
  let (x, nv) := sumVals (some c :: terms)
  match x with
  | .nan _ => { code := Fmt.f32.nanCode, flags := if nv then flagNV else 0 }
  | .inf n => { code := Fmt.f32.signBit n + Fmt.f32.infCode, flags := 0 }
  | .fin d => Fmt.f32.roundDy .rne d

/-! ## Conversion -/

/-- The formats that R82 names by code. -/
inductive ElemFmt where
  | float (f : Fmt)
  | e8m0
  | int (w : Nat) (signed : Bool)
deriving DecidableEq, Repr

/-- R82: the format of a code. -/
def ElemFmt.ofCode : Nat → Option ElemFmt
  | 0x00 => some (.float .f32) | 0x01 => some (.float .f64) | 0x02 => some (.float .f16)
  | 0x03 => some (.float .bf16) | 0x04 => some (.float .e4m3) | 0x05 => some (.float .e5m2)
  | 0x06 => some (.float .e3m2) | 0x07 => some (.float .e2m3) | 0x08 => some (.float .e2m1)
  | 0x09 => some .e8m0 | 0x0A => some (.float .e3m5)
  | 0x10 => some (.int 32 true) | 0x11 => some (.int 32 false) | 0x12 => some (.int 64 true)
  | 0x13 => some (.int 64 false) | 0x14 => some (.int 16 true) | 0x15 => some (.int 16 false)
  | 0x16 => some (.int 8 true) | 0x17 => some (.int 8 false) | 0x18 => some (.int 4 true)
  | _ => none

def ElemFmt.width : ElemFmt → Nat
  | .float f => f.width
  | .e8m0 => 8
  | .int w _ => w

def ElemFmt.isInt : ElemFmt → Bool
  | .int _ _ => true
  | _ => false

/-- The exact value of an element in the low bits of a register (R82). -/
def ElemFmt.value (f : ElemFmt) (x : Nat) : FVal :=
  match f with
  | .float f => f.value (x % 2 ^ f.width)
  | .e8m0 => e8m0Value x
  | .int w s =>
    let v := if s then signed w x else ((x % 2 ^ w : Nat) : Int)
    .fin { neg := decide (v < 0), mag := v.natAbs, exp := 0 }

/-- The least and greatest value of an integer format (R270). -/
def intRange (w : Nat) (s : Bool) : Int × Int :=
  if s then (-(2 ^ (w - 1) : Nat), (2 ^ (w - 1) : Nat) - 1) else (0, (2 ^ w : Nat) - 1)

/-- R84: a rational with a sign, clamped to an integer format after rounding to an integral value. -/
def toIntFormat (w : Nat) (s : Bool) (mode : Rnd) (neg : Bool) (n d : Nat) (e : Int) : FRes :=
  let (q, inexact) := roundQuot mode neg n d e 0
  let v : Int := if neg then -(q : Int) else q
  let (lo, hi) := intRange w s
  if v < lo then { code := low w lo, flags := flagNV }
  else if v > hi then { code := low w hi, flags := flagNV }
  else { code := low w v, flags := if inexact then flagNX else 0 }

/-- R84, R275: a NaN source. -/
def nanFate (dst : ElemFmt) (signalling : Bool) : FRes :=
  match dst with
  | .float f => match f.specials with
    | .finite => { code := 0, flags := flagNV }
    | _ => { code := f.nanCode, flags := if signalling then flagNV else 0 }
  | .e8m0 => { code := 0xFF, flags := 0 }
  | .int _ _ => { code := 0, flags := flagNV }

/-- R84, R275: an infinite source. -/
def infFate (dst : ElemFmt) (sat neg : Bool) : FRes :=
  match dst with
  | .float f => match f.specials with
    | .ieee => if sat then { code := f.signBit neg + f.maxCode, flags := flagNX }
        else { code := f.signBit neg + f.infCode, flags := 0 }
    | .topNan => if sat then { code := f.signBit neg + f.maxCode, flags := flagOF ||| flagNX }
        else { code := f.signBit neg + 2 ^ (f.ebits + f.mbits) - 1, flags := flagOF }
    | .finite => if neg && !f.hasSign then { code := 0, flags := flagNV }
        else { code := f.signBit neg + f.maxCode, flags := flagOF ||| flagNX }
  | .e8m0 => { code := 0xFF, flags := 0 }
  | .int w s =>
    let (lo, hi) := intRange w s
    { code := low w (if neg then lo else hi), flags := flagNV }

/-- R84: a finite quotient n/d * 2^e of a float source, or of an integer source into a float format. A negative value into an
unsigned format is invalid, and inexact because the result differs (DEDUCED, log 64). -/
def finFate (dst : ElemFmt) (mode : Rnd) (sat neg : Bool) (n d : Nat) (e : Int) : FRes :=
  match dst with
  | .float f => if n ≠ 0 && neg && !f.hasSign then { code := 0, flags := flagNV ||| flagNX } else f.round mode sat neg n d e
  | .e8m0 => { code := 0xFF, flags := 0 }
  | .int w s => toIntFormat w s mode neg n d e

/-- R83, R84: converts one element. -/
def convert (dst src : ElemFmt) (mode : Rnd) (sat : Bool) (x : Nat) : FRes :=
  match dst, src with
  | .int w s, .int w' s' =>
    let v := if s' then signed w' x else ((x % 2 ^ w' : Nat) : Int)
    let (lo, hi) := intRange w s
    { code := low w (if sat then max lo (min hi v) else v), flags := 0 }
  | dst, src => match src.value x with
    | .nan g => nanFate dst g
    | .inf n => infFate dst sat n
    | .fin d => finFate dst mode sat d.neg d.mag 1 d.exp

/-- R85: stochastic rounding with the draw r; the binade has no upper limit, integers have spacing 1. Every source that is not
representable raises inexact, beside what the overflow column raises (DEDUCED, log 64). -/
def convertStochastic (dst src : ElemFmt) (sat : Bool) (x r : Nat) : FRes :=
  match src.value x with
  | .nan g => nanFate dst g
  | .inf n => infFate dst sat n
  | .fin a =>
    let ulp : Int := match dst with
      | .float f => if a.mag = 0 then 0 else max (floorLog2 a.mag 1 a.exp) f.emin - f.mbits
      | _ => 0
    let s := a.exp - ulp
    let num := scaleUp a.mag s
    let den := scaleUp 1 (-s)
    let q := num / den
    let frac := num % den
    if frac = 0 then
      let res := finFate dst .rne sat a.neg a.mag 1 a.exp
      { res with flags := res.flags ||| (match dst with | .int _ _ => if res.flags &&& flagNV = 0 then 0 else flagNX | _ => 0) }
    else
      let y := if frac * 65536 > (r % 65536) * den then q + 1 else q
      match dst with
      | .int w s =>
        let v : Int := if a.neg then -(y : Int) else y
        let (lo, hi) := intRange w s
        if v < lo then { code := low w lo, flags := flagNV ||| flagNX }
        else if v > hi then { code := low w hi, flags := flagNV ||| flagNX }
        else { code := low w v, flags := flagNX }
      | .e8m0 => { code := 0xFF, flags := 0 }
      | .float f =>
        if a.neg && !f.hasSign then { code := 0, flags := flagNV ||| flagNX }
        else
          let res := f.round (if y = q then .rtz else if a.neg then .rdn else .rup) sat a.neg y 1 ulp
          { res with flags := res.flags ||| flagNX ||| (if decide (y < 2 ^ f.mbits) then flagUF else 0) }

/-- R86: rounds to an integral value in the same format. -/
def Fmt.integral (f : Fmt) (mode : Rnd) (code : Nat) : FRes :=
  match f.value code with
  | .nan g => f.nanOf [.nan g]
  | .inf _ => { code := code, flags := 0 }
  | .fin d =>
    if d.mag = 0 then { code := code, flags := 0 }
    else
      let (q, _) := roundQuot mode d.neg d.mag 1 d.exp 0
      { code := (f.round .rtz false d.neg q 1 0).code, flags := 0 }

/-- R15: a truncated FP32 immediate, and its exact or rounded reading in another type. -/
def convF32 (f : Fmt) (x : Nat) : Nat :=
  if f = .f32 then x % 2 ^ 32 else (convert (.float f) (.float .f32) .rne false x).code

end Sys2Proof.Machine
end

