-- ==== Sys2Proof/Syntax.lean ====
section
/-! DEFINITION. The instructions: one constructor of Instr per row of the opcode table. Main-word instructions
carry the fields of R10, engine words the fields of R26, steps of the hardware the names of what they act on. -/

namespace Sys2Proof

/-- The two hub dies of a package (R1). -/
inductive HubId where
  | h0 | h1
deriving DecidableEq, Repr

/-- The profiles of the main word (R5). -/
inductive Profile where
  | S | V
deriving DecidableEq, Repr

/-- The four engines of an array cluster, in their numbering of R183. -/
inductive EngineKind where
  | access | array | drain | kiln
deriving DecidableEq, Repr

/-- A core of a chiplet by hub, ring position and number (R188); an array cluster is named the same way. -/
structure CoreId where
  hub : HubId
  chiplet : Nat
  core : Nat
deriving DecidableEq, Repr

/-- A unit that fetches main words: a vector core, a scalar core, or a control core (R5). -/
inductive CoreUnit where
  | vector (core : CoreId)
  | scalar (hub : HubId) (core : Nat)
  | control (cluster : CoreId)
deriving DecidableEq, Repr

/-- The literal words that follow a main word, as many as its L field gives (R10). -/
inductive Lits where
  | none
  | one (w0 : Word)
  | two (w0 w1 : Word)
deriving DecidableEq, Repr

/-- The fields of a main word but its opcode, with its literal words (R10). -/
structure MainWord where
  lits : Lits
  /-- G[3] of the guard: negate (R12). -/
  neg : Bool
  /-- G[2:0] of the guard: the predicate (R12). -/
  pred : BitVec 3
  d : Byte
  a : Byte
  b : Byte
  c : Byte
  m : BitVec 4
  x : BitVec 12
deriving DecidableEq, Repr

/-- An engine stopped at a translation fault, the source of a page request (R385): a copy of a vector team's
copy engine, or the access engine of an array team. -/
inductive StopSource where
  | copy (team copy : Nat)
  | engine (team : Nat)
deriving DecidableEq, Repr

/-- Where an uncorrectable error is found, by the rows of R393. -/
inductive ErrorTarget where
  | vReg (team gid reg lane : Nat)
  | sReg (team gid reg : Nat)
  | predicate (team gid reg : Nat)
  | scratchWord (team core word : Nat)
  | constWord (team bank word : Nat)
  | cacheLine (team core line : Nat)
  | readOnlyLine (hub : HubId) (chiplet line : Nat)
  | codeLine (team core address : Nat)
  | tileRow (team gid tile row : Nat)
  | teamState (team : Nat)
  | accRow (team row : Nat)
  | weightSet (team : Nat) (shadow : Bool)
  | memoryGranule (address : Nat)
  | cleanLine (hub : HubId) (line : Nat)
  | dirtyLine (line : Nat)
  | persistWord (hub : HubId) (index word : Nat)
  | tierWord (address : Nat)
deriving DecidableEq, Repr

/-- A target that holds an access table (R429). -/
inductive AccessTarget where
  | home (hub : HubId)
  | launch (hub : HubId) (queue : Nat)
  | names (hub : HubId)
  | cxl (hub : HubId) (port : Nat)
  | hostPort
  /-- A home slice, or a name directory, of another package, whose entries a hub mirrors (R430): by the PEER number of its hub. -/
  | peer (home : Nat)
  | peerNames (home : Nat)
  /-- A CXL port of another package (R429). -/
  | peerCxl (home port : Nat)
deriving DecidableEq, Repr

/-- A line that an agent asks for, with the DUR bit of the page by which it is named (R350). -/
structure PageLine where
  line : Nat
  durable : Bool
deriving DecidableEq, Repr

/-- An entry of an access table (R429). -/
structure AccessEntry where
  base : Dword
  limit : Dword
  tenant : Half
  tmask : Half
  source : Half
  smask : Half
  levels : Byte
  rights : Byte
deriving DecidableEq, Repr

/-- The instructions of the device: the main words of the S and V profiles, the engine words, and the steps
that the hardware itself takes. -/
inductive Instr where
  /-- IADD: Integer add modulo 2^w. (R43) -/
  | iadd (w : MainWord)
  /-- ISUB: Integer subtract modulo 2^w. (R43) -/
  | isub (w : MainWord)
  /-- IMUL: Integer multiply, low w bits. (R43) -/
  | imul (w : MainWord)
  /-- IMULH: Integer multiply, high w bits of the exact 2w-bit product. (R43) -/
  | imulh (w : MainWord)
  /-- IMAD: Integer multiply-add a times b plus c. (R43) -/
  | imad (w : MainWord)
  /-- IDIV: Integer divide truncating toward zero, never trapping. (R44) -/
  | idiv (w : MainWord)
  /-- IREM: Integer remainder with the sign of the dividend. (R44) -/
  | irem (w : MainWord)
  /-- IMIN: Integer minimum. (R43) -/
  | imin (w : MainWord)
  /-- IMAX: Integer maximum. (R43) -/
  | imax (w : MainWord)
  /-- IABS: Integer absolute value of a signed type. (R43) -/
  | iabs (w : MainWord)
  /-- AND: Bitwise and. (R45) -/
  | and (w : MainWord)
  /-- OR: Bitwise or. (R45) -/
  | or (w : MainWord)
  /-- XOR: Bitwise exclusive or. (R45) -/
  | xor (w : MainWord)
  /-- ANDN: Bitwise a and not b. (R45) -/
  | andn (w : MainWord)
  /-- BMIX: Bitwise three-input function given by an 8-bit truth table. (R46) -/
  | bmix (w : MainWord)
  /-- SHL: Shift left, zeros in. (R47) -/
  | shl (w : MainWord)
  /-- SHR: Logical shift right. (R47) -/
  | shr (w : MainWord)
  /-- SAR: Arithmetic shift right. (R47) -/
  | sar (w : MainWord)
  /-- ROTL: Rotate left by k mod w. (R47) -/
  | rotl (w : MainWord)
  /-- POPC: Population count. (R48) -/
  | popc (w : MainWord)
  /-- CLZ: Count leading zeros. (R48) -/
  | clz (w : MainWord)
  /-- CTZ: Count trailing zeros. (R48) -/
  | ctz (w : MainWord)
  /-- BREV: Bit reverse. (R48) -/
  | brev (w : MainWord)
  /-- BFX: Bit field extract with packed position and length. (R49) -/
  | bfx (w : MainWord)
  /-- BFI: Bit field insert with packed position and length. (R49) -/
  | bfi (w : MainWord)
  /-- ICMP: Integer compare into a predicate, optionally combined with another. (R50) -/
  | icmp (w : MainWord)
  /-- PLOG: Three-input truth table over predicates. (R51) -/
  | plog (w : MainWord)
  /-- SEL: Select a or b by a predicate. (R52) -/
  | sel (w : MainWord)
  /-- MOV: Copy an operand to a register. (R53) -/
  | mov (w : MainWord)
  /-- PMOV_FROM_PRED: PMOV M=0: write a predicate as 0 or 1 to a register. (R54) -/
  | pmovFromPred (w : MainWord)
  /-- PMOV_TO_PRED: PMOV M=1: set a predicate from a nonzero test of a register. (R54) -/
  | pmovToPred (w : MainWord)
  /-- PMOV_GET: PMOV M=2: pack the eight predicates into a register. (R54) -/
  | pmovGet (w : MainWord)
  /-- PMOV_SET: PMOV M=3: set p1-p7 from bits of a register. (R54) -/
  | pmovSet (w : MainWord)
  /-- LEA: Address computation base plus shifted index. (R55) -/
  | lea (w : MainWord)
  /-- FADD: Floating-point add, one rounding. (R76) -/
  | fadd (w : MainWord)
  /-- FSUB: Floating-point subtract. (R76) -/
  | fsub (w : MainWord)
  /-- FMUL: Floating-point multiply. (R76) -/
  | fmul (w : MainWord)
  /-- FFMA: Fused multiply-add with one rounding. (R76) -/
  | ffma (w : MainWord)
  /-- FMIN: IEEE minimumNumber. (R77) -/
  | fmin (w : MainWord)
  /-- FMAX: IEEE maximumNumber. (R77) -/
  | fmax (w : MainWord)
  /-- FABS: Clear the sign bit. (R78) -/
  | fabs (w : MainWord)
  /-- FNEG: Invert the sign bit. (R78) -/
  | fneg (w : MainWord)
  /-- FDIV: Floating-point divide. (R76) -/
  | fdiv (w : MainWord)
  /-- FSQRT: Floating-point square root. (R76) -/
  | fsqrt (w : MainWord)
  /-- FCMP: Floating-point compare into a predicate. (R79) -/
  | fcmp (w : MainWord)
  /-- FCLASS: Write the one-hot class mask of a float. (R80) -/
  | fclass (w : MainWord)
  /-- FDOT2: Packed two-element 16-bit dot product into f32. (R81) -/
  | fdot2 (w : MainWord)
  /-- FDOT4: Packed four-element 8-bit dot product into f32 or s32. (R81) -/
  | fdot4 (w : MainWord)
  /-- CVT: Convert one element between format codes. (R83) -/
  | cvt (w : MainWord)
  /-- CVTS: Convert with stochastic rounding from program-supplied bits. (R85) -/
  | cvts (w : MainWord)
  /-- FRND: Round to an integral value in the same type. (R86) -/
  | frnd (w : MainWord)
  /-- FRCP: Approximate reciprocal. (R87) -/
  | frcp (w : MainWord)
  /-- FRSQ: Approximate reciprocal square root. (R87) -/
  | frsq (w : MainWord)
  /-- FEXP2: Approximate base-2 exponential. (R87) -/
  | fexp2 (w : MainWord)
  /-- FLOG2: Approximate base-2 logarithm. (R87) -/
  | flog2 (w : MainWord)
  /-- FSIN: Approximate sin of pi times a. (R87) -/
  | fsin (w : MainWord)
  /-- FCOS: Approximate cos of pi times a. (R87) -/
  | fcos (w : MainWord)
  /-- FTANH: Approximate hyperbolic tangent. (R87) -/
  | ftanh (w : MainWord)
  /-- QSCL: Compute one block scale per block of lanes. (R90) -/
  | qscl (w : MainWord)
  /-- QPACK: Scale, convert and pack block-format elements. (R91) -/
  | qpack (w : MainWord)
  /-- QUNPK: Unpack and scale block-format elements to f32. (R92) -/
  | qunpk (w : MainWord)
  /-- SHAPE: Read a v register's declared shape, base or stride. (R93) -/
  | shape (w : MainWord)
  /-- PRDX: Reduce a predicate over active lanes. (R95) -/
  | prdx (w : MainWord)
  /-- BALLOT: Write a 64-bit lane mask of the chosen mode. (R96) -/
  | ballot (w : MainWord)
  /-- LXCH: Read a value from another lane of the segment. (R97) -/
  | lxch (w : MainWord)
  /-- LXOP: Lane exchange fused with an operation. (R98) -/
  | lxop (w : MainWord)
  /-- SCAN: Segmented prefix over active lanes. (R99) -/
  | scan (w : MainWord)
  /-- PART: Collective append of elements to per-outcome scratchpad lists. (R101) -/
  | part (w : MainWord)
  /-- REORD: Collective stable sort of register contents between lane slots by key. (R103) -/
  | reord (w : MainWord)
  /-- TMMA: Collective tile matrix multiply-accumulate. (R144) -/
  | tmma (w : MainWord)
  /-- TZERO: Zero a tile and clear its row poison. (R151) -/
  | tzero (w : MainWord)
  /-- TLD: Load a tile from scratchpad. (R151) -/
  | tld (w : MainWord)
  /-- TDRN: Convert a tile and store it to scratchpad. (R152) -/
  | tdrn (w : MainWord)
  /-- TREDR: Reduce each tile row into a vector. (R153) -/
  | tredr (w : MainWord)
  /-- TREDC: Reduce each tile column into a vector. (R153) -/
  | tredc (w : MainWord)
  /-- TBCR: Combine a vector into every tile row. (R154) -/
  | tbcr (w : MainWord)
  /-- TBCC: Combine a vector into every tile column. (R154) -/
  | tbcc (w : MainWord)
  /-- TROT: Write a tile from a rotated copy of another. (R155) -/
  | trot (w : MainWord)
  /-- TEW: Elementwise operation over a tile. (R156) -/
  | tew (w : MainWord)
  /-- TGET: Read one tile row into a vector. (R157) -/
  | tget (w : MainWord)
  /-- TSET: Write one tile row from a vector. (R157) -/
  | tset (w : MainWord)
  /-- LD: Global load. (R112) -/
  | ld (w : MainWord)
  /-- ST: Global store. (R112) -/
  | st (w : MainWord)
  /-- PREF: Prefetch a line toward the core without faulting. (R115) -/
  | pref (w : MainWord)
  /-- WB: Write back lines of a range toward their home. (R116) -/
  | wb (w : MainWord)
  /-- INV: Invalidate lines of a range at the given scope. (R116) -/
  | inv (w : MainWord)
  /-- IINV: Invalidate code lines of a range in instruction caches. (R116) -/
  | iinv (w : MainWord)
  /-- IFENCE: Wait for earlier WB and IINV and refetch. (R117) -/
  | ifence (w : MainWord)
  /-- LDS: Scratchpad load. (R119) -/
  | lds (w : MainWord)
  /-- STS: Scratchpad store. (R119) -/
  | sts (w : MainWord)
  /-- LDK: Constant-bank load with a lane-varying offset. (R120) -/
  | ldk (w : MainWord)
  /-- CPY: Start a copy-engine copy of a byte count. (R121) -/
  | cpy (w : MainWord)
  /-- CPYW: Start a copy-engine window or indexed row copy. (R122) -/
  | cpyw (w : MainWord)
  /-- PUBL_DECL: Declare a paired-buffer slot. (R126) -/
  | publDecl (w : MainWord)
  /-- PUBL_SWAP: Exchange the halves of a paired-buffer slot. (R127) -/
  | publSwap (w : MainWord)
  /-- PUBL_FREE: End a paired-buffer slot. (R126) -/
  | publFree (w : MainWord)
  /-- ATOM: Atomic read-modify-write per active lane. (R129) -/
  | atom (w : MainWord)
  /-- CAS: Atomic compare-and-swap per active lane. (R130) -/
  | cas (w : MainWord)
  /-- LDR: Load and place a reservation. (R132) -/
  | ldr (w : MainWord)
  /-- STC: Store conditional on the reservation. (R132) -/
  | stc (w : MainWord)
  /-- FENCE: Order the group's accesses at a scope. (R134) -/
  | fence (w : MainWord)
  /-- PERSIST: Wait until ordered durable stores reach a persist buffer. (R136) -/
  | persist (w : MainWord)
  /-- BARI: Set a named barrier's expected count. (R138) -/
  | bari (w : MainWord)
  /-- BARA: Release and arrive at a named barrier. (R138) -/
  | bara (w : MainWord)
  /-- BARW: Wait for a named barrier's generation to move. (R138) -/
  | barw (w : MainWord)
  /-- BARS: Arrive at and wait on a named barrier. (R138) -/
  | bars (w : MainWord)
  /-- BARQ: Read a named barrier's state. (R138) -/
  | barq (w : MainWord)
  /-- NOP: No operation. (R58) -/
  | nop (w : MainWord)
  /-- BRA: Branch with taken and fall-through priorities. (R59) -/
  | bra (w : MainWord)
  /-- BRX: Branch to a lane-varying target. (R60) -/
  | brx (w : MainWord)
  /-- CALL: Call writing a link word. (R62) -/
  | call (w : MainWord)
  /-- CALLX: Call to a lane-varying target. (R62) -/
  | callx (w : MainWord)
  /-- RET: Return through a link word. (R63) -/
  | ret (w : MainWord)
  /-- EXIT: Retire the active lanes. (R65) -/
  | exit (w : MainWord)
  /-- YIELD: Give up issue slots to other groups. (R66) -/
  | yield (w : MainWord)
  /-- LOOP: Start a hardware loop level on an S-profile core. (R67) -/
  | loop (w : MainWord)
  /-- TRAP: Take a trap with cause 0x0A. (R174) -/
  | trap (w : MainWord)
  /-- SYSC: Take a system-call trap with cause 0x0B. (R174) -/
  | sysc (w : MainWord)
  /-- ERET: Return from a handler. (R175) -/
  | eret (w : MainWord)
  /-- MFCR: Read a control register. (R176) -/
  | mfcr (w : MainWord)
  /-- MTCR: Write a control register. (R176) -/
  | mtcr (w : MainWord)
  /-- TLBI: Remove cached translations at a scope and wait. (R178) -/
  | tlbi (w : MainWord)
  /-- WAITE: Park until a word meets a condition or a timeout. (R179) -/
  | waite (w : MainWord)
  /-- LNCH: Offer a dispatch packet to a hub queue. (R180) -/
  | lnch (w : MainWord)
  /-- ENGS_GO: Start a stopped engine at an index. (R183) -/
  | engsGo (w : MainWord)
  /-- ENGS_ST: Read an engine's status word. (R183) -/
  | engsSt (w : MainWord)
  /-- ENGS_CMD: Append to an engine's command queue. (R183) -/
  | engsCmd (w : MainWord)
  /-- ENGS_SIG: Remove the oldest signal entry of an engine. (R183) -/
  | engsSig (w : MainWord)
  /-- ENGR: Resume or decline an engine stopped at 0x43. (R185) -/
  | engr (w : MainWord)
  /-- SAVEV: Write a .vregs, .sregs or .tiles context image. (R186) -/
  | savev (w : MainWord)
  /-- SAVEV_STATE: Write the .state image, redirecting mail, and end residence under 0x70. (R187) -/
  | savevState (w : MainWord)
  /-- RESTV: Restore a .vregs, .sregs or .tiles image. (R186) -/
  | restv (w : MainWord)
  /-- RESTV_STATE: Restore the .state image, rebind the name and stage lane records. (R187) -/
  | restvState (w : MainWord)
  /-- NAME: Write the group's pod-wide name. (R188) -/
  | name (w : MainWord)
  /-- HOLD_ARM: Arm a mailbox on a v register. (R189) -/
  | holdArm (w : MainWord)
  /-- HOLD_OFF: Disarm a mailbox. (R189) -/
  | holdOff (w : MainWord)
  /-- RSTV: Mail all lanes of a register to a named group. (R190) -/
  | rstv (w : MainWord)
  /-- HARV_ON: Enable harvesting with a limit word. (R191) -/
  | harvOn (w : MainWord)
  /-- HARV_OFF: Stop harvesting and revoke harvest contexts. (R191) -/
  | harvOff (w : MainWord)
  /-- HCHK_LOST: Read the harvest lost-region mask. (R192) -/
  | hchkLost (w : MainWord)
  /-- HCHK_LOSTC: Read and clear the lost-region mask. (R192) -/
  | hchkLostc (w : MainWord)
  /-- HCHK_REVS: Read the revocation count. (R192) -/
  | hchkRevs (w : MainWord)
  /-- PUSH: Push a sign-extended 13-bit literal. (R28) -/
  | push (lit : BitVec 13)
  /-- EXT: Extend the top entry by 13 literal bits. (R28) -/
  | ext (lit : BitVec 13)
  /-- GETL: Push the running iteration index of a loop register. (R161) -/
  | getl (reg : Fin 3)
  /-- SETL: Pop into the remaining count of a loop register. (R161) -/
  | setl (reg : Fin 3)
  /-- ENG_LOOP: Start an engine loop, or skip to its ENDL when the count is zero. (R162) -/
  | engLoop (reg : Fin 3)
  /-- ENDL: End an engine loop iteration. (R162) -/
  | endl (reg : Fin 3)
  /-- TKPOP: Wait for and remove a token. (R163) -/
  | tkpop (queue : BitVec 4)
  /-- TKPSH: Add a token, waiting while the queue is full. (R163) -/
  | tkpsh (queue : BitVec 4)
  /-- TKTST: Push a queue's token count. (R163) -/
  | tktst (queue : BitVec 4)
  /-- CPYIN: Launch a copy of rows from global memory to scratchpad. (R166) -/
  | cpyin (pop push : BitVec 4)
  /-- CPYOUT: Launch a copy of rows from scratchpad to global memory. (R166) -/
  | cpyout (pop push : BitVec 4)
  /-- GATH: Launch an indexed gather into scratchpad. (R166) -/
  | gath (pop push : BitVec 4)
  /-- SCAT: Launch an indexed scatter from scratchpad. (R166) -/
  | scat (pop push : BitVec 4)
  /-- MDFIL: Launch a fill of the metadata or scale queue. (R167) -/
  | mdfil (pop push : BitVec 4)
  /-- WPRE: Launch a load of weights into the shadow set. (R168) -/
  | wpre (pop push : BitVec 4)
  /-- WSWP: Launch an exchange of active and shadow weight sets. (R168) -/
  | wswp (pop push : BitVec 4)
  /-- STRM: Launch a stream of activation rows through dense weights. (R168) -/
  | strm (pop push : BitVec 4)
  /-- STRMS: Launch a stream through 2:4 sparse weights. (R168) -/
  | strms (pop push : BitVec 4)
  /-- DRN: Launch a conversion of accumulator rows to scratchpad. (R169) -/
  | drn (pop push : BitVec 4)
  /-- DCLR: Launch a clear of accumulator rows. (R169) -/
  | dclr (pop push : BitVec 4)
  /-- KSCL: Launch a kiln block-scale computation. (R170) -/
  | kscl (pop push : BitVec 4)
  /-- KPACK: Launch a kiln scale-and-pack. (R170) -/
  | kpack (pop push : BitVec 4)
  /-- KUNPK: Launch a kiln unpack. (R170) -/
  | kunpk (pop push : BitVec 4)
  /-- AGSET: Set an address generator's base and reset it. (R165) -/
  | agset (gen : BitVec 3)
  /-- AGSTR: Set an address generator's strides and inner count. (R165) -/
  | agstr (gen : BitVec 3)
  /-- AGWRAP: Set an address generator's wrap. (R165) -/
  | agwrap (gen : BitVec 3)
  /-- AGRD: Push an address generator's address bits. (R165) -/
  | agrd (gen : BitVec 3)
  /-- CODE_LINE_FILL: An instruction-cache line fill completes and its words are marked. (R20) -/
  | codeLineFill (unit : CoreUnit) (asn : Half) (va : Dword)
  /-- GROUP_SLOT_FREE: A retired group's slot is freed once its accesses have completed. (R65) -/
  | groupSlotFree (team gid : Nat)
  /-- COMPLETION_RECORD_FAULT: A completion record write fails and event 0x76 is queued. (R449) -/
  | completionRecordFault (hub : HubId) (va : Dword) (cause status : Byte)
  /-- BUNDLE_VALIDATION: The head packet's bundle, fields and map reads complete and are checked. (R39) -/
  | bundleValidation (hub : HubId) (queue : Nat)
  /-- DEPENDENCE_SIGNAL_READ: The hub rereads a dependence signal word on a line write or every 4,096 cycles. (R240) -/
  | dependenceSignalRead (hub : HubId) (queue signal : Nat)
  /-- PLACEMENT_CONSIDERATION: Every 8 cycles the hub scheduler hands capacity to the first candidate. (R241) -/
  | placementConsideration (hub : HubId)
  /-- CORE_RESERVATION: One core's reservation is acknowledged after 32 cycles. (R247) -/
  | coreReservation (team : Nat)
  /-- RANGE_CLEAR_DONE: Clearing of a granted pool range completes. (R228) -/
  | rangeClearDone (team : Nat)
  /-- WITHDRAWAL: A committed but unissued team is withdrawn 16 cycles after clearing ends. (R248) -/
  | withdrawal (team : Nat)
  /-- PREEMPTION: A victim group takes cause 0x70 at its next issue boundary. (R250) -/
  | preemption (team gid : Nat)
  /-- SAVE_BUDGET_EXPIRY: A group has not completed SAVEV.state within 64 x PSAVB cycles and the packet is killed. (R251) -/
  | saveBudgetExpiry (team gid : Nat)
  /-- TEAM_SAVE_COMPLETE: The hub's write of team state finishes or faults and the ranges are released. (R251) -/
  | teamSaveComplete (team : Nat)
  /-- REVOCATION_COMPLETE: 384 cycles after its trigger the revocation returns slots and ranges. (R260) -/
  | revocationComplete (core : CoreId)
  /-- HARVEST_REVOKE: A resumed harvest context takes cause 0x71 before issuing. (R192) -/
  | harvestRevoke (team gid : Nat)
  /-- ENTRY_WAKE: A waiting frontier entry becomes ready after its wait's event. (R256) -/
  | entryWake (team gid : Nat)
  /-- WAITE_RECHECK: A parked WAITE rereads its word on a line write or after 4,096 cycles. (R179) -/
  | waiteRecheck (team gid : Nat)
  /-- RESERVATION_EXPIRY: A reservation is lost 4,096 cycles after its LDR. (R133) -/
  | reservationExpiry (hub : HubId) (index : Nat)
  /-- STORE_COMBINING_DRAIN: A store-combining entry is performed at its home. (R316) -/
  | storeCombiningDrain (core : CoreId) (index : Nat)
  /-- PLAIN_READ: A home answers a read with data and wts. (R342) -/
  | plainRead (txn : Nat)
  /-- LEASED_READ: A home grants a read lease and extends rts. (R342) -/
  | leasedRead (txn : Nat)
  /-- HOME_WRITE: A write or RMW is performed at its home and given a new wts. (R342) -/
  | homeWrite (txn : Nat)
  /-- REF_UPDATE: A hub receives a pod reference update and raises LCLK. (R341) -/
  | refUpdate (hub : HubId) (ref : Dword)
  /-- GUARD_ANSWER: A home answers with guard and the requesting hub is fenced. (R344) -/
  | guardAnswer (hub : HubId)
  /-- LEASE_FENCE_TIMEOUT: 1,024 us without a reference update fences the hub. (R344) -/
  | leaseFenceTimeout (hub : HubId)
  /-- LEASE_CUT: A further 1,024 us fenced sets CUT. (R344) -/
  | leaseCut (hub : HubId)
  /-- RELEASE_PUBLISHED: The last drain acknowledgement publishes a narrow-scope release. (R345) -/
  | releasePublished (hub : HubId) (line : Nat)
  /-- PERSIST_BUFFER_DRAIN: A persist buffer entry drains to the durable tier. (R351) -/
  | persistBufferDrain (hub : HubId) (index : Nat)
  /-- PAGE_REQUEST: A stopped engine's page request is written to the ring and event 0x73 queued. (R385) -/
  | pageRequest (source : StopSource)
  /-- PRQC_RESUME: Write PRQC with DECL 0 to resume an engine. (R386) -/
  | prqcResume (hub : HubId) (tag : Half)
  /-- PRQC_DECLINE: Write PRQC with DECL 1 to decline a request. (R386) -/
  | prqcDecline (hub : HubId) (tag : Half)
  /-- CRES: Writing 1 to CRES ends the control core's residence and the hub saves the cluster. (R305) -/
  | cres (team : Nat)
  /-- BANK_FORMAT_WRITE: An MTCR of BFMTL or BFMTH waits for affected operations, then sets the formats. (R283) -/
  | bankFormatWrite (team : Nat) (high : Bool) (value : Dword)
  /-- CHCTL_ISO: Kernel write isolating a chiplet. (R438) -/
  | chctlIso (hub : HubId) (pos : Nat)
  /-- CHCTL_REN: Kernel write resetting and re-enumerating an isolated chiplet. (R437) -/
  | chctlRen (hub : HubId) (pos : Nat)
  /-- REGISTER_WRITE: Write to a queue-space or control register without behaviour of its own. (R236) -/
  | registerWrite (hub : HubId) (offset : Nat) (value : Dword)
  /-- ENUMERATION_COMPLETE: Re-enumeration finishes, LIVE sets and event 0x75 is queued. (R437) -/
  | enumerationComplete (hub : HubId) (pos : Nat) (table : List Byte)
  /-- EVENT_DELIVERY: The event target core takes the oldest queued event. (R375) -/
  | eventDelivery (hub : HubId)
  /-- COPY_LINE_LANDED: A copy's bytes for a scratchpad line land and its presence bit sets. (R123) -/
  | copyLineLanded (team copy : Nat)
  /-- COPY_COMPLETION: A copy's last byte is written and its barrier receives an arrival. (R124) -/
  | copyCompletion (team copy : Nat)
  /-- COPY_TRANSLATION_FAULT: A copy stops at a cursor with engine translation fault. (R125) -/
  | copyTranslationFault (team copy : Nat)
  /-- COPY_WRITE_FAILURE: A copy's write is refused or its source poisoned and the cause is held. (R448) -/
  | copyWriteFailure (team copy : Nat)
  /-- ENGINE_OP_START: An engine operation starts after its token and outstanding-limit waits. (R164) -/
  | engineOpStart (team : Nat) (engine : EngineKind)
  /-- ENGINE_OP_FINISH: An engine operation finishes and pushes its token. (R164) -/
  | engineOpFinish (team : Nat) (engine : EngineKind)
  /-- ENGINE_TRANSLATION_FAULT: An access-engine operation stops at its cursor with 0x43. (R166) -/
  | engineTranslationFault (team : Nat)
  /-- ENGINE_POISON_AT_STORE: A CPYOUT or SCAT row meets a poisoned source word. (R299) -/
  | enginePoisonAtStore (team : Nat)
  /-- ENGINE_STOP: HALT completes after outstanding operations finish. (R290) -/
  | engineStop (team : Nat) (engine : EngineKind)
  /-- ENGINE_FAULT_REPORT: An engine fault traps the control core or kills the team. (R300) -/
  | engineFaultReport (team : Nat)
  /-- CLUSTER_FREEZE_DONE: Every engine operation reaches its stop point. (R304) -/
  | clusterFreezeDone (team : Nat)
  /-- GROUP_PATROL_EXPIRY: The group patrol expires and traps 0x53. (R408) -/
  | groupPatrolExpiry (team gid : Nat)
  /-- CLUSTER_PATROL_EXPIRY: The cluster patrol expires and traps 0x54. (R408) -/
  | clusterPatrolExpiry (team : Nat)
  /-- QUEUE_PATROL_EXPIRY: The queue patrol expires and kills stalled packets with 0x55. (R408) -/
  | queuePatrolExpiry (hub : HubId) (queue : Nat)
  /-- MAIL_ARRIVAL: Mail reaches the name directory and is delivered, redirected, forwarded or refused. (R190) -/
  | mailArrival (mail : Nat)
  /-- MAIL_FORWARD: The directory forwards mail for a migrated target after the earlier forward is acknowledged. (R426) -/
  | mailForward (mail : Nat)
  /-- MAIL_ACK: A mail acknowledgement or refusal returns to the sender and frees its entry. (R426) -/
  | mailAck (mail : Nat)
  /-- MAIL_UNDELIVERABLE: A refused sender takes 0x64 at its next issue boundary. (R190) -/
  | mailUndeliverable (team gid : Nat)
  /-- PLANE_REMAP: After the drain, PLMAP entries naming a dead plane move to the next live plane. (R421) -/
  | planeRemap (hub : HubId) (plane : Nat)
  /-- TRANSACTION_TIMEOUT: An entry to another package exceeds FTO and completes with error. (R425) -/
  | transactionTimeout (txn : Nat)
  /-- MEMBERSHIP_TIMEOUT: 30 us without a beat fails the package. (R425) -/
  | membershipTimeout (package : Nat)
  /-- RECOVERY_LIMIT: RECLIM us in recovery fails the package. (R425) -/
  | recoveryLimit (package : Nat)
  /-- TRANSACTION_RESPONSE: A data response, acknowledgement or error completion arrives back at the requesting hub and completes its outstanding-transaction entry. (R426) -/
  | transactionResponse (txn : Nat)
  /-- REKEY_START: A port starts a rekey on its counter or key-lifetime threshold. (R428) -/
  | rekeyStart (hub : HubId) (plane : Nat)
  /-- PORT_STOP: A direction's counter reaches 2^48 without a new key and the port stops. (R428) -/
  | portStop (hub : HubId) (plane : Nat)
  /-- INVALIDATION_ACKNOWLEDGEMENT: A peer cache's acknowledgement of an invalidation reaches the home directory, and the last one moves the line to M. (R338) -/
  | invalidationAcknowledgement (home : HubId) (peer line : Nat)
  /-- TEAM_RESTORE_COMPLETE: The hub finishes restoring a saved team's state, after which its groups may issue or its frozen engines resume. (R308) -/
  | teamRestoreComplete (team : Nat)
  /-- ROLLBACK_COMPLETE: A checkpointed or paired team's rollback finishes after its stated cost in cycles, and its groups continue after their arrivals. (R402) -/
  | rollbackComplete (team : Nat)
  /-- DUP: Push a copy of the top. (R161) -/
  | dup
  /-- DROP: Pop the top. (R161) -/
  | drop
  /-- SWAP: Exchange the top two entries. (R161) -/
  | swap
  /-- OVER: Push a copy of the second entry. (R161) -/
  | over
  /-- ADD: Add the top two entries. (R161) -/
  | add
  /-- SUB: Subtract the top two entries. (R161) -/
  | sub
  /-- MUL: Multiply the top two entries. (R161) -/
  | mul
  /-- ENG_AND: Bitwise and of the top two entries. (R161) -/
  | engAnd
  /-- ENG_OR: Bitwise or of the top two entries. (R161) -/
  | engOr
  /-- ENG_XOR: Bitwise xor of the top two entries. (R161) -/
  | engXor
  /-- ENG_SHL: Shift left of the second entry by the top. (R161) -/
  | engShl
  /-- ENG_SHR: Logical shift right of the second entry by the top. (R161) -/
  | engShr
  /-- JMP: Jump to a popped index. (R162) -/
  | jmp
  /-- JZ: Jump to a popped index when the popped value is zero. (R162) -/
  | jz
  /-- HALT: Wait for outstanding operations, then stop the engine. (R162) -/
  | halt
  /-- WAITC: Wait for and push a command entry. (R162) -/
  | waitc
  /-- SIGC: Pop a value into the signal queue. (R162) -/
  | sigc
  /-- ENGINE_ILLEGAL_WORD: An engine meets an unassigned word or leaves its instruction memory and faults with 0x40. (R29) -/
  | engineIllegalWord
  /-- BRANCH_INTO_LITERAL: An entry whose PC is not a start word takes cause 0x06 before issuing. (R20) -/
  | branchIntoLiteral
  /-- REF_BROADCAST: The reference package sends REF every microsecond. (R424) -/
  | refBroadcast
  /-- POWER_LOSS: At power loss each hub drains its persist buffer. (R355) -/
  | powerLoss
  /-- BRIDGE_FAILURE: The hub-to-hub bridge fails and each hub treats the other as failed. (R437) -/
  | bridgeFailure
  /-- MEMBERSHIP_BEAT: Every 10 us a package sends its beat on every live plane. (R424) -/
  | membershipBeat
  /-- POWER_ON_RESET: Reset runs the boot stages and starts the kernel. (R440) -/
  | powerOnReset
  /-- DOORBELL: A host doorbell write offers the window's packet. (R442) -/
  | doorbell (hub : HubId) (queue : Nat)
  /-- PEER_READ: A full MOESI peer's read at the directory. (R338) -/
  | peerRead (home : HubId) (peer : Nat) (line : PageLine)
  /-- READ_EXCLUSIVE: A peer's read-exclusive at the directory. (R338) -/
  | readExclusive (home : HubId) (peer line : Nat)
  /-- UPGRADE: A peer's upgrade request at the directory. (R338) -/
  | upgrade (home : HubId) (peer line : Nat)
  /-- WRITE_BACK: An owner's write-back at the directory. (R338) -/
  | writeBack (home : HubId) (peer line : Nat)
  /-- IO_COHERENT_READ: An I/O-coherent requester's read at the directory. (R338) -/
  | ioCoherentRead (home : HubId) (line : Nat)
  /-- IO_COHERENT_WRITE: An I/O-coherent requester's write or RMW at the directory. (R338) -/
  | ioCoherentWrite (home : HubId) (line : PageLine) (bytes : List (Nat × Byte))
  /-- CHIPLET_FATAL_ERROR: A chiplet reports an internal fatal error. (R436) -/
  | chipletFatalError (hub : HubId) (pos : Nat)
  /-- UCIE_LINK_FAILURE: A chiplet's link fails after retries. (R436) -/
  | ucieLinkFailure (hub : HubId) (pos : Nat)
  /-- ENGINE_WRITE_REFUSED: A refusal returns for a CPYOUT or SCAT write. (R299) -/
  | engineWriteRefused (team : Nat) (cause : Byte)
  /-- CORRECTED_ERROR: A corrected error adds 1 to CECNT. (R393) -/
  | correctedError (hub : HubId)
  /-- UNCORRECTABLE_ERROR: An uncorrectable error poisons or loses state and adds 1 to UECNT. (R393) -/
  | uncorrectableError (target : ErrorTarget)
  /-- LINK_TIMEOUT: A port sees no acknowledgement for 2 us and goes down. (R425) -/
  | linkTimeout (hub : HubId) (plane : Nat)
  /-- PLANE_UP: A plane comes up and, after the drain, PLMAP returns to reset mapping. (R423) -/
  | planeUp (hub : HubId) (plane : Nat)
  /-- SWITCH_TIMEOUT: A switch port makes no progress for 16 us and returns error completions. (R425) -/
  | switchTimeout (hub : HubId) (plane package : Nat)
  /-- BEAT_RECEIVED: A membership beat updates a package's up or recovery state. (R424) -/
  | beatReceived (package : Nat) (recovering : Bool)
  /-- PACKAGE_REJOIN: Firmware rejoins a failed package with a new name generation. (R425) -/
  | packageRejoin (package : Nat)
  /-- FRAME_AUTH_FAILURE: A frame fails authentication and is replayed. (R428) -/
  | frameAuthFailure (hub : HubId) (plane : Nat)
  /-- REKEY_COMPLETE: Both sides switch to the new key at the announced counter. (R428) -/
  | rekeyComplete (hub : HubId) (plane : Nat)
  /-- ACCESS_TABLE_WRITE: A firmware write to an access table completes when every mirror acknowledges. (R430) -/
  | accessTableWrite (target : AccessTarget) (index : Nat) (entry : AccessEntry)
  /-- HOST_ACCESS: A host read or write through BAR2 is performed at the home. (R331) -/
  | hostAccess (window write : Bool) (address : Nat) (data : List Byte)
  /-- SUPPLY_SAG: A chiplet's sag detector stretches its clock. (R444) -/
  | supplySag (hub : HubId) (pos : Nat)
  /-- SAG_RECOVERY: The supply recovers and the stretch ends. (R444) -/
  | sagRecovery (hub : HubId) (pos : Nat)
  /-- POWER_LIMIT_STEP: The power manager adjusts the arithmetic clock against the 1 ms average. (R444) -/
  | powerLimitStep (watts : Nat)
  /-- ENERGY_STORE_DECLINE: The hub's energy store can no longer write back the whole persist buffer, and the hub lowers PBCAP.CAP. (R351) -/
  | energyStoreDecline (hub : HubId) (cap : Nat)
deriving DecidableEq, Repr

end Sys2Proof
end

