-- ==== Sys2Proof/Machine/State.lean ====
section
/-! DEFINITION. The state of the package: plain data only. What the spec names is a field; the model's own
fields (tick, next, agenda, inputs) say which agent moves and count the free values. -/

namespace Sys2Proof.Machine

/-- Why the machine stops with a fault. No rule of the spec stops the whole device with one: the reason below
marks a state that no run from reset reaches. -/
inductive Fault where
  /-- Raised by step when the agent that moves next no longer exists in the state. Safe: the model stops. -/
  | agentMissing
deriving DecidableEq, Repr

/-- Why the machine refuses an instruction. -/
inductive Refusal where
  /-- Raised by the arms of exec for an instruction that has no meaning yet. Safe. -/
  | notModelled (mnemonic : String)
  /-- Raised by a main word or an engine word when no group, core or engine is the agent that moves: the
  instruction has no executing unit (R5). Safe. -/
  | noExecutingUnit
deriving DecidableEq, Repr

/-- Levels of privilege held in TSTAT.LVL (R363); firmware runs on the hubs' own processors. -/
inductive Level where
  | task | kernel
deriving DecidableEq, Repr

/-- Memory contents: address and byte, addresses strictly rising, no entry equal to the unlisted value 0 (log 3). -/
abbrev Memory := List Host.Cell

/-- Numbers held by key, keys strictly rising: poison origins by word, marks by line. -/
abbrev Marks := List (Nat × Byte)

/-! ## Registers -/

/-- Declared shapes of a v register (R37, R224). -/
inductive Shape where
  | uniform | affine | general
deriving DecidableEq, Repr

/-- The stored forms of a v register (R224). -/
inductive VStore where
  | uniform (value : Word)
  | affine (base stride : Word)
  | general (words : List Word)
deriving DecidableEq, Repr

/-- A v register: its stored form, whose constructor is its declared shape, and its poison mask (R224, R227). -/
structure VReg where
  store : VStore
  poison : Dword
deriving DecidableEq, Repr

/-- An s register with its poison bit (R6, R227). -/
structure SReg where
  value : Dword
  poison : Bool
deriving DecidableEq, Repr

/-- The position of a lane: PC, priority and call depth (R57, R200). -/
structure LanePos where
  pc : Dword
  pri : Byte
  depth : Byte
deriving DecidableEq, Repr

/-- A lane record staged by RESTV.state (R186, R187). -/
structure StagedLane where
  pos : LanePos
  live : Bool
deriving DecidableEq, Repr

/-- The poison-origin record of a group (R394). -/
structure PoisonOrigin where
  cause : BitVec 7
  valid : Bool
  reg : Byte
  lane : BitVec 6
  kind : BitVec 2
  pc : Dword
  address : Dword
  count : Word
deriving DecidableEq, Repr

/-- A tile register: 16 rows of 64 FP32 columns, and one poison bit per row (R141). -/
structure Tile where
  rows : List (List Word)
  poison : BitVec 16
deriving DecidableEq, Repr

/-- The trap registers of a group and the fields of TSTAT (R176, R177). -/
structure TrapRegs where
  level : Level
  plvl : Level
  nest : Bool
  lsus : Bool
  epri : Byte
  edep : Byte
  rstg : Bool
  cause : BitVec 7
  epc : Dword
  val : Dword
  val2 : Dword
  mask : Dword
deriving DecidableEq, Repr

/-- One level of the hardware loop state of an S-profile core (R67). -/
structure LoopLevel where
  cnt : Word
  sta : Dword
  lend : Dword
deriving DecidableEq, Repr

/-- What a checkpointed team's shadow keeps of a group, and a rollback restores (R402). -/
structure GroupRegs where
  /-- Lane mask of live lanes (R201). -/
  live : Dword
  pos : List LanePos
  vregs : List VReg
  sregs : List SReg
  /-- p1 to p7 as lane masks; p0 reads true (R6). -/
  preds : List Dword
  predPoison : List Dword
  fpst : Dword
  porig : PoisonOrigin
  tiles : Option (List Tile)
deriving DecidableEq, Repr

/-- What a frontier entry, or the group, waits for (R207). -/
inductive WaitKind where
  /-- An absent scratchpad line (R119, R149). -/
  | absentLine (line : Nat)
  /-- A tile set of the quadrant (R141). -/
  | tileSet
  /-- Copy capacity (R121). -/
  | copyCapacity
  /-- A generation of a named barrier, which must move beyond the one given (R138). -/
  | barrier (number : Nat) (gen : Half)
  /-- The count of a core-scope REORD (R103). -/
  | reorder (number : Nat)
  /-- A WAITE, with its address, its start cycle and the cycle of its last read (R179). -/
  | memoryWord (address : Dword) (start lastRead : Dword)
  /-- A WAITE that reads again, with its start cycle: the entry issues (R179). -/
  | rereading (start : Dword)
  /-- A held register (R189). -/
  | heldRegister (reg : Nat)
  /-- An engine queue that is full or empty (R183). -/
  | engineQueue (engine : EngineKind) (signals : Bool)
  /-- A copy, release or fence that must complete first (R124, R127). -/
  | copies
  /-- A commit of the team barrier (R399). -/
  | commit
  /-- A TLBI, PERSIST, SAVEV or RESTV, whose completion trap entry awaits (R250); the flag tells a TLBI, behind which every entry
  of the group waits (R207). -/
  | completes (every : Bool)
  /-- The same when it issues again to see whether it completes (R250). -/
  | completing (every : Bool)
  /-- A memory instruction behind a PERSIST, SAVEV or RESTV that still completes (R207). -/
  | behind
  /-- Any other instruction that issues again to see whether what it waits for has come. -/
  | retrying
  /-- A HARV.off, whose revocations must finish (R191). -/
  | revocation
  /-- A bank format write behind an engine operation (R283). -/
  | bankFormat
  /-- An outstanding-transaction entry to another package (R135). -/
  | transaction
  /-- An answer of another package to the entry's own read, RMW or walk (R426), with the cycle in which the instruction started (R179),
  and whether it issues again to take it. The instruction is under way: nothing else of the group issues and no cause is taken until it
  has completed. -/
  | remote (start : Dword) (back : Bool)
  /-- The trailing fence of a seq-cst access, with its scope and the lanes that made the access (R323). -/
  | fence (scope : Nat) (lanes : Dword)
  /-- A HOLD.off, whose register's mailbox the directory has to close (R189). -/
  | closing (reg : Nat)
  /-- The leader's read (R404). -/
  | twin
deriving DecidableEq, Repr

/-- A waiting frontier entry (R207). -/
structure EntryWait where
  entry : LanePos
  /-- Whether the entry belongs to the kernel frontier (R364). -/
  kernel : Bool
  kind : WaitKind
  /-- Where the lanes go when the wait itself completes the instruction (R138, R103, R179). -/
  fall : Dword
deriving DecidableEq, Repr

/-- The ageing counter of a frontier entry, and its place in the aged queue when it stands there (R204). -/
structure EntryAge where
  entry : LanePos
  kernel : Bool
  count : Nat
  queued : Option Nat
deriving DecidableEq, Repr

/-- The state of a mailbox (R189, R186): armed; held contents delivered and not yet read. -/
structure Mailbox where
  reg : Nat
  key : Half
  scope : Nat
  armed : Bool
  delivered : Bool
  /-- LCLK of the sender's hub, carried by the mail (R341). -/
  senderClock : Dword
  /-- Whether the sender is in the scope of the HOLD (R326). -/
  senderInScope : Bool
deriving DecidableEq, Repr

/-- Asynchronous causes waiting for a group's issue boundary (R370), in the order of R371. -/
inductive AsyncCause where
  /-- 0x70; the flag is TVAL, 1 on resume (R250, R253). -/
  | preemption (resume : Bool)
  /-- 0x71 (R192). -/
  | harvestRevoke
  /-- 0x40 to 0x46 of an engine (R300). -/
  | engineFault (engine : EngineKind) (cause : Byte) (word : Nat) (val2 : Dword)
  /-- 0x64: name, reason, register (R190). -/
  | mail (name : Dword) (reason reg : Nat)
  /-- 0x53 and 0x54 of the patrol, with the two values (R408). -/
  | patrol (cause : Byte) (val val2 : Dword)
  /-- 0x72 to 0x76, an event of the hub, with its values (R375). -/
  | event (cause : Byte) (val val2 : Dword)
deriving DecidableEq, Repr

/-- A failure that a later FENCE, PERSIST or release reports at completion (R135, R448, step 11 of R371). -/
structure HeldFailure where
  /-- Of a copy (R448), else of a store or atomic (R135). -/
  copy : Bool
  /-- Of a copy: where its first byte stands among the bytes of the group's copies, in the order of their issue (R448). -/
  place : Nat
  cause : Byte
  val : Dword
  val2 : Dword
deriving DecidableEq, Repr

/-- A code line: 16 words with the address space and virtual address it was filled from (R19, R450). -/
structure CodeLine where
  asn : Half
  va : Dword
  words : List Word
deriving DecidableEq, Repr

/-- Mail logged for replay to a staged group: register and lanes, and whether a rollback has left it to be delivered
again (R403). -/
structure LoggedMail where
  reg : Nat
  words : List Word
  pending : Bool
deriving DecidableEq, Repr

/-- A vector group, or in the S profile a work item, which has one lane (R199, R220). -/
structure Group where
  gid : Nat
  role : Nat
  profile : Profile
  /-- Index into the team's cores, and the slot on that core (R212, R246). -/
  coreIx : Nat
  slot : Nat
  regs : GroupRegs
  shadow : Option GroupRegs
  ts : List Dword
  trap : TrapRegs
  /-- Lanes of the kernel frontier while the level is kernel (R364). -/
  kernelLanes : Dword
  /-- Lanes whose PC was reached as a target and not by sequential fetch or ERET, which R20 tells apart. -/
  byTarget : Dword
  aside : List LanePos
  staged : Option (List StagedLane)
  loops : List LoopLevel
  ldep : Nat
  ages : List EntryAge
  waits : List EntryWait
  mailboxes : List Mailbox
  name : Option Dword
  /-- Generation of the last arrival at each named barrier (R138). -/
  arrGen : List (Option Half)
  /-- Barriers at which this group has arrived by REORD and waits (R103). -/
  reordAt : Option Nat
  /-- The barrier whose REORD failed while this participant was away in a handler (R104). -/
  reordFailed : Option Nat
  async : List AsyncCause
  failures : List HeldFailure
  /-- Lines named by a WB that held stores of the group or requests on their way (R116): it is complete when none is left. -/
  maintenance : List Nat
  /-- Code lines the group has fetched and may go on using until an IFENCE (R117). -/
  fetched : List CodeLine
  /-- R192. -/
  lost : Dword
  revocations : Dword
  harvest : Bool
  /-- R376: result of the group's last PRQC write. -/
  prqRes : Bool
  /-- Cycle until which YIELD holds the group (R66). -/
  yieldUntil : Dword
  /-- When the group last issued, by the count of steps (R255). -/
  issuedAt : Nat
  /-- R341. -/
  readStamp : Dword
  retired : Bool
  slotFreed : Bool
  /-- The group's context is saved and it issues nothing (R251). -/
  saved : Bool
  /-- The address b of its last SAVEV.state and that of the .state image (R187). -/
  savedVregs : Dword
  savedState : Dword
  /-- The mailboxes as SAVEV.state wrote them, into which redirected mail goes (R187). -/
  savedBoxes : List Mailbox
  /-- Registers armed at any time since the last SAVEV.vregs (R187). -/
  armedSince : List Nat
  /-- Handling of cause 0x70: its trap entry cycle (R251). -/
  preemptedAt : Option Dword
  /-- While a handler of cause 0x70 runs: how many traps have been taken inside it and not returned from (R251, R305). -/
  handling : Option Nat
  /-- Start of the present park at task level, for the group patrol (R408). -/
  patrolCount : Nat
  signature : Dword
  replay : List LoggedMail
  /-- Barriers expecting the whole team at which the group has arrived and whose generation is still to complete, each with the group's
  registers as at the arrival (R399). -/
  arrivedAt : List (Nat × GroupRegs)
  /-- arrGen as at the last commit, for rollback (R402). -/
  shadowArr : List (Option Half)
  /-- The copies that the group has issued since the team's last rollback, by which twins match their reads (R404). -/
  copiesIssued : Nat
deriving DecidableEq, Repr

/-! ## Teams -/

/-- An arrival by REORD, with what it asks to move (R103): key register, mask of marked registers, D, and .pred. -/
structure ReordArrival where
  gid : Nat
  key : Nat
  lowMask : Dword
  highMask : Dword
  dest : Byte
  preds : Bool
deriving DecidableEq, Repr

/-- A named barrier (R138): expected, arrivals, generation, and the arrivals by REORD (R104). -/
structure Barrier where
  expected : Nat
  arrivals : Nat
  gen : Half
  reord : List ReordArrival
  /-- Gids that arrived in this generation, and whether a copy arrived (R398). -/
  arrived : List Nat
  copyArrived : Bool
deriving DecidableEq, Repr

/-- A pair slot (R126, R127). -/
structure PairSlot where
  base : Nat
  size : Nat
  side : Bool
deriving DecidableEq, Repr

/-- A scratchpad: bytes, poisoned words with their origin, the origin byte of each line, absent lines (R123, R227). -/
structure Scratchpad where
  size : Nat
  bytes : Memory
  poison : List Nat
  origins : Marks
  absent : List Nat
deriving DecidableEq, Repr

/-- A line held in a vector L1 or a read-only path (R316, R318). -/
structure CacheLine where
  line : Nat
  tag : Nat
  data : List Byte
deriving DecidableEq, Repr

/-- A team's L1 partition on one core (R317, R318). -/
structure L1 where
  gen : Nat
  lines : List CacheLine
deriving DecidableEq, Repr

/-- A boundary register POOLR, POOLS or POOLL (R222). -/
structure PoolRange where
  base : Nat
  size : Nat
deriving DecidableEq, Repr

/-- What a team holds on one core (R222, R223). -/
structure CoreShare where
  unit : CoreUnit
  poolr : PoolRange
  pools : PoolRange
  pooll : PoolRange
  shadow : PoolRange
  scratch : Scratchpad
  shadowScratch : Option Scratchpad
  l1 : L1
  firstGid : Nat
  groups : Nat
deriving DecidableEq, Repr

/-- Directions of the copy engine (R121). -/
inductive CopyDir where
  | inward | outward | within
deriving DecidableEq, Repr

/-- An outstanding copy (R121, R122). -/
structure Copy where
  id : Nat
  gid : Nat
  /-- Its number among the copies of its group (R404). -/
  ordinal : Nat
  dir : CopyDir
  /-- Row count and bytes per row; CPY is one row. -/
  rows : Nat
  rowBytes : Nat
  /-- Global base and pitch; for .sp the source in scratchpad. -/
  globalBase : Dword
  globalPitch : Dword
  /-- The scratchpad side, for .sp the destination. -/
  scratchBase : Nat
  scratchPitch : Nat
  /-- Scratchpad address of the index list, for .idx (R122), and the indices read so far by row. -/
  indexList : Option Nat
  indices : List (Nat × Nat)
  hint : Nat
  barrier : Option Nat
  /-- The pair slots as at issue, which say which half a destination is (R127). -/
  pairs : List (Option PairSlot)
  /-- The pieces that have not landed: row, offset and length (R121, R123). -/
  left : List (Nat × Nat × Nat)
  /-- Stopped at a translation fault: its cause, walk record and address, and the tag of the pending request once it is
  written (R125, R385). -/
  stopped : Bool
  /-- The piece at the cursor while the copy is stopped (R125). -/
  cursor : Nat × Nat × Nat
  tag : Option Half
  stopCause : Byte
  stopWalk : Byte
  stopVa : Dword
  /-- Issued at kernel level (R380). -/
  level : Level
  /-- The scratchpad that an .out copy of a parked team goes on reading: its own was discarded after the issue (R232). -/
  source : Option Scratchpad
deriving DecidableEq, Repr

/-- A word that a leader read: its address, data, and the origin of its poison. -/
structure FedWord where
  address : Dword
  bytes : List Byte
  origin : Byte
deriving DecidableEq, Repr

/-- A global read of a leader that its follower takes (R404): the words of one instruction of a group, or of a part of one of its copies,
given by the copy's number in the group, the row and the offset. -/
structure FedRead where
  gid : Nat
  copy : Option (Nat × Nat × Nat)
  words : List FedWord
deriving DecidableEq, Repr

/-- A staged access of a checkpointed or paired team, in staging order (R400). -/
structure Staged where
  gid : Nat
  /-- The step in which its instruction staged it (R412), and whether at kernel level. -/
  instr : Nat
  kernel : Bool
  kind : Nat
  op : Nat
  address : Nat
  va : Dword
  bytes : List Byte
  /-- The operand of a staged RMW: of a CAS, compare then swap (R405). -/
  operand : List Byte
  scope : Nat
  release : Bool
  durable : Bool
  mailReg : Nat
  mailKey : Half
deriving DecidableEq, Repr

/-- The states a team passes through (R239, R247, R251). -/
inductive TeamLife where
  /-- Reserving: cores acknowledged so far (R247). -/
  | reserving (done : Nat)
  /-- Committed, its ranges clearing; withdrawn when the flag is set (R247, R248). -/
  | clearing (withdrawn : Bool)
  /-- Cleared and to be withdrawn before any group issues (R248). -/
  | withdrawing
  | running
  /-- Saving by the hub after every group ended residence (R251). -/
  | saving
  | saved
  /-- Restored by the hub, not yet issuing (R253, R308). -/
  | restoring
  /-- Moved to the reserve banks by a revocation (R230, R260). -/
  | parked
  | rollingBack
deriving DecidableEq, Repr

/-- Where a placement in progress takes a team's context from: a launch, its save area, or the reserve banks (R241, R253,
R260). -/
inductive TeamSource where
  | launch | saved | parked
deriving DecidableEq, Repr

/-- Target classes of a dispatch packet, and the boot work item (R181, R441). -/
inductive TeamClass where
  | vector | scalar | array | boot
deriving DecidableEq, Repr

/-- A role record (R37). -/
structure Role where
  groups : Nat
  budget : Nat
  entry : Nat
deriving DecidableEq, Repr

/-- A kernel descriptor with what its bundle gives each class (R35 to R37). -/
structure KernelDesc where
  /-- Shapes of the allocated registers v0 up (R37, R210). -/
  regmap : List Shape
  regmapRaw : List Byte
  poolR : Nat
  poolS : Nat
  poolL : Nat
  barriers : Nat
  roles : List Role
  tokens : Dword
  /-- Virtual address of the image of the target class, and its entrypoint. -/
  image : Dword
  entry : Nat
  /-- Engine images as words with entrypoints, access to kiln; absent is none (R38). -/
  engines : List (Option (List Half × Nat))
  /-- Constant images as words (R37). -/
  consts : List (List Word)
  constPoison : List (List Nat)
deriving DecidableEq, Repr

/-- Reliability modes of a packet (R181). -/
inductive Mode where
  | plain | checkpointed | paired
deriving DecidableEq, Repr

/-! ## The array cluster -/

/-- A loop register of an engine (R160). -/
structure EngLoopReg where
  n : Word
  m : Word
  start : Nat
deriving DecidableEq, Repr

/-- An address generator (R165). -/
structure AddrGen where
  base : Dword
  s0 : Word
  s1 : Word
  c0 : Word
  i : Word
  j : Word
  wrap : Word
deriving DecidableEq, Repr

/-- An outstanding operation of an engine with its cursor (R164, R301, R307). -/
structure EngOp where
  /-- Its number among the launches of its engine. -/
  id : Nat
  code : Nat
  pop : Nat
  push : Nat
  params : List Word
  started : Bool
  stopped : Bool
  declined : Bool
  abandoned : Bool
  row : Nat
  offset : Nat
  gaddr : Dword
  saddr : Nat
  tag : Option Half
  stopCause : Byte
  stopWalk : Byte
  /-- Row x has started: its addresses are held and the generators are stepped past it (R301). -/
  inRow : Bool
  /-- The index of its launch word. -/
  word : Nat
  /-- Exceptions raised so far, which the status takes at its finish (R297). -/
  flags : BitVec 5
  /-- The generators of its global and scratchpad sides as at its launch, which tell the bytes it touches (R292). -/
  walkG : AddrGen
  walkP : AddrGen
deriving DecidableEq, Repr

/-- Engine states (R290). -/
inductive EngState where
  | stopped | running | faulted
deriving DecidableEq, Repr

/-- One engine (R160, R307). -/
structure Engine where
  pc : Nat
  state : EngState
  /-- Parameter stack, top first. -/
  stack : List Word
  loops : List EngLoopReg
  cmds : List Word
  sigs : List Word
  ops : List EngOp
  cause : Byte
  imem : List Half
  /-- HALT is waiting for its operations (R162). -/
  halting : Bool
  /-- A launch word that waits to start has removed its token (R164). -/
  took : Bool
  /-- Operations launched so far. -/
  launched : Nat
  /-- R341: an engine is an agent (R321). -/
  readStamp : Dword
deriving DecidableEq, Repr

/-- An entry of the metadata or scale queue: its bytes, and the origin of the poison it carries or 0 (R167, R296). -/
structure QueueEntry where
  width : Nat
  bytes : List Byte
  origin : Byte
deriving DecidableEq, Repr

/-- A weight set with the record that WPRE loaded (R168, R295). -/
structure WeightSet where
  k : Nat
  fmt : Byte
  sparse : Bool
  scaled : Bool
  band : Half
  /-- The origin of its poison, 0 while it has none. -/
  origin : Byte
  /-- Rows of raw weight bytes. -/
  rows : List (List Byte)
  scales : List Byte
  metadata : List Byte
deriving DecidableEq, Repr

/-- An accumulator row that differs from cleared, with the origin of its poison or 0 (R168). -/
structure AccRow where
  row : Nat
  cols : List Word
  origin : Byte
deriving DecidableEq, Repr

/-- The array cluster of an array team (R289 to R308). -/
structure Cluster where
  id : CoreId
  bfmtl : Dword
  bfmth : Dword
  efpst : Dword
  access : Engine
  array : Engine
  drain : Engine
  kiln : Engine
  tokens : List Nat
  gens : List AddrGen
  metaQueue : List QueueEntry
  scaleQueue : List QueueEntry
  /-- The entries that the MDFIL at the cursor of each queue fills, in the space it reserved (R167, R296, R301). -/
  metaFill : QueueEntry
  scaleFill : QueueEntry
  active : WeightSet
  shadowSet : WeightSet
  acc : List AccRow
  scratch : Scratchpad
  frozen : Bool
  /-- The control core has executed EXIT (R220). -/
  exited : Bool
deriving DecidableEq, Repr

/-- A team, resident, being placed, or saved (R210 to R216). -/
structure Team where
  id : Nat
  cls : TeamClass
  hub : HubId
  queue : Nat
  packet : Nat
  ix : List Word
  args : Dword
  mode : Mode
  latencyCritical : Bool
  harvest : Bool
  life : TeamLife
  source : TeamSource
  /-- The event 0x72 has told of this save (R234). -/
  reported : Bool
  /-- Commit order, for the choice of victims (R249). -/
  commitSeq : Nat
  saveIx : Nat
  saveArea : Dword
  desc : KernelDesc
  asn : Half
  ptroot : Dword
  ktvec : Dword
  hlim : Dword
  tenant : Half
  rbcnt : Word
  cores : List CoreShare
  /-- The cores of its placement, ascending, and which part of the team each takes (R234, R246). -/
  wantCores : List CoreUnit
  wantParts : List Nat
  /-- Cores at its last commit, on which its per-core group sets stand (R234, R388). -/
  savedOn : Nat
  groups : List Group
  barriers : List Barrier
  pairs : List (Option PairSlot)
  consts : List (List Word)
  constPoison : List (List Nat)
  copies : List Copy
  nextCopy : Nat
  cluster : Option Cluster
  /-- Staging of checkpointed and paired teams (R400). -/
  staged : List Staged
  /-- Lines fetched at their first staged RMW, with the data that staged RMWs are applied to (R400). -/
  lineCopies : List (Nat × List Byte)
  /-- Barriers and pair slots as at the last commit, for rollback (R402). -/
  shadowBarriers : List Barrier
  shadowPairs : List (Option PairSlot)
  /-- A data rollback, and a pair mismatch, since the last commit (R403, R406). -/
  dataRollback : Bool
  pairMismatch : Bool
  twin : Option Nat
  leader : Bool
  /-- Global reads of the leader that the follower has not yet taken (R404). -/
  feed : List FedRead
  /-- Barriers whose generation has completed and whose commit is still to begin, in order (R401, R406). -/
  commitQueue : List Nat
  /-- The barrier whose commit is being performed: its staged accesses are on their way (R401). -/
  committing : Option Nat
  /-- The last commit of the team has been made (R216). -/
  lastCommitted : Bool
  /-- A rollback asked for while a commit is performed, which completes first (R401): whether it is for a mismatch. -/
  rollBackAfter : Option Bool
  patrolCount : Nat
  preempting : Bool
  /-- LCLK of the hubs on which its last residence stood, which a resumption acquires (R330). -/
  leftClock : Dword
deriving DecidableEq, Repr

/-! ## Hubs -/

/-- The life of a packet (R239). -/
inductive PacketLife where
  | queued | checked | waiting | placing | running
deriving DecidableEq, Repr

/-- A placement-map entry (R244). -/
structure MapEntry where
  hubs : Byte
  chiplets : Byte
  cores : Dword
deriving DecidableEq, Repr

/-- A placement map (R244). -/
structure PlacementMap where
  loop : Nat
  shift : Nat
  entries : List MapEntry
deriving DecidableEq, Repr

/-- A dispatch packet held by a queue (R181, R239, R242, R243). -/
structure Packet where
  seq : Nat
  raw : List Byte
  /-- LCLK that its acceptance released, which its teams acquire as they start (R180, R326, R331). -/
  clock : Dword
  life : PacketLife
  desc : Option KernelDesc
  map : Option PlacementMap
  /-- Next iteration to emit, none when the traverse has ended (R242). -/
  index : Option (List Nat)
  /-- Emitted iterations not yet placed (R243). -/
  window : List (List Nat)
  satisfied : List Nat
  /-- Teams of the packet not yet retired. -/
  teams : Nat
  /-- Status to report: mail refused after its sender retired (R182). -/
  mailRefused : Option Byte
deriving DecidableEq, Repr

/-- A hub queue: its block, its packets and its host window (R235 to R238, R442). -/
structure Queue where
  index : Nat
  en : Bool
  pri : BitVec 3
  hcls : Bool
  asn : Half
  tenant : Half
  root : Dword
  savb : Dword
  savs : Dword
  ktv : Dword
  retd : Word
  nextSeq : Nat
  packets : List Packet
  window : List Byte
  status : Byte
  busy : Bool
  /-- The counter of the queue patrol, in cycles (R408). -/
  patrolCount : Nat
deriving DecidableEq, Repr

/-- An event of a hub (R375). -/
structure HubEvent where
  cause : Byte
  val : Dword
  val2 : Dword
deriving DecidableEq, Repr

/-- A page request written to the ring and not yet completed (R385, R386). -/
structure PageRequest where
  tag : Half
  source : StopSource
  /-- PRQT when it was written: the kernel has consumed it once PRQH is past it (R410). -/
  slot : Word
deriving DecidableEq, Repr

/-- Directory states of a line among the hub's peers (R338). -/
inductive DirState where
  | I | S | E | O | M
deriving DecidableEq, Repr

/-- A directory entry (R338). -/
structure DirEntry where
  line : Nat
  state : DirState
  owner : Nat
  sharers : List Nat
  /-- A read-exclusive or upgrade in progress: the requester, with the peers that owe an acknowledgement. -/
  pending : Option (Nat × List Nat)
deriving DecidableEq, Repr

/-- A line in a peer's data cache (R316, R338). -/
structure PeerLine where
  peer : Nat
  line : Nat
  state : DirState
  data : List Byte
deriving DecidableEq, Repr

/-- The timestamps of a line at its home (R342). -/
structure LineStamp where
  line : Nat
  wts : Dword
  rts : Dword
deriving DecidableEq, Repr

/-- An RDC entry (R343). -/
structure RdcEntry where
  line : Nat
  data : List Byte
  wts : Dword
  lease : Dword
deriving DecidableEq, Repr

/-- The note of a release at its home (R345), with the hub the writer was resident on (R321). -/
structure Note where
  line : Nat
  team : Nat
  gid : Nat
  hub : HubId
  scope : Nat
  published : Bool
  core : Option CoreId
  /-- LCLK of the writer's hub when the release was published after it had been performed. -/
  clock : Dword
deriving DecidableEq, Repr

/-- A reservation in the home table (R132, R133). -/
structure Reservation where
  team : Nat
  gid : Nat
  lane : Nat
  address : Nat
  width : Nat
  cycle : Dword
deriving DecidableEq, Repr

/-- An entry of the persist buffer: a granule, its 64 bytes, and the origins of the poison of its 16 words (R351, R393). -/
structure PersistEntry where
  granule : Nat
  data : List Byte
  origins : List Byte
deriving DecidableEq, Repr

/-- The count of a migrating page (R348). -/
structure MigCounter where
  page : Nat
  count : Nat
  last : Nat
deriving DecidableEq, Repr

/-- A name bound in the directory: its group, or its saved context (R187, R188). -/
structure NameBinding where
  name : Dword
  team : Nat
  gid : Nat
  /-- Mail is redirected into the saved images (R187). -/
  redirected : Bool
  ended : Bool
deriving DecidableEq, Repr

/-- Names issued so far by a group slot (R188). -/
structure SlotGeneration where
  slot : Nat
  generation : Nat
deriving DecidableEq, Repr

/-- Ring positions' capability tables as granted (R434): position, units fitted, unit records, and the address range with
whether it supports atomics. -/
structure Capability where
  pos : Nat
  /-- The coherence class granted (R434): 0 full MOESI peer, 1 I/O-coherent, 2 non-coherent. -/
  cls : Nat
  units : Nat
  atomics : Bool
  records : List Byte
  base : Nat
  size : Nat
  /-- The set of queue identifiers granted: the first, and how many. -/
  queueBase : Nat
  queueCount : Nat
deriving DecidableEq, Repr

/-- The package's port of a plane (R417, R428, R432). -/
structure Link where
  plane : Nat
  /-- Trained with its switch port (R421). -/
  trained : Bool
  state : BitVec 2
  rekeys : Word
  /-- The frame counters of its two directions. -/
  counter : Dword
  received : Dword
  /-- The timebase when the key was installed (R428). -/
  keyed : Dword
  authFailures : Nat
deriving DecidableEq, Repr

/-- The state of a hub (R235 to R260, R341 to R355, R375, R400, R409, R432 to R444). -/
structure Hub where
  queues : List Queue
  lastServed : List (HubId × Nat)
  psavb : Half
  qrsBase : Nat
  lclk : Dword
  /-- R341: the hub is an agent (R321). -/
  readStamp : Dword
  lref : Dword
  lastRef : Dword
  llen : Half
  fenced : Bool
  fencedAt : Dword
  cut : Bool
  mgEn : Bool
  mgLsz : BitVec 4
  mgThr : Half
  mgBase : Dword
  mgHead : Word
  mgTail : Word
  mgDrop : Word
  migration : List MigCounter
  pbcap : BitVec 24
  plra : Dword
  persist : List PersistEntry
  stamps : List LineStamp
  floor : Dword
  rdc : List RdcEntry
  dir : List DirEntry
  peers : List PeerLine
  notes : List Note
  /-- Lines whose note was dropped from the full note store (R345). -/
  dropped : List Nat
  reservations : List Reservation
  cecnt : Word
  uecnt : Word
  patg : Word
  patc : Word
  patq : Word
  fto : Half
  reclim : Half
  podref : BitVec 10
  refsrc : Bool
  /-- The planes that the form has (R1, R417). -/
  planes : Nat
  plmap : Word
  plst : Byte
  /-- Planes that died and whose remap is not yet done (R421). -/
  dying : List Nat
  live : Half
  fit : Half
  /-- R440: a boot stage failed, and the hub stays in recovery. -/
  recovery : Bool
  caps : List Capability
  pwrLimit : Half
  mhz : BitVec 12
  watts : Half
  sags : Word
  sagging : List Nat
  chWatts : List (Nat × Half)
  prqLsz : BitVec 4
  prqBase : Dword
  prqh : Word
  prqt : Word
  requests : List PageRequest
  nextTag : Half
  evtCore : BitVec 5
  evtEn : Bool
  evtLost : Bool
  events : List HubEvent
  names : List NameBinding
  generations : List SlotGeneration
  durBase : Nat
  durSize : Nat
  /-- The part of the durable window that CXL port 0 holds (R443). -/
  durPort0 : Nat
deriving DecidableEq, Repr

/-! ## The package -/

/-- What makes a write: a store or atomic; a copy, with the place of its first byte among the bytes of the group's copies
(R448); a completion record; or a row of an engine operation (R299). -/
inductive WriteSource where
  | store
  | copy (place : Nat)
  /-- A hub writes a completion record of a queue, at an address and with a status (R449). -/
  | record (queue : Nat) (va : Dword) (status : Byte)
  | engine (kind : EngineKind) (op row : Nat)
deriving DecidableEq, Repr

/-- Who makes a write, the virtual address of the first byte of its line (R373), and whether at kernel level (R429); the engines and the
copy engine access memory at task level (R380). -/
structure MadeBy where
  source : WriteSource
  va : Dword
  kernel : Bool
deriving DecidableEq, Repr

/-- An entry of a vector core's store-combining path: the bytes of one line written by one group and not yet
performed at the home (R316). -/
structure Combining where
  team : Nat
  gid : Nat
  line : Nat
  bytes : List (Nat × Byte)
  durable : Bool
  made : MadeBy
deriving DecidableEq, Repr

/-- A cached translation (R377 to R383). -/
structure TlbEntry where
  asn : Half
  page : Nat
  level : Nat
  pte : Dword
  pteAddress : Nat
deriving DecidableEq, Repr

/-- What a core holds beside its teams; reserve lists the teams parked in its reserve banks, the oldest first (R230). -/
structure Core where
  unit : CoreUnit
  icache : List CodeLine
  tlb : List TlbEntry
  /-- Pointer entries held by its walker cache (R383): page is the address part that selects the entry. -/
  walker : List TlbEntry
  combining : List Combining
  reserve : List Nat
deriving DecidableEq, Repr

/-- A read-only path of a vector chiplet (R319). -/
structure ReadOnlyPath where
  hub : HubId
  chiplet : Nat
  lines : List CacheLine
deriving DecidableEq, Repr

/-- How a write or RMW to another package is made: whether it is durable, the scope of a release with its note (R345: whether it is
published, and the core that may hold earlier stores), and what makes it. -/
structure WriteHow where
  durable : Bool
  release : Option Nat
  published : Bool
  holder : Option CoreId
  made : MadeBy
deriving DecidableEq, Repr

/-- An RMW of one word (R131): its key and size, the lane, and the operation with its operands as a staged record has them (R405). -/
structure RmwWord where
  key : Nat
  size : Nat
  lane : Nat
  op : Nat
  operand : List Byte
deriving DecidableEq, Repr

/-- What an outstanding transaction asks (R426). -/
inductive TxnKind where
  | read (leased : Bool)
  | write (bytes : List (Nat × Byte)) (how : WriteHow)
  | rmw (word : RmwWord) (how : WriteHow)
deriving DecidableEq, Repr

/-- The answer to a request (R342): the data of a line, or the old word of an RMW; the origin of the poison of each byte; wts; the lease
end. -/
structure TxnAnswer where
  data : List Byte
  origins : List Byte
  wts : Dword
  lease : Dword
  /-- 0, or the cause with which the request completed with error (R422, R425). -/
  failed : Byte
deriving DecidableEq, Repr

/-- Which agent issues: a group or work item of a team, or an engine of an array team (R321). -/
inductive Agent where
  | group (team gid : Nat)
  | engine (team : Nat) (kind : EngineKind)
deriving DecidableEq, Repr

/-- What the machine does next: an agent issues, a step of the hardware or the outside comes about, or nothing is
due and time passes. The model's own (log 1). -/
inductive Turn where
  | agent (a : Agent)
  | event (i : Instr)
  | idle
deriving DecidableEq, Repr

/-- A read or RMW that a turn asks of another package (R426). -/
structure Ask where
  hub : HubId
  line : Nat
  kind : TxnKind
deriving DecidableEq, Repr

/-- An answer that has come and that its turn has not yet used. -/
structure Arrived where
  asker : Turn
  ask : Ask
  answer : TxnAnswer
deriving DecidableEq, Repr

/-- An outstanding-transaction entry (R135, R426). -/
structure Txn where
  id : Nat
  team : Nat
  gid : Nat
  hub : HubId
  line : Nat
  kind : TxnKind
  /-- What takes its answer: the turn that asked, or none. -/
  asker : Option Turn
  /-- The plane that carries it, or 8 while it is held (R421). -/
  plane : Nat
  /-- Performed at the home. -/
  answer : Option TxnAnswer
  /-- The error cause the entry completes with, when it fails (R422, R425). -/
  error : Option Byte
  issued : Dword
deriving DecidableEq, Repr

/-- A posted mail (R190, R418). -/
structure Mail where
  id : Nat
  team : Nat
  gid : Nat
  hub : HubId
  name : Dword
  reg : Nat
  key : Half
  words : List Word
  scope : Nat
  clock : Dword
  /-- The plane that carries it to another package (R418); 8 while it is held, or where it leaves no package (R421). -/
  plane : Nat
  /-- The outcome, once the directory has answered: 0 delivered, else the refusal reason. -/
  outcome : Option Nat
  /-- Awaiting a forward to the migrated target (R426). -/
  forward : Bool
  issued : Dword
deriving DecidableEq, Repr

/-- The membership state of a package (R425, R432). -/
inductive PeerState where
  | absent | up | recovering | failed
deriving DecidableEq, Repr

/-- A package of the pod as this one sees it (R424, R425). -/
structure PeerPackage where
  package : Nat
  state : PeerState
  lastBeat : Dword
  recoveringSince : Dword
  /-- How often it has rejoined after a failure. -/
  rejoins : Nat
deriving DecidableEq, Repr

/-- A revocation in progress on a core, with its trigger cycle (R259, R260). -/
structure Revocation where
  core : CoreId
  teams : List Nat
  start : Dword
deriving DecidableEq, Repr

/-- A signed configuration record of the flash (R440): whether it verifies, and what it holds. -/
structure ConfigRecord where
  type : Nat
  version : Nat
  verifies : Bool
  body : List Byte
deriving DecidableEq, Repr

/-- What a boot reports (R440): a hub in recovery through its recovery window, and a failed kernel image through the host window. -/
inductive BootReport where
  | firmware (hub : HubId)
  | identity (hub : HubId)
  | kernelImage
deriving DecidableEq, Repr

/-- What the package's flash offers at boot: what each hub's ROM and PUF find, the configuration records, the kernel image with its
entry, the access tables that the firmware writes, where it puts the root table and the boot information block, and the per-hub windows
(R440, R441). -/
structure Flash where
  /-- The package's number in its pod (R188). -/
  package : Nat
  /-- Whether the Yunahiek image verifies on hub 0 and on hub 1. -/
  firmwareOk : Bool × Bool
  /-- Whether each hub's PUF correction succeeds. -/
  pufOk : Bool × Bool
  records : List ConfigRecord
  kernelOk : Bool
  /-- The cells of memory that the kernel image takes. -/
  image : List (Nat × Byte)
  entry : Dword
  access : List (AccessTarget × Nat × AccessEntry)
  root : Nat
  infoBlock : Nat
  qrs0 : Nat
  qrs1 : Nat
  /-- Base of each hub's durable window, and the capacities of its two CXL ports; a device left out has none (R443). -/
  dur0 : Nat × Nat × Nat
  dur1 : Nat × Nat × Nat
  /-- The durable windows of other packages' hubs: PEER, base, and the capacities of the two ports (R443). -/
  peerWindows : List (Nat × Nat × Nat × Nat)
  /-- Base and size, on hub 0, of the pages whose memory is the host's (R131, R329). -/
  host : Nat × Nat
deriving DecidableEq, Repr

/-- A DRAM granule that an uncorrectable error has hit, with the offsets of its bytes overwritten since (R393). -/
structure BadGranule where
  granule : Nat
  written : List Nat
deriving DecidableEq, Repr

/-- R217: a packet whose completion record waits: for the stores of the teams it names, or for room in a persist buffer
(R351). -/
structure Retiring where
  hub : HubId
  queue : Nat
  seq : Nat
  status : Byte
  cause : Byte
  teams : List Nat
deriving DecidableEq, Repr

/-- The forms the device ships in (R1). A package of an 8440 behaves as an 8410. -/
inductive Form where
  | f8410 | f8405 | f8440
deriving DecidableEq, Repr

/-- The state of the package. -/
structure State where
  /-- R1: which form the package is. -/
  form : Form
  /-- The model's counter of free values (log 1). -/
  tick : Nat
  next : Turn
  agenda : List Instr
  inputs : List Instr
  cycle : Dword
  tbase : Dword
  mem : Memory
  memPoison : Marks
  badGranules : List BadGranule
  tier : Memory
  /-- Poisoned words of the durable tier, with their origins (R393). -/
  tierPoison : Marks
  hub0 : Hub
  hub1 : Hub
  teams : List Team
  nextTeam : Nat
  commits : Nat
  cores : List Core
  readOnly : List ReadOnlyPath
  txns : List Txn
  nextTxn : Nat
  /-- What the turn under way has asked of other packages and has no answer to; empty between steps (log 83). -/
  asked : List Ask
  arrived : List Arrived
  mails : List Mail
  /-- The ports of the planes (R417). -/
  ports : List Link
  /-- When the last membership beat left (R424). -/
  beat : Dword
  packages : List PeerPackage
  revocations : List Revocation
  retiring : List Retiring
  access : List (AccessTarget × Nat × AccessEntry)
  bridgeUp : Bool
  powered : Bool
  /-- The capability table that each fitted chiplet presents (R434). -/
  tables : List (HubId × Nat × List Byte)
  /-- The configuration records in use (R440). -/
  configured : List ConfigRecord
  reports : List BootReport
  flash : Flash
deriving DecidableEq, Repr

/-! ## Reset -/

/-- R176, R177, R213: the trap registers at 0, at the given level. -/
def TrapRegs.clear (level : Level) : TrapRegs :=
  { level := level, plvl := .task, nest := false, lsus := false, epri := 0, edep := 0, rstg := false,
    cause := 0, epc := 0, val := 0, val2 := 0, mask := 0 }

/-- R394: the poison-origin record at reset. -/
def PoisonOrigin.clear : PoisonOrigin :=
  { cause := 0, valid := false, reg := 0, lane := 0, kind := 0, pc := 0, address := 0, count := 0 }

/-- The s registers at 0, unpoisoned (R213; for the boot work item log 5). -/
def clearSregs : List SReg := List.replicate 96 { value := 0, poison := false }

/-- A group or work item before placement sets its entry, shapes and indices (R200, R213). -/
def Group.fresh (gid role coreIx slot : Nat) (p : Profile) (lanes : Nat) (live : Dword) (pc : Dword)
    (level : Level) : Group :=
  { gid := gid, role := role, profile := p, coreIx := coreIx, slot := slot,
    regs := { live := live, pos := List.replicate lanes { pc := pc, pri := 0, depth := 0 }, vregs := [],
              sregs := clearSregs, preds := List.replicate 7 0, predPoison := List.replicate 7 0,
              fpst := 0, porig := PoisonOrigin.clear, tiles := none },
    shadow := none, ts := List.replicate 8 0, trap := TrapRegs.clear level,
    kernelLanes := if level = .kernel then live else 0, byTarget := 0, aside := [], staged := none,
    loops := List.replicate 3 { cnt := 0, sta := 0, lend := 0 }, ldep := 0, ages := [], waits := [],
    mailboxes := [], name := none, arrGen := List.replicate 48 none, reordAt := none, reordFailed := none, async := [],
    failures := [], maintenance := [], fetched := [], lost := 0, revocations := 0, harvest := false, prqRes := false,
    yieldUntil := 0, issuedAt := 0, readStamp := 0, retired := false, slotFreed := false, saved := false,
    savedVregs := 0, savedState := 0, savedBoxes := [], armedSince := [], preemptedAt := none, handling := none, patrolCount := 0,
    signature := 0, replay := [], arrivedAt := [],
    shadowArr := List.replicate 48 none, copiesIssued := 0 }

/-- A kernel description that allocates nothing, as the boot work item has (R441). -/
def KernelDesc.empty : KernelDesc :=
  { regmap := [], regmapRaw := [], poolR := 0, poolS := 0, poolL := 0, barriers := 0, roles := [], tokens := 0,
    image := 0, entry := 0, engines := [], consts := [], constPoison := [] }

/-- An empty scratchpad of a size: words 0, unpoisoned, every line present (R228). -/
def Scratchpad.clear (size : Nat) : Scratchpad :=
  { size := size, bytes := [], poison := [], origins := [], absent := [] }

/-- A range of no size (R222). -/
def PoolRange.none : PoolRange := { base := 0, size := 0 }

/-- A team's share of a scalar or control core, which has no pool. -/
def CoreShare.bare (u : CoreUnit) (gid : Nat) : CoreShare :=
  { unit := u, poolr := PoolRange.none, pools := PoolRange.none, pooll := PoolRange.none, shadow := PoolRange.none,
    scratch := Scratchpad.clear 0, shadowScratch := .none, l1 := { gen := 0, lines := [] }, firstGid := gid,
    groups := 1 }

/-- DESIGN CHOICE (log 4): what the firmware's records give at reset; the manual leaves the kernel image to software. -/
def Flash.factory : Flash :=
  { package := 0, firmwareOk := (true, true), pufOk := (true, true), records := [], kernelOk := true, image := [], entry := 0, access := [],
    root := 0x1000, infoBlock := 0x8000,
    qrs0 := 0x400000000000, qrs1 := 0x400000010000, dur0 := (0, 0, 0), dur1 := (0, 0, 0), peerWindows := [], host := (0, 0) }

/-- R440, R441: the boot work item, at kernel level on scalar core 0 of hub 0. -/
def Team.boot (f : Flash) : Team :=
  { id := 0, cls := .boot, hub := .h0, queue := 0, packet := 0, ix := [0, 0, 0, 0], args := 0, mode := .plain,
    latencyCritical := false, harvest := false, life := .running, source := .launch, reported := false, commitSeq := 0, saveIx := 0, saveArea := 0,
    desc := KernelDesc.empty, asn := 0, ptroot := BitVec.ofNat 64 f.root, ktvec := 0, hlim := 0, tenant := 0, rbcnt := 0,
    cores := [CoreShare.bare (.scalar .h0 0) 0], wantCores := [], wantParts := [], savedOn := 1,
    groups :=
      [ let g := Group.fresh 0 0 0 0 .S 1 1 f.entry .kernel
        { g with regs := { g.regs with
            sregs := { value := BitVec.ofNat 64 f.infoBlock, poison := false } :: List.replicate 95 { value := 0, poison := false } } } ],
    barriers := [], pairs := [], consts := [], constPoison := [], copies := [], nextCopy := 0, cluster := none,
    staged := [], lineCopies := [], shadowBarriers := [], shadowPairs := [], dataRollback := false, pairMismatch := false,
    twin := none, leader := true, feed := [], commitQueue := [], committing := none, lastCommitted := false, rollBackAfter := none, patrolCount := 0, preempting := false, leftClock := 0 }

/-- R433, R434: the kind of a chiplet at a ring position. -/
def chipletKind (pos : Nat) : Nat := if pos < 4 then 1 else if pos < 7 then 2 else if pos = 7 then 3 else if pos = 8 then 4 else 5

/-- What a chiplet of this maker is granted: its class and units, every unit whole, and neither a range nor queues (R433, R434). -/
def Capability.own (pos cls units : Nat) : Capability :=
  { pos := pos, cls := cls, units := units, atomics := false, records := List.replicate 32 0, base := 0, size := 0, queueBase := 0, queueCount := 0 }

/-- Kinds of ring position with their unit counts (R433, R434): log 8. -/
def Capability.factory : List Capability :=
  [0, 1, 2, 3].map (fun p => .own p 1 32) ++ [4, 5, 6].map (fun p => .own p 1 4) ++ [.own 7 0 32, .own 8 2 1]

/-- A number's low bytes, the lowest first (R4). -/
def numberBytes (n : Nat) : Nat → List Byte
  | 0 => []
  | k + 1 => BitVec.ofNat 8 (n % 256) :: numberBytes (n / 256) k

/-- R434: the capability table that a chiplet presents. -/
def Capability.table (c : Capability) : List Byte :=
  numberBytes 0x42544143 4 ++ numberBytes 1 2 ++ [BitVec.ofNat 8 (chipletKind c.pos), BitVec.ofNat 8 c.cls] ++ numberBytes c.units 2 ++
  numberBytes (if c.atomics then 1 else 0) 2 ++ numberBytes (c.size / 2 ^ 20) 4 ++ numberBytes c.queueCount 4 ++ List.replicate 12 0 ++
  (List.range 32).map (fun i => c.records.getD i 0)

/-- A hub after reset with its queue register space and durable window as the firmware sets them
(R238, R349, R376, R400, R409, R432, R438, R444). -/
def Hub.reset (form : Form) (id : HubId) (qrs : Nat) (dur : Nat × Nat × Nat) (refsrc : Bool) : Hub :=
  { queues := [], lastServed := [], psavb := 0x0100, qrsBase := qrs, lclk := 0, readStamp := 0, lref := 0, lastRef := 0,
    llen := 0x1000, fenced := false, fencedAt := 0, cut := false, mgEn := false, mgLsz := 4, mgThr := 0x0100,
    mgBase := 0, mgHead := 0, mgTail := 0, mgDrop := 0, migration := [], pbcap := 65536, plra := 0, persist := [],
    stamps := [], floor := 0, rdc := [], dir := [], peers := [], notes := [], dropped := [], reservations := [],
    cecnt := 0, uecnt := 0, patg := 0x4000, patc := 0x10000, patq := 0x40000, fto := 64, reclim := 1000,
    podref := 0, refsrc := refsrc, planes := if form = .f8405 then 4 else 8, plmap := if form = .f8405 then 0x32103210 else 0x76543210, plst := 0,
    dying := [], live := if form = .f8405 ∧ id = .h1 then 0 else 0x1FF, fit := if form = .f8405 ∧ id = .h1 then 0 else 0x1FF,
    recovery := false, caps := Capability.factory, pwrLimit := 3200, mhz := 2500, watts := 0,
    sags := 0, sagging := [], chWatts := [], prqLsz := 0, prqBase := 0, prqh := 0, prqt := 0, requests := [],
    nextTag := 0, evtCore := 0, evtEn := false, evtLost := false, events := [], names := [], generations := [],
    durBase := dur.1, durSize := dur.2.1 + dur.2.2, durPort0 := dur.2.1 }

/-- DESIGN CHOICE (log 9): the firmware's access tables at boot admit every master with every right. -/
def openEntry : AccessEntry :=
  { base := 0, limit := 0x7FFFFFFFFF000, tenant := 0, tmask := 0, source := 0, smask := 0, levels := 7, rights := 0xBF }

/-- R417: the ports of a form's planes, none trained. -/
def Link.factory (form : Form) : List Link :=
  (List.range (if form = .f8405 then 4 else 8)).map (fun p =>
    { plane := p, trained := false, state := 0, rekeys := 0, counter := 0, received := 0, keyed := 0, authFailures := 0 })

/-- R434: the tables that a form's chiplets present. -/
def Capability.presented (form : Form) : List (HubId × Nat × List Byte) :=
  (if form = .f8405 then [HubId.h0] else [HubId.h0, .h1]).flatMap (fun h => Capability.factory.map (fun c => (h, c.pos, c.table)))

/-! ### What the firmware leaves in memory -/

/-- R378: a pointer entry to a table of hub 0 of a package. -/
def bootPointer (package table : Nat) : Nat := 1 + package * 2 ^ 15 + table / 4096 * 2 ^ 25

/-- R441: the table that the firmware builds, as 64-bit words: the first GiB, which holds the kernel image and the boot information
block, at the same virtual addresses, and the next one's first two leaves at level 1 for the pages of the two hubs' queue register
spaces, with T = 0 and POL 0 (DESIGN CHOICE, log 4: which addresses map them). -/
def Flash.bootTable (f : Flash) : List (Nat × Nat) :=
  let table := fun (i : Nat) => bootPointer f.package (f.root + 0x1000 * i)
  let leaf := fun (hub qrs : Nat) => 0xC7 + hub * 2 ^ 14 + f.package * 2 ^ 15 + qrs / 2 ^ 21 * 2 ^ 9 * 2 ^ 25
  [(f.root, table 1), (f.root + 0x1000, table 2), (f.root + 0x2000, 0x3CF + f.package * 2 ^ 15),
   (f.root + 0x2008, table 3), (f.root + 0x3000, leaf 0 f.qrs0), (f.root + 0x3008, leaf 1 f.qrs1)]

/-- R441: the virtual address at which the initial table maps a hub's queue register space. -/
def Flash.bootQueueVa (f : Flash) : HubId → Nat
  | .h0 => 2 ^ 30 + f.qrs0 % 2 ^ 21
  | .h1 => 2 ^ 30 + 2 ^ 21 + f.qrs1 % 2 ^ 21

/-- The code of a form (R441). -/
def Form.code : Form → Nat
  | .f8410 => 1
  | .f8405 => 2
  | .f8440 => 3

/-- R441: a unit-record summary: how many of a chiplet's units its records mark isolated (DESIGN CHOICE, log 4). -/
def Capability.summary (c : Capability) : Nat :=
  ((c.records.take c.units).filter (fun b => b.getLsbD 7 || decide (9 ≤ b.toNat % 16))).length

/-- R441: the words of a hub's CHST value and unit-record summaries. -/
def Hub.bootUnits (h : Hub) (at_ : Nat) : List (Nat × Nat) :=
  (at_, h.live.toNat + h.fit.toNat * 2 ^ 16) ::
  (List.range 4).map (fun i => (at_ + 8 + 8 * i, ((List.range 8).map (fun j =>
    ((h.caps.find? (fun c => c.pos == 8 * i + j)).map Capability.summary).getD 0 * 2 ^ (8 * j))).foldl (· + ·) 0))

/-- R441: the boot information block as 64-bit words; loss is the status of the power-loss record found at each hub's PLRA (DESIGN
CHOICE, log 4: the places within fields that the rule does not divide). -/
def Flash.bootInfo (f : Flash) (form : Form) (h0 h1 : Hub) (loss : HubId → Nat) : List (Nat × Nat) :=
  let a := f.infoBlock
  [(a, f.package + form.code * 2 ^ 32)] ++ h0.bootUnits (a + 0x08) ++ h1.bootUnits (a + 0x48) ++
  [(a + 0x88, h0.durBase), (a + 0x90, h0.durSize), (a + 0xA8, h1.durBase), (a + 0xB0, h1.durSize),
   (a + 0xC8, h0.plra.toNat + loss .h0), (a + 0xD0, h1.plra.toNat + loss .h1),
   (a + 0xD8, f.qrs0), (a + 0xE0, f.bootQueueVa .h0), (a + 0xE8, f.qrs1), (a + 0xF0, f.bootQueueVa .h1)]

/-- The bytes of words that are not zero, with their addresses: memory's cells when the words rise. -/
def bootCells (ws : List (Nat × Nat)) : List (Nat × Byte) :=
  ws.flatMap (fun w => ((numberBytes w.2 8).zipIdx.filter (fun b => decide (b.1 ≠ 0))).map (fun b => (w.1 + b.2, b.1)))

/-- The machine of a form right after reset: the boot stages of R440 done, the boot work item about to issue (R441), and in memory only
what the firmware left there. On the 8405, hub 1 does not exist and none of its chiplets is fitted (R1). -/
def State.resetAs (form : Form) : State :=
  let f := Flash.factory
  let h0 := Hub.reset form .h0 f.qrs0 f.dur0 false
  let h1 := Hub.reset form .h1 f.qrs1 f.dur1 false
  { form := form, tick := 0, next := .agent (.group 0 0), agenda := [], inputs := [], cycle := 0, tbase := 0,
    mem := bootCells (f.bootTable ++ f.bootInfo form h0 h1 (fun _ => 0xFF)),
    memPoison := [], badGranules := [], tier := [], tierPoison := [], hub0 := h0, hub1 := h1, teams := [Team.boot f], nextTeam := 1,
    commits := 0, cores := [], readOnly := [], txns := [], nextTxn := 0, asked := [], arrived := [], mails := [], ports := Link.factory form,
    beat := 0, packages := [], revocations := [], retiring := [], access := [], bridgeUp := true, powered := true,
    tables := Capability.presented form, configured := [], reports := [], flash := f }

/-- DESIGN CHOICE (log 4): the package is an 8410, the reference product (R1). -/
def State.reset : State := State.resetAs .f8410

end Sys2Proof.Machine
end

