-- ==== Sys2Proof/Machine/Memory.lean ====
section
/-! DEFINITION. Memory as a list of cells in one canonical form: addresses strictly rising, and no cell that holds
what an unlisted address reads as (log 3). Marks are held the same way, an unlisted key reading 0. -/

namespace Sys2Proof.Machine

/-- What an address that is not listed reads as. DESIGN CHOICE (log 3), unsafe: the manual gives memory no contents
at power-on. -/
def unlisted : Byte := 0

/-- One byte of memory. -/
def Memory.read : Memory → Nat → Byte
  | [], _ => unlisted
  | (a, b) :: m, x => if a = x then b else if x < a then unlisted else Memory.read m x

/-- Writes one byte and keeps the canonical form. -/
def Memory.write : Memory → Nat → Byte → Memory
  | [], x, v => if v = unlisted then [] else [(x, v)]
  | (a, b) :: m, x, v =>
    if x < a then if v = unlisted then (a, b) :: m else (x, v) :: (a, b) :: m
    else if x = a then if v = unlisted then m else (a, v) :: m
    else (a, b) :: Memory.write m x v

/-- Every listed address is at least lo, the addresses rise strictly, and no byte is the unlisted one. -/
def Memory.wfFrom : Nat → Memory → Bool
  | _, [] => true
  | lo, (a, b) :: m => decide (lo ≤ a) && decide (b ≠ unlisted) && Memory.wfFrom (a + 1) m

/-- The canonical form. -/
def Memory.wf (m : Memory) : Bool := Memory.wfFrom 0 m

/-- Reads n bytes, the lowest address first (R4). -/
def Memory.readBytes (m : Memory) (a : Nat) : Nat → List Byte
  | 0 => []
  | n + 1 => m.read a :: Memory.readBytes m (a + 1) n

/-- Writes bytes from an address up. -/
def Memory.writeBytes (m : Memory) (a : Nat) : List Byte → Memory
  | [] => m
  | b :: bs => Memory.writeBytes (m.write a b) (a + 1) bs

/-- Writes bytes given with their addresses. -/
def Memory.writeCells (m : Memory) (cs : List (Nat × Byte)) : Memory := cs.foldl (fun m c => m.write c.1 c.2) m

end Sys2Proof.Machine
end

