-- ==== Sys2Proof/Machine/Access.lean ====
section
/-! DEFINITION. Finding and replacing the parts of the state: hubs, teams, groups, cores. -/

namespace Sys2Proof.Machine

def State.hub (s : State) : HubId → Hub
  | .h0 => s.hub0
  | .h1 => s.hub1

def State.setHub (s : State) (h : HubId) (x : Hub) : State :=
  match h with
  | .h0 => { s with hub0 := x }
  | .h1 => { s with hub1 := x }

def State.modHub (s : State) (h : HubId) (f : Hub → Hub) : State := s.setHub h (f (s.hub h))

/-- The number of a hub (R337). -/
def hubNumber : HubId → Nat
  | .h0 => 0
  | .h1 => 1

def hubOfNumber (n : Nat) : HubId := if n % 2 = 0 then .h0 else .h1

def otherHub : HubId → HubId
  | .h0 => .h1
  | .h1 => .h0

def State.team? (s : State) (id : Nat) : Option Team := s.teams.find? (fun t => t.id == id)

/-- Replaces a team by its number. -/
def State.setTeam (s : State) (t : Team) : State := { s with teams := updateWhere (fun x => x.id == t.id) (fun _ => t) s.teams }

def State.modTeam (s : State) (id : Nat) (f : Team → Team) : State :=
  { s with teams := updateWhere (fun x => x.id == id) f s.teams }

def State.dropTeam (s : State) (id : Nat) : State := { s with teams := s.teams.filter (fun x => x.id != id) }

def Team.group? (t : Team) (gid : Nat) : Option Group := t.groups.find? (fun g => g.gid == gid)

def Team.setGroup (t : Team) (g : Group) : Team :=
  { t with groups := updateWhere (fun x => x.gid == g.gid) (fun _ => g) t.groups }

def Team.modGroup (t : Team) (gid : Nat) (f : Group → Group) : Team :=
  { t with groups := updateWhere (fun x => x.gid == gid) f t.groups }

def State.setGroup (s : State) (tid : Nat) (g : Group) : State := s.modTeam tid (fun t => t.setGroup g)

def State.modGroup (s : State) (tid gid : Nat) (f : Group → Group) : State := s.modTeam tid (fun t => t.modGroup gid f)

def State.group? (s : State) (tid gid : Nat) : Option Group := (s.team? tid).bind (fun t => t.group? gid)

/-- A team's share on one of its cores (R222). -/
def Team.share? (t : Team) (ix : Nat) : Option CoreShare := t.cores[ix]?

def Team.modShare (t : Team) (ix : Nat) (f : CoreShare → CoreShare) : Team := { t with cores := modifyAt ix f t.cores }

/-- The core a group is resident on. -/
def Team.coreOf (t : Team) (g : Group) : Option CoreUnit := (t.share? g.coreIx).map (fun c => c.unit)

/-- An empty core: nothing cached (R316). -/
def Core.empty (u : CoreUnit) : Core :=
  { unit := u, icache := [], tlb := [], walker := [], combining := [], reserve := [] }

def State.core (s : State) (u : CoreUnit) : Core := (s.cores.find? (fun c => decide (c.unit = u))).getD (Core.empty u)

/-- Replaces a core's record, listing it when it was not. -/
def State.setCore (s : State) (c : Core) : State :=
  if s.cores.any (fun x => decide (x.unit = c.unit)) then
    { s with cores := updateWhere (fun x => decide (x.unit = c.unit)) (fun _ => c) s.cores }
  else { s with cores := s.cores ++ [c] }

def State.modCore (s : State) (u : CoreUnit) (f : Core → Core) : State := s.setCore (f (s.core u))

/-- The hub a core belongs to. -/
def unitHub : CoreUnit → HubId
  | .vector c => c.hub
  | .scalar h _ => h
  | .control c => c.hub

/-- Poison origins and other marks, an unlisted key reading 0. -/
def Marks.read (m : Marks) (k : Nat) : Byte := Memory.read m k
def Marks.write (m : Marks) (k : Nat) (v : Byte) : Marks := Memory.write m k v

/-- A hardware event that has come due. -/
def State.due (s : State) (i : Instr) : State := { s with agenda := s.agenda ++ [i] }

/-- Removes one occurrence of an event from the agenda. -/
def State.undue (s : State) (i : Instr) : State := { s with agenda := s.agenda.erase i }

end Sys2Proof.Machine
end

