-- ==== Sys2Proof/Machine/Home.lean ====
section
/-! DEFINITION. What happens at the home of a location (R337): reads and writes of memory and of its poison, the
directory's peers (R338), timestamps (R342), notes (R345), reservations (R133) and persist buffers (R351). -/

namespace Sys2Proof.Machine

/-- The memory key of a physical address at a home: PEER as an 11-bit number above the 51-bit address (R378). -/
def memKey (home pa : Nat) : Nat := home * 2 ^ 51 + pa % 2 ^ 51

/-- The home's PEER number of a key. -/
def keyHome (k : Nat) : Nat := k / 2 ^ 51

/-- The physical address of a key. -/
def keyAddress (k : Nat) : Nat := k % 2 ^ 51

/-- The number by which the keys name the home that is a hub of this package: this package's stand first. -/
def peerOf (h : HubId) : Nat := hubNumber h

/-- The 128-byte line of a key. -/
def lineOfKey (k : Nat) : Nat := k / 128

/-- Whether a home lies in this package. -/
def localHome (home : Nat) : Bool := home / 2 == 0

/-- The package of a home by its number in the pod (R188), and the other way round: in the keys this package and package 0 change
places. -/
def State.packageOf (s : State) (n : Nat) : Nat :=
  if n = s.flash.package then 0 else if n = 0 then s.flash.package else n

/-- PEER of a home (R378), and the home that a PEER names. -/
def State.peerNumberOf (s : State) (n : Nat) : Nat := 2 * s.packageOf (n / 2) + n % 2

/-- The hub of a home in this package. -/
def homeHub (home : Nat) : HubId := hubOfNumber home

/-- R1: whether a hub exists in the package. -/
def State.hubPresent (s : State) (h : HubId) : Bool := decide (h = .h0) || decide (s.form ≠ .f8405)

/-- The plane index of a request for a line (R418). -/
def planeIndex (pa : Nat) : Nat := (pa / 128 % 8) ^^^ (pa / 1024 % 8)

/-- PLMAP's entry (R432). -/
def Hub.planeOf (h : Hub) (i : Nat) : Nat := h.plmap.toNat / 2 ^ (4 * i) % 8

/-- The plane that an index has at reset (R432). -/
def Hub.ownPlane (h : Hub) (i : Nat) : Nat := i % max 1 h.planes

/-- The plane that a hub's request for a line takes (R418). -/
def State.planeFor (s : State) (h : HubId) (line : Nat) : Nat := (s.hub h).planeOf (planeIndex (keyAddress (line * 128)))

/-- R417: the hub whose link chiplet has the port of a plane. -/
def linkHub (plane : Nat) : HubId := if plane < 4 then .h0 else .h1

/-- R417, R437: whether a hub's message on a plane would cross a failed bridge. -/
def State.planeCut (s : State) (h : HubId) (plane : Nat) : Bool := decide (linkHub plane ≠ h) && !s.bridgeUp

/-- R425: whether a package, by its number, has failed. -/
def State.packageFailed (s : State) (n : Nat) : Bool := s.packages.any (fun p => p.package == n && decide (p.state = .failed))

/-- R350, R436: whether an address stands in a part of a hub's memory that an isolated chiplet holds: its range, or, of the link chiplet,
the durable window behind its CXL ports (log 59). -/
def Hub.cutAway (h : Hub) (pa : Nat) : Bool :=
  (!h.live.getLsbD 8 && decide (h.durBase ≤ pa ∧ pa < h.durBase + h.durSize)) ||
  h.caps.any (fun c => !h.live.getLsbD c.pos && decide (c.base ≤ pa ∧ pa < c.base + c.size))

/-- The error with which a hub's access to a line completes at once: across a failed bridge (R437), to what an isolated chiplet held
(R436), to a failed package (R425), or with no live plane (R421). -/
def State.linkError (s : State) (h : HubId) (line : Nat) : Option Byte :=
  let home := keyHome (line * 128)
  if localHome home then
    if (home != peerOf h && !s.bridgeUp) || (s.hub (homeHub home)).cutAway (keyAddress (line * 128)) then some 0x60 else none
  else if s.packageFailed (s.packageOf (home / 2)) then some 0x60
  else if (s.hub h).plst = 0 then some 0x61
  else if (s.hub h).plst.getLsbD (s.planeFor h line) && s.planeCut h (s.planeFor h line) then some 0x60
  else none

/-- The same for a line of this package; one of another package asks, and has its error in the answer. -/
def State.localError (s : State) (h : HubId) (line : Nat) : Option Byte :=
  if localHome (keyHome (line * 128)) then s.linkError h line else none

/-- R373, R422, R437: the two values of a trap for a request of a hub for a line that fails on a plane: with 0x60 the destination, which
is the other hub where a failed bridge cuts the plane off; with 0x61 the plane and the destination; with 0x62 the plane. -/
def State.planeFailure (s : State) (h : HubId) (line plane : Nat) (e : Byte) : Dword × Dword :=
  let home := keyHome (line * 128)
  let dest := BitVec.ofNat 64 (s.peerNumberOf home)
  let cut := !localHome home && !s.packageFailed (s.packageOf (home / 2)) && s.planeCut h plane
  if e = 0x61 then (BitVec.ofNat 64 plane, dest)
  else if e = 0x62 then (BitVec.ofNat 64 plane, 0)
  else if cut then (BitVec.ofNat 64 (s.peerNumberOf (peerOf (otherHub h))), 0)
  else (dest, 0)

/-- The same on the plane that the hub's map gives the line. -/
def State.requestFailure (s : State) (h : HubId) (line : Nat) (e : Byte) : Dword × Dword := s.planeFailure h line (s.planeFor h line) e

/-- Whether a peer line is dirty: its owner supplies the data (R338). -/
def PeerLine.dirty (p : PeerLine) : Bool := decide (p.state = .M) || decide (p.state = .O)

/-- The dirty copy of a line among the peers of its home (R338). -/
def State.dirtyCopy (s : State) (line : Nat) : Option PeerLine :=
  (s.hub (homeHub (keyHome (line * 128)))).peers.find? (fun p => p.line == line && p.dirty)

/-- A byte as the coherent memory holds it: a dirty owner's copy, else the home's. -/
def State.homeByte (s : State) (k : Nat) : Byte :=
  match s.dirtyCopy (lineOfKey k) with
  | some p => if localHome (keyHome k) then p.data.getD (k % 128) (s.mem.read k) else s.mem.read k
  | none => s.mem.read k

/-- Bytes of coherent memory. -/
def State.homeBytes (s : State) (k n : Nat) : List Byte := (List.range n).map (fun i => s.homeByte (k + i))

/-- The 128 bytes of a line. -/
def State.homeLine (s : State) (line : Nat) : List Byte := s.homeBytes (line * 128) 128

/-- Whether two asks of a turn are the same request: an RMW is told by its word. -/
def Ask.same (a b : Ask) : Bool :=
  decide (a.hub = b.hub) && a.line == b.line &&
  (match a.kind, b.kind with
   | .rmw r _, .rmw r' _ => decide (r = r')
   | k, k' => decide (k = k'))

/-- The answer that the turn under way has to a request of its own for a line (R426). -/
def State.answerFor (s : State) (h : HubId) (line : Nat) (k : TxnKind) : Option TxnAnswer :=
  (s.arrived.find? (fun a => decide (a.asker = s.next) && a.ask.same { hub := h, line := line, kind := k })).map (fun a => a.answer)

/-- A request that is no release, made by a hub. -/
def WriteHow.hub (durable : Bool) : WriteHow :=
  { durable := durable, release := none, published := true, holder := none, made := { source := .store, va := 0, kernel := true } }

/-- Whether a request writes at its home. -/
def TxnKind.writes : TxnKind → Bool
  | .read _ => false
  | _ => true

/-- The writes of a hub to a line that are on their way to the line's home in another package, the earliest first. -/
def State.pendingWrites (s : State) (h : HubId) (line : Nat) : List (List (Nat × Byte)) :=
  s.txns.filterMap (fun x => match x.kind with
    | .write bytes _ => if x.hub = h ∧ x.line = line ∧ x.answer.isNone ∧ x.error.isNone then some bytes else none
    | _ => none)

/-- The bytes of a line with cells of it written over them. -/
def setCells (cells : List (Nat × Byte)) (data : List Byte) : List Byte :=
  cells.foldl (fun d c => d.set (c.1 % 128) c.2) data

/-- A line as a read of a hub finds it at its home, the hub's earlier writes before it (R328). -/
def State.seenLine (s : State) (h : HubId) (line : Nat) : List Byte :=
  (s.pendingWrites h line).foldl (fun d bs => setCells bs d) (s.homeLine line)

/-- The origin of the poison of the word that holds a byte, 0 when it is not poisoned (R393). -/
def State.poisonAt (s : State) (k : Nat) : Byte := s.memPoison.read (k / 4)

/-- The first origin among the words of a range. -/
def State.poisonIn (s : State) (k n : Nat) : Byte :=
  ((List.range n).map (fun i => s.poisonAt (k + i))).foldl (fun acc o => if acc = 0 then o else acc) 0

/-- Clears the poison of the words that a write covers whole. -/
def clearPoison (m : Marks) (cells : List (Nat × Byte)) : Marks :=
  if m = [] then m
  else
    let has := fun k => cells.any (fun c => c.1 == k)
    cells.foldl (fun m c =>
      if c.1 % 4 = 0 ∧ has (c.1 + 1) ∧ has (c.1 + 2) ∧ has (c.1 + 3) then m.write (c.1 / 4) 0 else m) m

/-- Poisons the words of a range with an origin. -/
def poisonWords (m : Marks) (k n : Nat) (origin : Byte) : Marks :=
  (List.range (n / 4 + 1)).foldl (fun m i => if 4 * i < n then m.write (k / 4 + i) origin else m) m

/-- R393: what a write leaves of the poison of memory: a word that it covers is clean, but that a granule which an error has hit stays
poisoned until all its bytes have been overwritten. -/
def State.overwrite (s : State) (cells : List (Nat × Byte)) : State :=
  let gs := s.badGranules.map (fun g =>
    { g with written := (g.written ++ (cells.filter (fun (c : Nat × Byte) => c.1 / 64 == g.granule)).map (fun (c : Nat × Byte) => c.1 % 64)).eraseDups })
  let done := gs.filter (fun g => decide (64 ≤ g.written.length))
  let free := cells.filter (fun c => !s.badGranules.any (fun g => c.1 / 64 == g.granule))
  { s with
    badGranules := gs.filter (fun g => decide (g.written.length < 64))
    memPoison := done.foldl (fun m g => poisonWords m (g.granule * 64) 64 0) (clearPoison s.memPoison free) }

/-- R393: an error in DRAM: the granule is rewritten with every word poisoned. -/
def State.loseGranule (s : State) (granule : Nat) : State :=
  { s with
    badGranules := { granule := granule, written := [] } :: s.badGranules.filter (fun g => g.granule != granule)
    memPoison := poisonWords s.memPoison (granule * 64) 64 0x50 }

/-- R338: every peer copy of a line is invalidated, a dirty owner's data merged into the L2 first. A read-exclusive or upgrade in
progress goes on: the line moves to M with its last acknowledgement. -/
def State.invalidatePeers (s : State) (line : Nat) : State :=
  let home := keyHome (line * 128)
  if !localHome home then s
  else
    let h := homeHub home
    let hub := s.hub h
    let s1 := match s.dirtyCopy line with
      | some p => { s with mem := s.mem.writeBytes (line * 128) (p.data.take 128) }
      | none => s
    if hub.peers.any (fun p => p.line == line) || hub.dir.any (fun e => e.line == line) then
      s1.setHub h { hub with peers := hub.peers.filter (fun p => p.line != line),
                             dir := hub.dir.filter (fun e => e.line != line || e.pending.isSome) }
    else s1

/-- R338: an L2 eviction may have come about before a line is used (log 11): a back-invalidation, with dirty data written. It
ends no reservation (R339). -/
def State.evictLine (s : State) (line : Nat) : State :=
  let hub := s.hub (homeHub (keyHome (line * 128)))
  if hub.dir.any (fun e => e.line == line) && Config.freeReplaced s.tick (line + 2 ^ 60) then s.invalidatePeers line else s

/-! ## The directory among hub peers -/

/-- R338: a line whose home keeps a directory entry for it. -/
def homed (home : HubId) (line : Nat) : Bool := keyHome (line * 128) == peerOf home

/-- The directory entry of a line. -/
def Hub.entry (h : Hub) (line : Nat) : DirEntry :=
  (h.dir.find? (fun d => d.line == line)).getD { line := line, state := .I, owner := 0, sharers := [], pending := none }

/-- Sets a directory entry; one in state I with nothing pending is not listed. -/
def Hub.setEntry (h : Hub) (d : DirEntry) : Hub :=
  let rest := h.dir.filter (fun x => x.line != d.line)
  { h with dir := if d.state = .I ∧ d.pending.isNone then rest else d :: rest }

/-- The copy of a line in a peer's cache. -/
def Hub.copyOf (h : Hub) (peer line : Nat) : Option PeerLine := h.peers.find? (fun p => p.peer == peer && p.line == line)

/-- Sets the copy of a line in a peer's cache. -/
def Hub.setCopy (h : Hub) (p : PeerLine) : Hub :=
  { h with peers := p :: h.peers.filter (fun x => !(x.peer == p.peer && x.line == p.line)) }

/-- The copy of a line leaves a peer's cache. -/
def Hub.dropCopy (h : Hub) (peer line : Nat) : Hub :=
  { h with peers := h.peers.filter (fun x => !(x.peer == peer && x.line == line)) }

/-- R338: what a peer's read makes of a line: its copy, and the entry. Of a durable page a peer keeps at most an S copy. -/
def State.sharedBy (s : State) (h : HubId) (peer line : Nat) (durable : Bool) : State :=
  let hub := s.hub h
  let d := hub.entry line
  let data := s.homeLine line
  let copy := fun (x : DirState) => ({ peer := peer, line := line, state := x, data := data } : PeerLine)
  let own := fun (x : Hub) (st : DirState) => match x.copyOf d.owner line with
    | some p => x.setCopy { p with state := st }
    | none => x
  match d.state with
  | .I =>
    if durable then
      s.setHub h ((hub.setCopy (copy .S)).setEntry { d with state := .S, sharers := [peer] })
    else s.setHub h ((hub.setCopy (copy .E)).setEntry { d with state := .E, owner := peer, sharers := [] })
  | .S => s.setHub h ((hub.setCopy (copy .S)).setEntry { d with sharers := d.sharers ++ [peer] })
  | .E => s.setHub h (((own hub .S).setCopy (copy .S)).setEntry { d with state := .S, sharers := [d.owner, peer] })
  | .M => s.setHub h (((own hub .O).setCopy (copy .S)).setEntry { d with state := .O, sharers := [peer] })
  | .O => s.setHub h ((hub.setCopy (copy .S)).setEntry { d with sharers := d.sharers ++ [peer] })

/-- R338: every copy of a line but one is invalidated, a dirty owner's data merged into the L2 first; reservations on the line
end (R133, R339). -/
def State.invalidateOthers (s : State) (h : HubId) (peer line : Nat) : State :=
  let s1 := match s.dirtyCopy line with
    | some p => if p.peer = peer then s else { s with mem := s.mem.writeBytes (line * 128) (p.data.take 128) }
    | none => s
  s1.modHub h (fun x => { x with
    peers := x.peers.filter (fun p => p.line != line || p.peer == peer)
    reservations := x.reservations.filter (fun r => lineOfKey r.address != line) })

/-- R338: a requester takes a line in M; its data are its own copy's, else the home's. -/
def State.grantM (s : State) (h : HubId) (peer line : Nat) : State :=
  let hub := s.hub h
  let data := match hub.copyOf peer line with
    | some p => p.data
    | none => s.homeLine line
  s.setHub h ((hub.setCopy { peer := peer, line := line, state := .M, data := data }).setEntry
    { line := line, state := .M, owner := peer, sharers := [], pending := none })

/-- R338: a read by an I/O-coherent requester: a dirty owner supplies the data and keeps or takes O. -/
def State.ioRead (s : State) (line : Nat) : State :=
  let home := keyHome (line * 128)
  if !localHome home then s
  else
    let hub := s.hub (homeHub home)
    let d := hub.entry line
    match hub.copyOf d.owner line with
    | some p =>
      if d.state = .M ∧ d.pending.isNone then
        s.setHub (homeHub home) ((hub.setCopy { p with state := .O }).setEntry { d with state := .O })
      else s
    | none => s

/-! ## Timestamps -/

/-- R342: the stamps of a line; a line that has left the store takes the floor. -/
def Hub.stamp (h : Hub) (line : Nat) : LineStamp :=
  (h.stamps.find? (fun x => x.line == line)).getD { line := line, wts := h.floor, rts := h.floor }

/-- Replaces the stamps of a line. -/
def Hub.setStamp (h : Hub) (x : LineStamp) : Hub :=
  { h with stamps := x :: h.stamps.filter (fun y => y.line != x.line) }

/-- The larger of two times. -/
def maxTime (a b : Dword) : Dword := if a.toNat < b.toNat then b else a

/-- R342: lines leave the timestamp store at any time (log 11), and their times raise the floor. -/
def Hub.evictStamps (h : Hub) (gone : Nat → Bool) : Hub :=
  { h with
    stamps := h.stamps.filter (fun x => !gone x.line)
    floor := h.stamps.foldl (fun f x => if gone x.line then maxTime f (maxTime x.wts x.rts) else f) h.floor }

/-- R341: LCLK never decreases. -/
def Hub.raise (h : Hub) (t : Dword) : Hub := { h with lclk := maxTime h.lclk t }

/-- R342: a write's new wts, given the requester's clock. -/
def writeStamp (x : LineStamp) (t : Dword) : LineStamp :=
  let w := maxTime (maxTime (x.wts + 1) (x.rts + 1)) t
  { x with wts := w, rts := w }

/-- The writer's part of a write at a home. -/
structure Writer where
  /-- The requester's hub. -/
  hub : HubId
  team : Nat
  gid : Nat
  scope : Nat
  release : Bool
  rmw : Bool
  durable : Bool
  /-- A release before which every ordered write has been performed is published (R345). -/
  published : Bool
  /-- Of an unpublished release, the core whose store-combining path holds earlier stores (R345). -/
  holder : Option CoreId
deriving DecidableEq, Repr

/-- A plain write of an agent without a note. -/
def Writer.plain (hub : HubId) (team gid : Nat) (durable : Bool) : Writer :=
  { hub := hub, team := team, gid := gid, scope := 0, release := false, rmw := false, durable := durable, published := true,
    holder := none }

/-- R345: the notes of a line after a write. -/
def notesAfter (notes : List Note) (line : Nat) (w : Writer) : List Note :=
  let kept := if w.rmw then notes else notes.filter (fun n => n.line != line)
  if w.release then
    kept ++ [{ line := line, team := w.team, gid := w.gid, hub := w.hub, scope := w.scope, published := w.published,
               core := w.holder, clock := 0 }]
  else kept

/-- R351: merges the granules of a durable write into the persist buffer; an entry takes the granule as memory holds
it after the write. -/
def persistGranules (mem : Memory) (poison : Marks) (buf : List PersistEntry) (cells : List (Nat × Byte)) : List PersistEntry :=
  (cells.map (fun c => c.1 / 64)).eraseDups.foldl
    (fun buf g =>
      let e := { granule := g, data := mem.readBytes (g * 64) 64
                 origins := (List.range 16).map (fun i => poison.read (g * 16 + i)) : PersistEntry }
      if buf.any (fun x => x.granule == g) then updateWhere (fun x => x.granule == g) (fun _ => e) buf else buf ++ [e]) buf

/-- R351: whether the bytes at keys, as one durable write, can enter the persist buffers of their homes now. -/
def State.roomForKeys (s : State) (ks : List Nat) : Bool :=
  [HubId.h0, .h1].all (fun h =>
    let new := ((ks.filter (fun k => keyHome k == peerOf h)).map (fun k => k / 64)).eraseDups.filter
      (fun g => !(s.hub h).persist.any (fun x => x.granule == g))
    new.isEmpty || decide ((s.hub h).persist.length + new.length ≤ (s.hub h).pbcap.toNat))

/-- R351: whether a durable write of n bytes can enter the persist buffer of its home now. -/
def State.durableRoom (s : State) (k n : Nat) : Bool := s.roomForKeys ((List.range n).map (fun i => k + i))

/-- A line leaves a hub's RDC: a write of the hub issues (R343), a plain read takes the home's copy (R328), or the entry is in error and
will be read again from its source (R393). -/
def Hub.dropRdc (h : Hub) (line : Nat) : Hub := { h with rdc := h.rdc.filter (fun e => e.line != line) }

/-- R133, R342, R345: what a write of a line leaves at its home besides the data: the stamps, which the writer's hub takes, the
notes, and the reservations that end. Of another package's home this state holds the notes that its own agents' releases made,
with the hub of the same number (log 18). -/
def State.stampWrite (s : State) (line : Nat) (w : Writer) : State :=
  let home := keyHome (line * 128)
  if localHome home then
    let hub := s.hub (homeHub home)
    let x := writeStamp (hub.stamp line) (s.hub w.hub).lclk
    (s.setHub (homeHub home) { hub.setStamp x with
      notes := notesAfter hub.notes line w
      dropped := if w.rmw then hub.dropped else hub.dropped.filter (fun l => l != line)
      reservations := hub.reservations.filter (fun r => lineOfKey r.address != line) }).modHub w.hub (fun r => r.raise x.wts)
  else s.modHub (homeHub home) (fun hub => { hub with
    notes := notesAfter hub.notes line w
    dropped := if w.rmw then hub.dropped else hub.dropped.filter (fun l => l != line) })

/-- R351: a durable write reaches the persist buffer of its home. -/
def State.enterPersist (s : State) (line : Nat) (cells : List (Nat × Byte)) (durable : Bool) : State :=
  let home := keyHome (line * 128)
  if localHome home && durable then
    s.modHub (homeHub home) (fun h => { h with persist := persistGranules s.mem s.memPoison h.persist cells })
  else s

/-- A write, or the write part of an RMW, performed at its home: bytes of one line, as one write (R412). -/
def State.homeWriteLine (s : State) (line : Nat) (cells : List (Nat × Byte)) (w : Writer) : State :=
  let s1 := s.invalidatePeers line
  let s2 := { s1.overwrite cells with mem := s1.mem.writeCells cells }
  ((s2.stampWrite line w).enterPersist line cells w.durable).modHub w.hub (fun r => r.dropRdc line)

/-- R338: a peer writes a line that its cache holds in M: its own copy, with what a write leaves at the home. -/
def State.peerWrite (s : State) (h : HubId) (peer line : Nat) (cells : List (Nat × Byte)) (w : Writer) : State :=
  ((s.overwrite cells).modHub h (fun x => { x with
    peers := updateWhere (fun p => p.peer == peer && p.line == line)
      (fun p => { p with state := .M, data := setCells cells p.data }) x.peers
    dir := updateWhere (fun d => d.line == line) (fun d => { d with state := .M }) x.dir })).stampWrite line w

/-- Bytes with their keys, from a key up. -/
def cellsFrom (k : Nat) : List Byte → List (Nat × Byte)
  | [] => []
  | b :: bs => (k, b) :: cellsFrom (k + 1) bs

/-- Bytes within one line, performed at their home. -/
def State.homeWrite (s : State) (k : Nat) (bytes : List Byte) (w : Writer) : State :=
  s.homeWriteLine (lineOfKey k) (cellsFrom k bytes) w

/-- The pieces of a byte range that lie in one line each: offset and length. -/
def linePieces (k n : Nat) : List (Nat × Nat) :=
  (List.range ((k % 128 + n + 127) / 128)).map (fun i =>
    let lo := if i = 0 then k else (k / 128 + i) * 128
    let hi := min (k + n) ((k / 128 + i + 1) * 128)
    (lo - k, hi - lo))

/-- Writes a range, a line at a time in ascending order. -/
def State.homeWriteRange (s : State) (k : Nat) (bytes : List Byte) (w : Writer) : State :=
  (linePieces k bytes.length).foldl (fun s p => s.homeWrite (k + p.1) ((bytes.drop p.1).take p.2) w) s

/-- A 64-bit word of memory. -/
def State.homeDword (s : State) (k : Nat) : Dword := BitVec.ofNat 64 (ofBytes (s.homeBytes k 8))

/-- The number that stands for a hub as an agent (R321): no team has it. -/
def hubTeam (h : HubId) : Nat := 2 ^ 64 + hubNumber h

/-! ## Persist buffers -/

/-- R351, R393: the bytes of an entry reach the tier, with the poison of its words. -/
def State.toTier (s : State) (e : PersistEntry) : State :=
  { s with
    tier := s.tier.writeBytes (e.granule * 64) e.data
    tierPoison := e.origins.zipIdx.foldl (fun m x => m.write (e.granule * 16 + x.2) x.1) s.tierPoison }

/-- R351: an entry of a persist buffer drains to the tier. -/
def State.drainPersist (s : State) (h : HubId) (index : Nat) : State :=
  match (s.hub h).persist[index]? with
  | none => s
  | some e => (s.toTier e).modHub h (fun x => { x with persist := x.persist.eraseIdx index })

/-- R351: a durable write of a hub waits while the buffer of its home is full: entries drain meanwhile, the oldest first. n bounds
their number. -/
def State.makeRoom (ks : List Nat) : Nat → State → State
  | 0, s => s
  | n + 1, s =>
    if s.roomForKeys ks then s
    else State.makeRoom ks n ((ks.map (fun k => homeHub (keyHome k))).eraseDups.foldl (fun s h => s.drainPersist h 0) s)

/-- The hub's own writer. -/
def hubWriter (h : HubId) : Writer := Writer.plain h (hubTeam h) 0 false

end Sys2Proof.Machine
end

