-- ==== Sys2Proof/Machine/Requests.lean ====
section
/-! DEFINITION. Requests to other packages (R135, R418 to R426): how one leaves, and how a turn asks for data and takes the answer. -/

namespace Sys2Proof.Machine

/-- The number that stands for the plane of a request that is held (R421). -/
def heldPlane : Nat := 8

/-- The port of a plane. -/
def State.port? (s : State) (plane : Nat) : Option Link := s.ports.find? (fun l => l.plane == plane)

/-- Changes the port of a plane. -/
def State.modPort (s : State) (plane : Nat) (f : Link → Link) : State :=
  { s with ports := updateWhere (fun l => l.plane == plane) f s.ports }

/-- R428: whether a direction of a port has used every counter value of its key. -/
def Link.spent (l : Link) : Bool := decide (2 ^ 48 ≤ l.counter.toNat) || decide (2 ^ 48 ≤ l.received.toNat)

/-- R428: whether a plane's port sends nothing more under its key. -/
def State.spent (s : State) (plane : Nat) : Bool := (s.port? plane).any Link.spent

/-- R421, R423: an index whose messages are held: its plane is dead or still drains, so the remap is not done, or its own plane is live
again and the map has not returned to it. -/
def State.moving (s : State) (h : HubId) (i : Nat) : Bool :=
  let x := s.hub h
  let p := x.planeOf i
  !x.plst.getLsbD p || x.dying.contains p || s.spent p || (p != x.ownPlane i && x.plst.getLsbD (x.ownPlane i))

/-- R428: a frame leaves on a plane, or one is received: that direction's counter advances (log 26). -/
def State.sent (s : State) (plane : Nat) : State := s.modPort plane (fun l => { l with counter := l.counter + 1 })
def State.heard (s : State) (plane : Nat) : State := s.modPort plane (fun l => { l with received := l.received + 1, authFailures := 0 })

/-- R342: the step in which the home performs a request. -/
def TxnKind.performed (k : TxnKind) (id : Nat) : Instr :=
  match k with
  | .read true => .leasedRead id
  | .read false => .plainRead id
  | _ => .homeWrite id

def State.txn? (s : State) (id : Nat) : Option Txn := s.txns.find? (fun x => x.id == id)

def State.modTxn (s : State) (id : Nat) (f : Txn → Txn) : State :=
  { s with txns := updateWhere (fun x => x.id == id) f s.txns }

/-- R425: whether a request's target is in recovery, in which case it is held. -/
def State.txnHeld (s : State) (x : Txn) : Bool :=
  s.packages.any (fun p => p.package == s.packageOf (keyHome (x.line * 128) / 2) && decide (p.state = .recovering))

/-- Whether a request is on its way to its home. -/
def Txn.onTheWay (x : Txn) : Bool := x.answer.isNone && x.error.isNone && decide (x.plane ≠ heldPlane)

/-- A request to another package takes an outstanding-transaction entry (R135, R426); one that cannot leave completes with error at once
(R421, R425). The requester's own RDC entry for a line leaves when it writes (R343). -/
def State.request (s : State) (asker : Option Turn) (tid gid : Nat) (h : HubId) (line : Nat) (k : TxnKind) : State :=
  let i := planeIndex (keyAddress (line * 128))
  let error := s.linkError h line
  let dead := error.isSome
  let held := s.moving h i && !dead
  let plane := if held then heldPlane else s.planeFor h line
  let x : Txn := { id := s.nextTxn, team := tid, gid := gid, hub := h, line := line, kind := k, asker := asker, plane := plane,
                   answer := none, error := error, issued := s.tbase }
  let ev : Instr := if dead then .transactionResponse s.nextTxn else k.performed s.nextTxn
  let s0 := { s with nextTxn := s.nextTxn + 1, txns := s.txns ++ [x] }
  let s1 := if k.writes then s0.modHub h (fun y => { y with rdc := y.rdc.filter (fun e => e.line != line) }) else s0
  if held then s1
  else if dead then s1.due ev
  else (s1.sent plane).due ev

/-- R425: a request completes with error. -/
def State.txnError (s : State) (id : Nat) (cause : Byte) : State :=
  (s.modTxn id (fun x => { x with error := some cause })).due (.transactionResponse id)

/-- A request whose answer no turn takes: a write, an RMW of a commit or of the hub. -/
def State.newTxn (s : State) (tid gid : Nat) (h : HubId) (line : Nat) (k : TxnKind) : State := s.request none tid gid h line k

/-! ## Atomic operations -/

/-- The types of atomics (R129). -/
def atomWidth (type : Nat) : Nat := if type = 1 then 64 else 32

/-- R129: whether an operation has a type. -/
def atomTyped (op type : Nat) : Bool :=
  if op ≤ 7 ∨ op = 9 ∨ op = 10 then decide (type < 2)
  else if op = 8 then decide (type < 3)
  else if op ≤ 13 then decide (type = 2)
  else false

/-- R129: the new value of a word. Floating-point atomics raise nothing. -/
def atomNew (op width old b : Nat) : Nat :=
  match op with
  | 0 => (old + b) % 2 ^ width
  | 1 => if signed width old ≤ signed width b then old else b
  | 2 => if signed width b ≤ signed width old then old else b
  | 3 => min old b
  | 4 => max old b
  | 5 => old &&& b
  | 6 => old ||| b
  | 7 => old ^^^ b
  | 8 => b
  | 9 => if b ≤ old then 0 else old + 1
  | 10 => if old = 0 ∨ b < old then b else old - 1
  | 11 => (Fmt.f32.add .rne (Fmt.f32.value old) (Fmt.f32.value b)).code
  | 12 => (Fmt.f32.minMax false old b).code
  | _ => (Fmt.f32.minMax true old b).code

/-- R129, R130: the word that an RMW stores over an old one, if it stores. -/
def RmwWord.new (r : RmwWord) (old : Nat) : Option (List Byte) :=
  if r.op = 0x10 then if old = ofBytes (r.operand.take r.size) then some (r.operand.drop r.size) else none
  else some (toBytes r.size (atomNew r.op (8 * r.size) old (ofBytes r.operand)))

/-- R131, R338: an RMW of one word performed at its home: one that stores nothing is a read; a word whose new value comes from a
poisoned old one stays poisoned. -/
def State.rmwAtHome (s : State) (r : RmwWord) (w : Writer) : State :=
  let origin := s.poisonIn r.key r.size
  match r.new (ofBytes (s.homeBytes r.key r.size)) with
  | none => s.ioRead (lineOfKey r.key)
  | some bs =>
    let s1 := s.homeWrite r.key bs w
    if origin ≠ 0 ∧ r.op ≠ 8 ∧ r.op ≠ 0x10 then { s1 with memPoison := poisonWords s1.memPoison r.key r.size origin } else s1

/-! ## Asking and taking -/

/-- A turn asks another package for a line or an RMW: its answer when that has come, else the ask is noted, and the turn will be taken
back (log 83). -/
def State.ask (s : State) (h : HubId) (line : Nat) (k : TxnKind) : State × Option TxnAnswer :=
  match s.answerFor h line k with
  | some a => (s, some a)
  | none => ({ s with asked := s.asked ++ [{ hub := h, line := line, kind := k }] }, none)

/-- Whether a request of the turn under way is outstanding. -/
def State.asking (s : State) (a : Ask) : Bool :=
  s.txns.any (fun x => decide (x.asker = some s.next) && ({ hub := x.hub, line := x.line, kind := x.kind } : Ask).same a)

/-- The agent in whose name a turn asks: its group, else the hub. -/
def Turn.asker (t : Turn) (h : HubId) : Nat × Nat :=
  match t with
  | .agent (.group tid gid) => (tid, gid)
  | _ => (hubTeam h, 0)

/-- The asks of a turn leave as requests, but for those that are outstanding already. -/
def State.postAsks (s : State) (asks : List Ask) : State :=
  asks.eraseDups.foldl (fun s a =>
    if s.asking a then s
    else let who := s.next.asker a.hub
         s.request (some s.next) who.1 who.2 a.hub a.line a.kind) s

/-- The answers that the turn under way has been given are used up. -/
def State.answersUsed (s : State) : State := { s with arrived := s.arrived.filter (fun a => decide (a.asker ≠ s.next)) }

/-- The end of a step of the hardware that reads through a hub, from the state before it: a step that asked for what it has no answer to
is taken back, its requests leave, and it comes again. -/
def State.closeEvent (s : State) (i : Instr) (s1 : State) : State :=
  if s1.asked = [] then s1.answersUsed
  else
    let s2 := s.postAsks s1.asked
    if s2.agenda.contains i then s2 else s2.due i

/-- What a turn asked and was not answered is asked no more: its group has left the instruction. -/
def State.dropAsks (s : State) (t : Turn) : State :=
  { s with
    arrived := s.arrived.filter (fun a => decide (a.asker ≠ t))
    txns := s.txns.map (fun x => if x.asker = some t then { x with asker := none } else x) }

end Sys2Proof.Machine
end

