-- ==== Sys2Proof/Machine/Translate.lean ====
section
/-! DEFINITION. Translation of virtual addresses (R377 to R383), the page mode checks of R337, access tables (R429,
R430) and the lease guard (R344), in the ranks of R372. -/

namespace Sys2Proof.Machine

/-- The kinds of access that translation tells apart (R380). -/
inductive AccessKind where
  | read | write | rmw | fetch
deriving DecidableEq, Repr

/-- The address space and identity of a master (R377, R429). -/
structure Space where
  asn : Half
  ptroot : Dword
  /-- The hub of the team's queue, where the root table stands (R379). -/
  hub : HubId
  tenant : Half
  kernel : Bool
  /-- The master's hub and ring position. -/
  masterHub : HubId
  pos : Nat
  /-- The core whose TLB serves it, none for a hub's own reads. -/
  tlb : Option CoreUnit
  /-- A copy engine or an array engine, which access tables know at task level (R429). -/
  engine : Bool := false

/-- Why an access fails: its cause, its place in the ranking of R372, its second value, and its first value where that
is not the address. -/
structure XFault where
  cause : Nat
  rank : Nat
  val2 : Dword := 0
  val : Option Dword := none
deriving DecidableEq, Repr

/-- A translated access. -/
structure Xlat where
  key : Nat
  home : Nat
  pol : Nat
  mode : Nat
  dur : Bool
  level : Nat
  pte : Dword
  pteKey : Nat
  /-- The pointer entries that the walk passed, each with its level and where it stands (R383). -/
  pointers : List (Nat × Dword × Nat)
deriving DecidableEq, Repr

/-- The answer of a check. -/
inductive XRes where
  | ok (x : Xlat)
  | bad (f : XFault)
deriving DecidableEq, Repr

/-- R381: the walk record. -/
def walkRecord (level reason : Nat) (k : AccessKind) (writePart : Bool) : Dword :=
  BitVec.ofNat 64 (level + reason * 8 + (if decide (k = .write) || writePart then 256 else 0) +
    (if k = .fetch then 512 else 0))

/-- R1, R337, R424: whether a hub named by a PEER exists: its package is present, and of this package the hub. -/
def State.peerPresent (s : State) (home : Nat) : Bool :=
  if localHome home then s.hubPresent (homeHub home) else s.packages.any (fun p => p.package == s.packageOf (home / 2) && decide (p.state ≠ .absent))

/-- R378: the fields of an entry. -/
def pteV (e : Dword) : Bool := e.getLsbD 0
def pteRd (e : Dword) : Bool := e.getLsbD 1
def pteW (e : Dword) : Bool := e.getLsbD 2
def pteX (e : Dword) : Bool := e.getLsbD 3
def pteT (e : Dword) : Bool := e.getLsbD 4
def pteG (e : Dword) : Bool := e.getLsbD 5
def pteD (e : Dword) : Bool := e.getLsbD 7
def pteMode (e : Dword) : Nat := bits e 12 11
def pteDur (e : Dword) : Bool := e.getLsbD 13
def ptePpn (e : Dword) : Nat := bits e 63 25

/-- R378: POL, of which 5 to 7 act as 0. -/
def ptePol (e : Dword) : Nat := if 5 ≤ bits e 10 8 then 0 else bits e 10 8

/-- PEER of a PTE: the hub in bit 14 and the package in bits 24 to 15 (R378). -/
def ptePeer (e : Dword) : Nat := bits e 24 14

/-- The home that a PTE names (R378). -/
def State.pteHome (s : State) (e : Dword) : Nat := s.peerNumberOf (ptePeer e)

/-- R373, R378, R422: the fault of a request for a line that cannot be made, or failed with an error. -/
def State.linkFault (s : State) (sp : Space) (rank line : Nat) (e : Byte) : XFault :=
  let f := s.requestFailure sp.masterHub line e
  { cause := e.toNat, rank := rank, val := some f.1, val2 := f.2 }

/-- The cause that marks a walk under way, no cause of R373: it has to read a line of another package first (R379, R426). -/
def walkAsks : Nat := 0x100

/-- A table line of another package as a walk reads it: the answer of its plain read when that has come (R426). The walk of a step of the
hardware, which is no instruction of a group, has its answer within the step (log 83). -/
def State.tableLine (s : State) (h : HubId) (line : Nat) : Option (Byte × List Byte) :=
  match s.next with
  | .agent (.group _ _) => (s.answerFor h line (.read false)).map (fun a => (a.failed, a.data))
  | _ => some (0, s.seenLine h line)

/-- What a walk finds: the leaf, its level, where it stands, and the pointer entries passed. -/
structure Walked where
  leaf : Dword
  level : Nat
  key : Nat
  pointers : List (Nat × Dword × Nat)
deriving DecidableEq, Repr

/-- R383: a cached pointer entry for an address at a level, one that has not been replaced (log 11). -/
def pointerOf (s : State) (cache : List TlbEntry) (asn : Half) (va lvl : Nat) : Option TlbEntry :=
  cache.find? (fun t => t.asn == asn && t.level == lvl && t.page == va >>> (12 + 9 * lvl) &&
    !Config.freeReplaced s.tick (t.page + 2 ^ 61))

/-- R379: the entry that a walk reads at a level, with where it stands. -/
def walkEntry (s : State) (sp : Space) (va lvl : Nat) (k : AccessKind) (table home : Nat) : Except XFault (Dword × Nat) :=
  let key := memKey home (table + 8 * (va >>> (12 + 9 * lvl) % 512))
  if !s.peerPresent home then .error (s.linkFault sp 13 (lineOfKey key) 0x60)
  else match s.linkError sp.masterHub (lineOfKey key) with
  | some e => .error (s.linkFault sp 13 (lineOfKey key) e)
  | none =>
    let read := if localHome home then some (0, s.homeLine (lineOfKey key)) else s.tableLine sp.masterHub (lineOfKey key)
    match read with
    | none => .error { cause := walkAsks, rank := 0, val := some (BitVec.ofNat 64 (lineOfKey key)) }
    | some (failed, data) =>
      let e : Dword := BitVec.ofNat 64 (ofBytes ((data.drop (key % 128)).take 8))
      if failed ≠ 0 then .error (s.linkFault sp 13 (lineOfKey key) failed)
      else if !pteV e then .error { cause := 0x20, rank := 12, val2 := walkRecord lvl 0 k false } else .ok (e, key)

/-- R379: whether an entry points to a further table. -/
def isPointer (e : Dword) : Bool := !pteRd e && !pteW e && !pteX e

/-- R379: a leaf at a level. -/
def walkLeaf (lvl : Nat) (k : AccessKind) (e : Dword) (key : Nat) (ps : List (Nat × Dword × Nat)) : Except XFault Walked :=
  let np := fun reason => { cause := 0x20, rank := 12, val2 := walkRecord lvl reason k false : XFault }
  if 2 < lvl then .error (np 1)
  else if ptePpn e % 2 ^ (9 * lvl) ≠ 0 then .error (np 2)
  else .ok { leaf := e, level := lvl, key := key, pointers := ps }

/-- R379: the walk from a level down. A pointer entry that the walker cache holds stands for the one in memory (R383). -/
def walkFrom (s : State) (sp : Space) (cache : List TlbEntry) (va : Nat) (k : AccessKind) :
    Nat → Nat → Nat → List (Nat × Dword × Nat) → Except XFault Walked
  | 0, table, home, ps =>
    match walkEntry s sp va 0 k table home with
    | .error f => .error f
    | .ok (e, key) =>
      if isPointer e then .error { cause := 0x20, rank := 12, val2 := walkRecord 0 1 k false } else walkLeaf 0 k e key ps
  | n + 1, table, home, ps =>
    match pointerOf s cache sp.asn va (n + 1) with
    | some t => walkFrom s sp cache va k n (ptePpn t.pte * 4096) (s.pteHome t.pte) (ps ++ [(n + 1, t.pte, t.pteAddress)])
    | none => match walkEntry s sp va (n + 1) k table home with
      | .error f => .error f
      | .ok (e, key) =>
        if isPointer e then walkFrom s sp cache va k n (ptePpn e * 4096) (s.pteHome e) (ps ++ [(n + 1, e, key)])
        else walkLeaf (n + 1) k e key ps

/-- R379: the walk of a virtual address, with what a walker cache holds. -/
def walk (s : State) (sp : Space) (cache : List TlbEntry) (va : Dword) (k : AccessKind) : Except XFault Walked :=
  if !canonical va then .error { cause := 0x20, rank := 12, val2 := walkRecord 4 3 k false }
  else walkFrom s sp cache va.toNat k 4 (bits sp.ptroot 50 12 * 4096) (peerOf sp.hub) []

/-- Whether a leaf refuses an access by its rights (R380): the cause and the reason. -/
def rightsBad (kernel : Bool) (e : Dword) (k : AccessKind) : Option (Nat × Nat × Bool) :=
  let t := !kernel && !pteT e
  let rd := if !pteRd e then some (0x21, 4, false) else if t then some (0x21, 5, false) else none
  let wr := if !pteW e then some (0x22, 4, decide (k = .rmw)) else if t then some (0x22, 5, decide (k = .rmw)) else none
  match k with
  | .read => rd
  | .write => wr
  | .rmw => match rd with | some x => some x | none => wr
  | .fetch =>
    if !pteX e then some (0x23, 4, false)
    else if kernel && pteT e then some (0x23, 6, false)
    else if t then some (0x23, 5, false)
    else none

/-- R443: the CXL port that holds an address of a hub's durable window, given as its base and the capacities of its two ports: by 4 KiB in
turn with equal capacities, else port 0's come first. -/
def cxlPortOf (w : Nat × Nat × Nat) (pa : Nat) : Nat :=
  let o := pa - w.1
  if w.2.1 = w.2.2 then o / 4096 % 2 else if o < w.2.1 then 0 else 1

/-- R350, R443: the durable window of another package's hub that holds an address, as the firmware's records give it (log 4). -/
def State.peerWindow (s : State) (home pa : Nat) : Option (Nat × Nat × Nat) :=
  (s.flash.peerWindows.find? (fun w => w.1 == s.peerNumberOf home && decide (w.2.1 ≤ pa ∧ pa < w.2.1 + w.2.2.1 + w.2.2.2))).map (fun w => w.2)

/-- R350: whether a physical address lies in the durable window of its home. -/
def State.inDurableWindow (s : State) (home pa : Nat) : Bool :=
  if localHome home then
    let h := s.hub (homeHub home)
    decide (h.durBase ≤ pa ∧ pa < h.durBase + h.durSize)
  else (s.peerWindow home pa).isSome

/-- R429: whether an entry matches a master's access to an address. -/
def entryMatches (package : Nat) (e : AccessEntry) (sp : Space) (pa : Nat) : Bool :=
  let source : Nat := package % 1024 + hubNumber sp.masterHub * 1024 + sp.pos * 2048
  e.rights.getLsbD 7 && decide (bits e.base 50 12 * 4096 ≤ pa ∧ pa < bits e.limit 50 12 * 4096 + 4096) &&
  ((e.tenant ^^^ sp.tenant) &&& e.tmask == 0) && ((e.source ^^^ BitVec.ofNat 16 source) &&& e.smask == 0) &&
  e.levels.getLsbD (if sp.kernel && !sp.engine then 1 else 0)

/-- The entries of a target's table; entry 0 is the open one until the firmware writes it (log 9). -/
def State.tableOf (s : State) (t : AccessTarget) : List AccessEntry :=
  let written := s.access.filter (fun x => decide (x.1 = t))
  (List.range 64).filterMap (fun i =>
    match written.find? (fun x => x.2.1 == i) with
    | some x => some x.2.2
    | none => if i = 0 then some openEntry else none)

/-- R429: the first matching entry's rights decide; no match refuses. -/
def State.admits (s : State) (t : AccessTarget) (sp : Space) (pa right : Nat) : Bool :=
  match (s.tableOf t).find? (fun e => entryMatches s.flash.package e sp pa) with
  | some e => e.rights.getLsbD right
  | none => false

/-- R429: the rights an access needs: read 0, write 1, atomic 2, fetch 5. -/
def neededRights : AccessKind → List Nat
  | .read => [0]
  | .write => [1]
  | .rmw => [2]
  | .fetch => [5]

/-- R373: the refusing target of cause 0x26, by its ring position. -/
def State.targetWord (s : State) (home pos : Nat) : Dword := BitVec.ofNat 64 (pos % 16 + s.peerNumberOf home * 16)

/-- The same of a hub's own window. -/
def Hub.cxlPort (h : Hub) (pa : Nat) : Nat := cxlPortOf (h.durBase, h.durPort0, h.durSize - h.durPort0) pa

/-- R429, R430: the targets that an address is checked at, with their ring positions: the home slice, whose position is not stated and
is free (log 16), and for the durable window the CXL port, on the link chiplet. -/
def State.targetsOf (s : State) (home pa : Nat) : List (AccessTarget × Nat) :=
  let slice := (Config.freeReading 0 26).toNat
  if !localHome home then
    (.peer (s.peerNumberOf home), slice) ::
    (match s.peerWindow home pa with
     | some w => [(.peerCxl (s.peerNumberOf home) (cxlPortOf w pa), 8)]
     | none => [])
  else
    (.home (homeHub home), slice) ::
    (if s.inDurableWindow home pa then [(.cxl (homeHub home) ((s.hub (homeHub home)).cxlPort pa), 8)] else [])

/-- R429, R430: the position of the first target that refuses a master some rights at an address. -/
def State.refusedBy (s : State) (sp : Space) (home pa : Nat) (rights : List Nat) : Option Nat :=
  ((s.targetsOf home pa).find? (fun t => !rights.all (s.admits t.1 sp pa))).map (fun t => t.2)

/-- R337, R372, R380, R430: the checks of a leaf. -/
def checkLeaf (s : State) (sp : Space) (va : Dword) (k : AccessKind) (w : Walked) : XRes :=
  let e := w.leaf
  let lvl := w.level
  let home := s.pteHome e
  let pa := ptePpn e * 4096 + va.toNat % 2 ^ (12 + 9 * lvl)
  if !s.peerPresent home then .bad (s.linkFault sp 16 (lineOfKey (memKey home pa)) 0x60)
  else if pteMode e = 0 ∧ !localHome home then .bad { cause := 0x27, rank := 17, val2 := 1 }
  else if pteDur e && !s.inDurableWindow home pa then .bad { cause := 0x27, rank := 17, val2 := 2 }
  else match rightsBad sp.kernel e k with
    | some (c, reason, wr) => .bad { cause := c, rank := 20 + (c - 0x21), val2 := walkRecord lvl reason k wr }
    | none => match s.refusedBy sp home pa (neededRights k) with
    | some pos => .bad { cause := 0x26, rank := 24, val2 := s.targetWord home pos }
    | none =>
      if !localHome home && (s.hub sp.masterHub).cut then
        .bad { cause := 0x63, rank := 28, val2 := (s.hub sp.masterHub).lclk }
      else
        let pol := if pteMode e = 1 ∨ (pteMode e = 3 ∧ !localHome home) then min (ptePol e) 1 else ptePol e
        .ok { key := memKey home pa, home := home, pol := pol, mode := pteMode e, dur := pteDur e, level := lvl,
              pte := e, pteKey := w.key, pointers := w.pointers }

/-- R377, R383: a cached leaf of the access's own space that may serve it: it covers the page, has not been replaced (log 11),
and would not need its dirty bit set. -/
def State.cached (s : State) (sp : Space) (va : Dword) (k : AccessKind) : Option TlbEntry :=
  match sp.tlb with
  | none => none
  | some u => (s.core u).tlb.find? (fun t =>
      t.asn == sp.asn && t.page == va.toNat >>> (12 + 9 * t.level) &&
      !Config.freeReplaced s.tick t.page && (decide (k = .read ∨ k = .fetch) || pteD t.pte))

/-- What a walk with a walker cache answers to an access. -/
def walkCheck (s : State) (sp : Space) (cache : List TlbEntry) (va : Dword) (k : AccessKind) : XRes :=
  match walk s sp cache va k with
  | .error f => .bad f
  | .ok w => checkLeaf s sp va k w

/-- Translates and checks one access. A cached entry never raises a fault: the access walks again, in memory alone (R383). -/
def translate (s : State) (sp : Space) (va : Dword) (k : AccessKind) : XRes :=
  let walked := walkCheck s sp [] va k
  let pointers := match sp.tlb with
    | none => []
    | some u => (s.core u).walker
  if !canonical va then walked
  else
    let short := match walkCheck s sp pointers va k with
      | .ok x => .ok x
      | .bad _ => walked
    match s.cached sp va k with
    | none => short
    | some t => match checkLeaf s sp va k { leaf := t.pte, level := t.level, key := t.pteAddress, pointers := [] } with
      | .ok x => .ok x
      | .bad _ => short

/-- R382: the accessed and dirty bits an access sets in its leaf. -/
def pteMarked (e : Dword) (k : AccessKind) : Dword :=
  if k = .write ∨ k = .rmw then e ||| 0xC0 else e ||| 0x40

/-- R382, R383: what a successful translation leaves: the leaf's A and D bits at its home, and the cached entries. -/
def State.touch (s : State) (sp : Space) (va : Dword) (k : AccessKind) (x : Xlat) : State :=
  let e := pteMarked x.pte k
  let s1 := if e = x.pte then s
    else if !localHome (keyHome x.pteKey) then
      s.newTxn (hubTeam sp.masterHub) 0 sp.masterHub (lineOfKey x.pteKey)
        (.rmw { key := x.pteKey, size := 8, lane := 0, op := 6, operand := toBytes 8 (e &&& 0xC0).toNat } (WriteHow.hub false))
    else
      let now := s.homeDword x.pteKey ||| (e &&& 0xC0)
      s.homeWrite x.pteKey (toBytes 8 now.toNat) { hubWriter sp.masterHub with rmw := true }
  match sp.tlb with
  | none => s1
  | some u =>
    let page := va.toNat >>> (12 + 9 * x.level)
    let t := { asn := sp.asn, page := page, level := x.level, pte := e, pteAddress := x.pteKey : TlbEntry }
    let held := x.pointers.map (fun p => { asn := sp.asn, page := va.toNat >>> (12 + 9 * p.1), level := p.1, pte := p.2.1,
                                           pteAddress := p.2.2 : TlbEntry })
    let same := fun (a b : TlbEntry) => a.asn == b.asn && a.page == b.page && a.level == b.level
    s1.modCore u (fun c => { c with
      tlb := t :: c.tlb.filter (fun y => !same y t)
      walker := held ++ c.walker.filter (fun y => !held.any (same y)) })

/-- A range of n bytes is checked page by page; the failure that comes first in rank answers, and of those the first in address order
(R372). -/
def translateRange (s : State) (sp : Space) (va : Dword) (n : Nat) (k : AccessKind) : Except (XFault × Dword) Unit :=
  let first := va.toNat / 4096
  let count := if n = 0 then 0 else (va.toNat % 4096 + n + 4095) / 4096
  let faults := (List.range count).filterMap (fun i =>
    let a := if i = 0 then va else BitVec.ofNat 64 ((first + i) * 4096)
    match translate s sp a k with
    | .ok _ => none
    | .bad f => some (f, a))
  match faults with
  | [] => .ok ()
  | e :: es => .error (es.foldl (fun (best : XFault × Dword) x => if x.1.rank < best.1.rank then x else best) e)

/-- The key of a byte of a range that has been checked. -/
def keyOf (s : State) (sp : Space) (va : Dword) (k : AccessKind) : Nat :=
  match translate s sp va k with
  | .ok x => x.key
  | .bad _ => 0

/-- R23: the effective policy of an access with a hint. -/
def effectivePolicy (pol hint : Nat) : Nat := if hint = 0 then pol else min pol (hint - 1)

/-! ## Requests to migrating pages -/

/-- R375: an event is queued, or dropped with EVST.LOST set when 64 are. -/
def Hub.queueEvent (x : Hub) (cause : Byte) (val val2 : Dword) : Hub :=
  if x.events.length < 64 then { x with events := x.events ++ [{ cause := cause, val := val, val2 := val2 }] }
  else { x with evtLost := true }

/-- R348: a request to a page of MODE migrate in another package is counted, and a count that reaches the threshold
writes a record and queues event 0x74 (R373). -/
def State.countMigration (s : State) (h : HubId) (asn : Half) (va : Dword) (x : Xlat) : State :=
  let hub := s.hub h
  if x.mode ≠ 3 ∨ localHome x.home ∨ hub.mgEn = false then s
  else
    let page := x.key / 4096
    let old := hub.migration.find? (fun m => m.page == page)
    let n := (old.map (fun m => m.count)).getD 0 + 1
    let rest := hub.migration.filter (fun m => m.page != page)
    let oldest := rest.foldl (fun (b : Option MigCounter) m => match b with
      | none => some m
      | some y => if m.last < y.last then some m else some y) none
    let kept := if 1024 ≤ rest.length then rest.filter (fun m => decide (some m ≠ oldest)) else rest
    let reached := decide (hub.mgThr.toNat ≤ n)
    let s1 := s.setHub h { hub with
      migration := { page := page, count := if reached then 0 else n, last := s.tick } :: kept }
    if !reached then s1
    else if (hub.mgTail - hub.mgHead).toNat = 2 ^ hub.mgLsz.toNat then s1.modHub h (fun y => { y with mgDrop := y.mgDrop + 1 })
    else
      let slot := hub.mgBase.toNat + 32 * (hub.mgTail.toNat % 2 ^ hub.mgLsz.toNat)
      let record := toBytes 8 va.toNat ++ toBytes 8 (keyAddress x.key / 4096 * 4096) ++ toBytes 2 asn.toNat ++
        [1, BitVec.ofNat 8 (hubNumber h)] ++ toBytes 4 n ++ toBytes 8 0
      (s1.homeWriteRange (memKey (peerOf h) slot) record (hubWriter h)).modHub h (fun y =>
        let z := { y with mgTail := y.mgTail + 1 }
        z.queueEvent 0x74 (z.mgTail.setWidth 64) 0)

end Sys2Proof.Machine
end

