-- ==== Sys2Proof/Machine/HubRegs.lean ====
section
/-! DEFINITION. The queue register space of a hub (R236): its registers as loads read them and stores write them. -/

namespace Sys2Proof.Machine

/-- Queue q of a hub, as after reset when it has never been used (R237, R238). -/
def Queue.fresh (q : Nat) : Queue :=
  { index := q, en := false, pri := 0, hcls := false, asn := 0, tenant := 0, root := 0, savb := 0, savs := 0, ktv := 0,
    retd := 0, nextSeq := 0, packets := [], window := [], status := 0, busy := false,
    patrolCount := 0 }

def Hub.queue (h : Hub) (q : Nat) : Queue := (h.queues.find? (fun x => x.index == q)).getD (Queue.fresh q)

def Hub.setQueue (h : Hub) (q : Queue) : Hub :=
  if h.queues.any (fun x => x.index == q.index) then
    { h with queues := updateWhere (fun x => x.index == q.index) (fun _ => q) h.queues }
  else { h with queues := h.queues ++ [q] }

def State.modQueue (s : State) (h : HubId) (q : Nat) (f : Queue → Queue) : State :=
  s.modHub h (fun x => x.setQueue (f (x.queue q)))

def State.modPacket (s : State) (h : HubId) (q seq : Nat) (f : Packet → Packet) : State :=
  s.modQueue h q (fun x => { x with packets := updateWhere (fun p => p.seq == seq) f x.packets })

/-- R408, R410: progress of a team of a queue, or a placement, or the rollback or resume of a team, clears the queue's patrol. -/
def State.queueProgress (s : State) (t : Team) : State :=
  match t.cls with
  | .boot => s
  | _ => s.modQueue t.hub t.queue (fun q => { q with patrolCount := 0 })

def Queue.packet? (q : Queue) (seq : Nat) : Option Packet := q.packets.find? (fun p => p.seq == seq)

/-- The address space of a queue, in which the hub reads and writes at kernel level (R38, R380, R449). -/
def queueSpace (h : HubId) (q : Queue) : Space :=
  { asn := q.asn, ptroot := q.root, hub := h, tenant := q.tenant, kernel := true, masterHub := h, pos := 15, tlb := none }

/-- A field of a dispatch packet (R181), little-endian. -/
def Packet.field (p : Packet) (offset size : Nat) : Nat := ofBytes ((p.raw.drop offset).take size)

/-- A field at a bit position of a register. -/
def at_ (lo v : Nat) : Nat := v * 2 ^ lo

/-- R236: the size of a queue register space. -/
def queueSpaceSize : Nat := 0x10000

/-- The hub and offset that a physical address has in a queue register space of this package. -/
def State.queueRegister (s : State) (k : Nat) : Option (HubId × Nat) :=
  let inside := fun (h : HubId) =>
    decide (memKey (peerOf h) (s.hub h).qrsBase ≤ k) && decide (k < memKey (peerOf h) (s.hub h).qrsBase + queueSpaceSize)
  if inside .h0 then some (.h0, k - memKey (peerOf .h0) (s.hub .h0).qrsBase)
  else if s.hubPresent .h1 && inside .h1 then some (.h1, k - memKey (peerOf .h1) (s.hub .h1).qrsBase)
  else none

/-- R131, R236: whether a target cannot perform atomics: a queue register space, a host page, or a chiplet's range whose table does not support them. -/
def State.noAtomics (s : State) (x : Xlat) : Bool :=
  (s.queueRegister x.key).isSome ||
  (let pa := keyAddress x.key
  let inside := fun (base size : Nat) => decide (base ≤ pa ∧ pa < base + size)
  localHome x.home && ((homeHub x.home == .h0 && inside s.flash.host.1 s.flash.host.2) ||
    (s.hub (homeHub x.home)).caps.any (fun c => inside c.base c.size && !c.atomics)))

/-- The packet of a queue that stands at its head: the oldest whose iterations are not all handed out (R235). -/
def Queue.head (q : Queue) : Option Packet := q.packets.find? (fun p => decide (p.life ≠ .running))

/-- R238: QSTAT. -/
def State.qstat (s : State) (h : HubId) (q : Queue) : Nat :=
  let teams := (s.teams.filter (fun t => decide (t.cls ≠ .boot) && decide (t.hub = h) && t.queue == q.index &&
    (match t.life with | .reserving _ => decide (t.source ≠ .launch) | _ => true))).length
  let is := fun (l : PacketLife) => if q.head.any (fun p => decide (p.life = l)) then 1 else 0
  q.packets.length % 32 + at_ 5 (is .waiting) + at_ 6 (is .placing) + at_ 16 (teams % 2048) + at_ 32 q.retd.toNat

/-- R237: QCFG. -/
def Queue.cfg (q : Queue) : Nat :=
  (if q.en then 1 else 0) + at_ 1 q.pri.toNat + (if q.hcls then 16 else 0) + at_ 16 q.asn.toNat + at_ 32 q.tenant.toNat

/-- R236: a register of a queue block. -/
def State.queueBlock (s : State) (h : HubId) (q : Queue) (off : Nat) : Nat :=
  match off with
  | 0x00 => q.cfg
  | 0x08 => q.root.toNat
  | 0x10 => q.savb.toNat
  | 0x18 => q.savs.toNat
  | 0x20 => s.qstat h q
  | 0x28 => q.ktv.toNat
  | _ => 0

/-- R425, R432: the state of a package in PSTAT, as its beats tell it; of this one, what its own beats would tell, which leave once a plane
is live (log 28). -/
def State.packageState (s : State) (n : Nat) : Nat :=
  if n = s.flash.package then if s.hub0.recovery then 2 else if s.hub0.plst = 0 ∧ s.hub1.plst = 0 then 0 else 1
  else match s.packages.find? (fun p => p.package == n) with
    | none => 0
    | some p => match p.state with
      | .absent => 0
      | .up => 1
      | .recovering => 2
      | .failed => 3

/-- R432: LNKST of a plane's port. -/
def Link.word (l : Link) : Nat := l.state.toNat + at_ 16 l.rekeys.toNat + at_ 48 (bits (maxTime l.counter l.received) 47 32)

/-- R349, R400, R409, R432, R438, R444, R238: a register above the queue blocks; an unlisted offset reads zero. -/
def State.hubRegister (s : State) (h : HubId) (off : Nat) : Nat :=
  let x := s.hub h
  let flag := fun (b : Bool) (n : Nat) => if b then 2 ^ n else 0
  match off with
  | 0x1000 => x.llen.toNat + flag x.fenced 16 + flag x.cut 17
  | 0x1008 => x.lref.toNat
  | 0x1010 => flag x.mgEn 0 + at_ 4 x.mgLsz.toNat + at_ 16 x.mgThr.toNat
  | 0x1018 => x.mgBase.toNat
  | 0x1020 => x.mgHead.toNat
  | 0x1028 => x.mgTail.toNat + at_ 32 x.mgDrop.toNat
  | 0x1030 => x.pbcap.toNat
  | 0x1038 => x.plra.toNat
  | 0x1100 => x.cecnt.toNat
  | 0x1108 => x.uecnt.toNat
  | 0x1110 => x.patg.toNat
  | 0x1118 => x.patc.toNat
  | 0x1120 => x.patq.toNat
  | 0x1140 => x.psavb.toNat
  | 0x1200 => x.fto.toNat + at_ 16 x.reclim.toNat + at_ 32 x.podref.toNat + flag x.refsrc 42
  | 0x1208 => x.plmap.toNat
  | 0x1210 => x.plst.toNat
  | 0x1408 => x.live.toNat + at_ 16 x.fit.toNat
  | 0x1410 => x.pwrLimit.toNat
  | 0x1418 => x.mhz.toNat + at_ 12 x.watts.toNat + at_ 28 x.sags.toNat
  | _ =>
    if 0x1240 ≤ off ∧ off < 0x1280 then ((s.port? ((off - 0x1240) / 8)).map Link.word).getD 0
    else if 0x1300 ≤ off ∧ off < 0x1400 then
      ((List.range 32).map (fun j => at_ (2 * j) (s.packageState (32 * ((off - 0x1300) / 8) + j)))).foldl (· + ·) 0
    else if 0x1500 ≤ off ∧ off < 0x1548 then
      ((x.chWatts.find? (fun c => c.1 == (off - 0x1500) / 8)).map (fun c => c.2.toNat)).getD 0
    else 0

/-- R236: an 8-byte load of the queue register space. -/
def State.readQueueSpace (s : State) (h : HubId) (off : Nat) : Dword :=
  if off < 0x1000 then BitVec.ofNat 64 (s.queueBlock h ((s.hub h).queue (off / 64)) (off % 64))
  else BitVec.ofNat 64 (s.hubRegister h off)

/-- A table's physical address: bits 50 to 12. -/
def tableBits (v : Dword) : Dword := BitVec.ofNat 64 (bits v 50 12 * 4096)

/-- R236, R237, R387: a write to a queue block. -/
def Queue.write (q : Queue) (off : Nat) (v : Dword) : Queue :=
  match off with
  | 0x00 =>
    let q1 := { q with en := v.getLsbD 0, pri := v.extractLsb' 1 3 }
    if q.en then q1
    else { q1 with hcls := v.getLsbD 4, asn := v.extractLsb' 16 16, tenant := v.extractLsb' 32 16 }
  | 0x08 => { q with root := tableBits v }
  | 0x10 => if q.en then q else { q with savb := v &&& ~~~0xFFF }
  | 0x18 => if q.en then q else { q with savs := v &&& ~~~0xFFF }
  | 0x28 => { q with ktv := v &&& ~~~0xFF }
  | _ => q

/-- R349: a write to MGCFG. -/
def Hub.writeMgcfg (x : Hub) (v : Dword) : Hub :=
  let lsz := bits v 7 4
  let thr : Half := v.extractLsb' 16 16
  let y := { x with mgEn := v.getLsbD 0 }
  if x.mgEn then y
  else { y with mgLsz := if 4 ≤ lsz ∧ lsz ≤ 12 then BitVec.ofNat 4 lsz else x.mgLsz
                mgThr := if thr = 0 then x.mgThr else thr }

/-- A write to a hub's own registers above the queue blocks; read-only and unlisted ones keep their values. -/
def Hub.writeRegister (x : Hub) (off : Nat) (v : Dword) : Hub :=
  match off with
  | 0x1000 => { x with llen := v.extractLsb' 0 16 }
  | 0x1010 => x.writeMgcfg v
  | 0x1018 => { x with mgBase := tableBits v }
  | 0x1020 => { x with mgHead := loWord v }
  | 0x1038 => { x with plra := tableBits v }
  | 0x1100 => { x with cecnt := x.cecnt &&& ~~~loWord v }
  | 0x1108 => { x with uecnt := x.uecnt &&& ~~~loWord v }
  | 0x1110 => { x with patg := loWord v }
  | 0x1118 => { x with patc := loWord v }
  | 0x1120 => { x with patq := loWord v }
  | 0x1140 => if bits v 15 0 = 0 then x else { x with psavb := v.extractLsb' 0 16 }
  | 0x1200 =>
    { x with fto := if 8 ≤ bits v 15 0 ∧ bits v 15 0 ≤ 4096 then v.extractLsb' 0 16 else x.fto
             reclim := if bits v 31 16 = 0 then x.reclim else v.extractLsb' 16 16 }
  | _ => x

/-- R444: a write to a hub's PWRCFG; a limit outside its range leaves the field unchanged. -/
def State.writePowerLimit (s : State) (h : HubId) (v : Dword) : State :=
  if 800 ≤ bits v 15 0 ∧ bits v 15 0 ≤ 3200 then s.modHub h (fun x => { x with pwrLimit := v.extractLsb' 0 16 }) else s

/-- R437, R438: a write to CHCTL from kernel level starts an isolation, or else an enumeration. -/
def State.writeChctl (s : State) (h : HubId) (kernel : Bool) (v : Dword) : State :=
  if !kernel then s
  else if v.getLsbD 4 then s.due (.chctlIso h (bits v 3 0))
  else if v.getLsbD 5 then
    if s.agenda.contains (.chctlIso h (bits v 3 0)) then s else s.due (.chctlRen h (bits v 3 0))
  else s

/-- R236: an 8-byte store to the queue register space. -/
def State.writeQueueSpace (s : State) (h : HubId) (kernel : Bool) (off : Nat) (v : Dword) : State :=
  if off < 0x1000 then s.modQueue h (off / 64) (fun q => q.write (off % 64) v)
  else if off = 0x1400 then s.writeChctl h kernel v
  else if off = 0x1410 then s.writePowerLimit h v
  else s.modHub h (fun x => x.writeRegister off v)

end Sys2Proof.Machine
end

