-- ==== Sys2Proof/Decode.lean ====
section
/-! DEFINITION. From bits to instructions and back: the main word (R10, R11, R25), the engine word (R26, R27).
Steps of the hardware have no words. A word that is no instruction is rejected by name. -/

namespace Sys2Proof

/-- Why bits are no instruction. -/
inductive Reject where
  /-- Fewer bytes than the instruction has. -/
  | truncated
  /-- L = 3 (R10). -/
  | illegalLength
  /-- An unassigned opcode (R25). -/
  | illegalInstruction
  /-- An M value that selects none of an opcode's instructions (R13). -/
  | reservedField
  /-- An engine illegal word (R27). -/
  | engineIllegal
deriving DecidableEq, Repr

/-- What the decoder answers. -/
inductive Decoded where
  | instr (i : Instr)
  | rejected (r : Reject)
deriving DecidableEq, Repr

/-- Eight bytes as a main word, the lowest address first (R11). -/
def dwordOfBytes (b0 b1 b2 b3 b4 b5 b6 b7 : Byte) : Dword := b7 ++ b6 ++ b5 ++ b4 ++ b3 ++ b2 ++ b1 ++ b0

/-- Four bytes as a literal word. -/
def wordOfBytes (b0 b1 b2 b3 : Byte) : Word := b3 ++ b2 ++ b1 ++ b0

/-- The bytes of a word, the lowest address first (R11). -/
def bytesOfWord (w : Word) : List Byte :=
  [w.extractLsb' 0 8, w.extractLsb' 8 8, w.extractLsb' 16 8, w.extractLsb' 24 8]

/-- The bytes of a double word, the lowest address first. -/
def bytesOfDword (w : Dword) : List Byte :=
  [w.extractLsb' 0 8, w.extractLsb' 8 8, w.extractLsb' 16 8, w.extractLsb' 24 8,
   w.extractLsb' 32 8, w.extractLsb' 40 8, w.extractLsb' 48 8, w.extractLsb' 56 8]

/-- R10: the fields of a main word, with its literal words. -/
def fieldsOf (x : Dword) (l : Lits) : MainWord :=
  { lits := l, neg := x.getLsbD 15, pred := x.extractLsb' 12 3, d := x.extractLsb' 16 8, a := x.extractLsb' 24 8,
    b := x.extractLsb' 32 8, c := x.extractLsb' 40 8, m := x.extractLsb' 48 4, x := x.extractLsb' 52 12 }

/-- The literal words that a main word's L field takes from the bytes after it (R10, R11). -/
def litsOf (n : Nat) (bs : List Byte) : Option Lits :=
  match n, bs with
  | 0, _ => some .none
  | 1, b0 :: b1 :: b2 :: b3 :: _ => some (.one (wordOfBytes b0 b1 b2 b3))
  | 2, b0 :: b1 :: b2 :: b3 :: b4 :: b5 :: b6 :: b7 :: _ =>
    some (.two (wordOfBytes b0 b1 b2 b3) (wordOfBytes b4 b5 b6 b7))
  | _, _ => Option.none

/-- R54: PMOV by M. -/
def pmovOf (w : MainWord) : Decoded :=
  match w.m.toNat with
  | 0 => .instr (.pmovFromPred w)
  | 1 => .instr (.pmovToPred w)
  | 2 => .instr (.pmovGet w)
  | 3 => .instr (.pmovSet w)
  | _ => .rejected .reservedField

/-- R126: PUBL by M. -/
def publOf (w : MainWord) : Decoded :=
  match w.m.toNat with
  | 0 => .instr (.publDecl w)
  | 1 => .instr (.publSwap w)
  | 2 => .instr (.publFree w)
  | _ => .rejected .reservedField

/-- R183: ENGS by M. -/
def engsOf (w : MainWord) : Decoded :=
  match w.m.toNat with
  | 0 => .instr (.engsGo w)
  | 1 => .instr (.engsSt w)
  | 2 => .instr (.engsCmd w)
  | 3 => .instr (.engsSig w)
  | _ => .rejected .reservedField

/-- R186: SAVEV by M. -/
def savevOf (w : MainWord) : Decoded :=
  match w.m.toNat with
  | 0 => .instr (.savev w)
  | 1 => .instr (.savev w)
  | 2 => .instr (.savev w)
  | 3 => .instr (.savevState w)
  | _ => .rejected .reservedField

/-- R186: RESTV by M. -/
def restvOf (w : MainWord) : Decoded :=
  match w.m.toNat with
  | 0 => .instr (.restv w)
  | 1 => .instr (.restv w)
  | 2 => .instr (.restv w)
  | 3 => .instr (.restvState w)
  | _ => .rejected .reservedField

/-- R192: HCHK by M. -/
def hchkOf (w : MainWord) : Decoded :=
  match w.m.toNat with
  | 0 => .instr (.hchkLost w)
  | 1 => .instr (.hchkLostc w)
  | 2 => .instr (.hchkRevs w)
  | _ => .rejected .reservedField

/-- R189: HOLD by M[0]. -/
def holdOf (w : MainWord) : Decoded := if w.m.toNat % 2 = 0 then .instr (.holdArm w) else .instr (.holdOff w)

/-- R191: HARV by M[0]. -/
def harvOf (w : MainWord) : Decoded := if w.m.toNat % 2 = 0 then .instr (.harvOn w) else .instr (.harvOff w)

/-- R25: the instruction of an opcode; where an opcode holds several, M chooses (R54, R126, R183, R186, R189, R191,
R192). -/
def ofOpcode (op : Nat) (w : MainWord) : Decoded :=
  match op with
  | 0x001 => .instr (.iadd w)
  | 0x002 => .instr (.isub w)
  | 0x003 => .instr (.imul w)
  | 0x004 => .instr (.imulh w)
  | 0x005 => .instr (.imad w)
  | 0x006 => .instr (.idiv w)
  | 0x007 => .instr (.irem w)
  | 0x008 => .instr (.imin w)
  | 0x009 => .instr (.imax w)
  | 0x00A => .instr (.iabs w)
  | 0x010 => .instr (.and w)
  | 0x011 => .instr (.or w)
  | 0x012 => .instr (.xor w)
  | 0x013 => .instr (.andn w)
  | 0x014 => .instr (.bmix w)
  | 0x015 => .instr (.shl w)
  | 0x016 => .instr (.shr w)
  | 0x017 => .instr (.sar w)
  | 0x018 => .instr (.rotl w)
  | 0x019 => .instr (.popc w)
  | 0x01A => .instr (.clz w)
  | 0x01B => .instr (.ctz w)
  | 0x01C => .instr (.brev w)
  | 0x01D => .instr (.bfx w)
  | 0x01E => .instr (.bfi w)
  | 0x020 => .instr (.icmp w)
  | 0x021 => .instr (.plog w)
  | 0x022 => .instr (.sel w)
  | 0x023 => .instr (.mov w)
  | 0x024 => pmovOf w
  | 0x025 => .instr (.lea w)
  | 0x080 => .instr (.fadd w)
  | 0x081 => .instr (.fsub w)
  | 0x082 => .instr (.fmul w)
  | 0x083 => .instr (.ffma w)
  | 0x084 => .instr (.fmin w)
  | 0x085 => .instr (.fmax w)
  | 0x086 => .instr (.fabs w)
  | 0x087 => .instr (.fneg w)
  | 0x088 => .instr (.fdiv w)
  | 0x089 => .instr (.fsqrt w)
  | 0x08A => .instr (.fcmp w)
  | 0x08B => .instr (.fclass w)
  | 0x08C => .instr (.fdot2 w)
  | 0x08D => .instr (.fdot4 w)
  | 0x100 => .instr (.cvt w)
  | 0x101 => .instr (.cvts w)
  | 0x102 => .instr (.frnd w)
  | 0x110 => .instr (.frcp w)
  | 0x111 => .instr (.frsq w)
  | 0x112 => .instr (.fexp2 w)
  | 0x113 => .instr (.flog2 w)
  | 0x114 => .instr (.fsin w)
  | 0x115 => .instr (.fcos w)
  | 0x116 => .instr (.ftanh w)
  | 0x120 => .instr (.qscl w)
  | 0x121 => .instr (.qpack w)
  | 0x122 => .instr (.qunpk w)
  | 0x123 => .instr (.shape w)
  | 0x180 => .instr (.prdx w)
  | 0x181 => .instr (.ballot w)
  | 0x182 => .instr (.lxch w)
  | 0x183 => .instr (.lxop w)
  | 0x184 => .instr (.scan w)
  | 0x185 => .instr (.part w)
  | 0x186 => .instr (.reord w)
  | 0x200 => .instr (.tmma w)
  | 0x201 => .instr (.tzero w)
  | 0x202 => .instr (.tld w)
  | 0x203 => .instr (.tdrn w)
  | 0x204 => .instr (.tredr w)
  | 0x205 => .instr (.tredc w)
  | 0x206 => .instr (.tbcr w)
  | 0x207 => .instr (.tbcc w)
  | 0x208 => .instr (.trot w)
  | 0x209 => .instr (.tew w)
  | 0x20A => .instr (.tget w)
  | 0x20B => .instr (.tset w)
  | 0x280 => .instr (.ld w)
  | 0x281 => .instr (.st w)
  | 0x282 => .instr (.pref w)
  | 0x283 => .instr (.wb w)
  | 0x284 => .instr (.inv w)
  | 0x285 => .instr (.iinv w)
  | 0x286 => .instr (.ifence w)
  | 0x290 => .instr (.lds w)
  | 0x291 => .instr (.sts w)
  | 0x292 => .instr (.ldk w)
  | 0x293 => .instr (.cpy w)
  | 0x294 => .instr (.cpyw w)
  | 0x295 => publOf w
  | 0x300 => .instr (.atom w)
  | 0x301 => .instr (.cas w)
  | 0x302 => .instr (.ldr w)
  | 0x303 => .instr (.stc w)
  | 0x304 => .instr (.fence w)
  | 0x305 => .instr (.persist w)
  | 0x310 => .instr (.bari w)
  | 0x311 => .instr (.bara w)
  | 0x312 => .instr (.barw w)
  | 0x313 => .instr (.bars w)
  | 0x314 => .instr (.barq w)
  | 0x340 => .instr (.nop w)
  | 0x341 => .instr (.bra w)
  | 0x342 => .instr (.brx w)
  | 0x343 => .instr (.call w)
  | 0x344 => .instr (.callx w)
  | 0x345 => .instr (.ret w)
  | 0x346 => .instr (.exit w)
  | 0x347 => .instr (.yield w)
  | 0x348 => .instr (.loop w)
  | 0x380 => .instr (.trap w)
  | 0x381 => .instr (.sysc w)
  | 0x382 => .instr (.eret w)
  | 0x383 => .instr (.mfcr w)
  | 0x384 => .instr (.mtcr w)
  | 0x385 => .instr (.tlbi w)
  | 0x386 => .instr (.waite w)
  | 0x387 => .instr (.lnch w)
  | 0x388 => engsOf w
  | 0x389 => .instr (.engr w)
  | 0x38A => savevOf w
  | 0x38B => restvOf w
  | 0x38C => .instr (.name w)
  | 0x38D => holdOf w
  | 0x38E => .instr (.rstv w)
  | 0x38F => harvOf w
  | 0x390 => hchkOf w
  | _ => .rejected .illegalInstruction

/-- R10, R11: decodes a main word and its literal words from the bytes at its address. -/
def decodeMain (bs : List Byte) : Decoded :=
  match bs with
  | b0 :: b1 :: b2 :: b3 :: b4 :: b5 :: b6 :: b7 :: rest =>
    let x := dwordOfBytes b0 b1 b2 b3 b4 b5 b6 b7
    let n := (x.extractLsb' 0 2).toNat
    if n = 3 then .rejected .illegalLength
    else match litsOf n rest with
      | some l => ofOpcode (x.extractLsb' 2 10).toNat (fieldsOf x l)
      | Option.none => .rejected .truncated
  | _ => .rejected .truncated

/-- A loop register index; 3 is illegal (R27). -/
def loopRegOf (n : Nat) (f : Fin 3 → Instr) : Decoded :=
  match n with
  | 0 => .instr (f 0)
  | 1 => .instr (f 1)
  | 2 => .instr (f 2)
  | _ => .rejected .engineIllegal

/-- A token queue; 0 is illegal in the token class (R27). -/
def tokenOf (n : Nat) (f : BitVec 4 → Instr) : Decoded :=
  if n = 0 ∨ 16 ≤ n then .rejected .engineIllegal else .instr (f (BitVec.ofNat 4 n))

/-- R27: the launch operations of each engine. -/
def launchOf (k : EngineKind) (operation : Nat) (pop push : BitVec 4) : Decoded :=
  match k, operation with
  | .access, 0 => .instr (.cpyin pop push)
  | .access, 1 => .instr (.cpyout pop push)
  | .access, 2 => .instr (.gath pop push)
  | .access, 3 => .instr (.scat pop push)
  | .access, 4 => .instr (.mdfil pop push)
  | .array, 0 => .instr (.wpre pop push)
  | .array, 1 => .instr (.wswp pop push)
  | .array, 2 => .instr (.strm pop push)
  | .array, 3 => .instr (.strms pop push)
  | .drain, 0 => .instr (.drn pop push)
  | .drain, 1 => .instr (.dclr pop push)
  | .kiln, 0 => .instr (.kscl pop push)
  | .kiln, 1 => .instr (.kpack pop push)
  | .kiln, 2 => .instr (.kunpk pop push)
  | _, _ => .rejected .engineIllegal

/-- R26, R27: decodes an engine word for the engine that meets it. -/
def decodeEngine (k : EngineKind) (w : Half) : Decoded :=
  let operation := (w.extractLsb' 8 5).toNat
  let operand := (w.extractLsb' 0 8).toNat
  let plain := fun i : Instr => if operand = 0 then Decoded.instr i else .rejected .engineIllegal
  match (w.extractLsb' 13 3).toNat with
  | 0 => .instr (.push (w.extractLsb' 0 13))
  | 1 => .instr (.ext (w.extractLsb' 0 13))
  | 2 => match operation with
    | 0 => plain .dup
    | 1 => plain .drop
    | 2 => plain .swap
    | 3 => plain .over
    | 4 => plain .add
    | 5 => plain .sub
    | 6 => plain .mul
    | 7 => plain .engAnd
    | 8 => plain .engOr
    | 9 => plain .engXor
    | 10 => plain .engShl
    | 11 => plain .engShr
    | 12 => loopRegOf operand .getl
    | 13 => loopRegOf operand .setl
    | _ => .rejected .engineIllegal
  | 3 => match operation with
    | 0 => loopRegOf operand .engLoop
    | 1 => loopRegOf operand .endl
    | 2 => plain .jmp
    | 3 => plain .jz
    | 4 => plain .halt
    | 5 => plain .waitc
    | 6 => plain .sigc
    | _ => .rejected .engineIllegal
  | 4 => match operation with
    | 0 => tokenOf operand .tkpop
    | 1 => tokenOf operand .tkpsh
    | 2 => tokenOf operand .tktst
    | _ => .rejected .engineIllegal
  | 5 => launchOf k operation (w.extractLsb' 4 4) (w.extractLsb' 0 4)
  | 6 =>
    if k = .access ∧ operand = 0 then
      match (w.extractLsb' 11 2).toNat with
      | 0 => .instr (.agset (w.extractLsb' 8 3))
      | 1 => .instr (.agstr (w.extractLsb' 8 3))
      | 2 => .instr (.agwrap (w.extractLsb' 8 3))
      | _ => .instr (.agrd (w.extractLsb' 8 3))
    else .rejected .engineIllegal
  | _ => .rejected .engineIllegal

/-- Decodes an engine word from the bytes that hold it, the low byte first (R26). -/
def decodeEngineBytes (k : EngineKind) (bs : List Byte) : Decoded :=
  match bs with
  | b0 :: b1 :: _ => decodeEngine k (b1 ++ b0)
  | _ => .rejected .truncated

/-! ## Encoding -/

/-- The number of literal words (R10). -/
def Lits.count : Lits → Nat
  | .none => 0
  | .one _ => 1
  | .two _ _ => 2

/-- R10: a main word from its opcode and fields. -/
def mainBits (op : BitVec 10) (w : MainWord) : Dword :=
  w.x ++ w.m ++ w.c ++ w.b ++ w.a ++ w.d ++ BitVec.ofBool w.neg ++ w.pred ++ op ++ BitVec.ofNat 2 w.lits.count

/-- The bytes of literal words. -/
def litBytes : Lits → List Byte
  | .none => []
  | .one w0 => bytesOfWord w0
  | .two w0 w1 => bytesOfWord w0 ++ bytesOfWord w1

/-- R25: the opcode and fields of a main-word instruction; none for the others. -/
def mainOf (i : Instr) : Option (BitVec 10 × MainWord) :=
  match i with
  | .iadd w => some (0x001, w)
  | .isub w => some (0x002, w)
  | .imul w => some (0x003, w)
  | .imulh w => some (0x004, w)
  | .imad w => some (0x005, w)
  | .idiv w => some (0x006, w)
  | .irem w => some (0x007, w)
  | .imin w => some (0x008, w)
  | .imax w => some (0x009, w)
  | .iabs w => some (0x00A, w)
  | .and w => some (0x010, w)
  | .or w => some (0x011, w)
  | .xor w => some (0x012, w)
  | .andn w => some (0x013, w)
  | .bmix w => some (0x014, w)
  | .shl w => some (0x015, w)
  | .shr w => some (0x016, w)
  | .sar w => some (0x017, w)
  | .rotl w => some (0x018, w)
  | .popc w => some (0x019, w)
  | .clz w => some (0x01A, w)
  | .ctz w => some (0x01B, w)
  | .brev w => some (0x01C, w)
  | .bfx w => some (0x01D, w)
  | .bfi w => some (0x01E, w)
  | .icmp w => some (0x020, w)
  | .plog w => some (0x021, w)
  | .sel w => some (0x022, w)
  | .mov w => some (0x023, w)
  | .pmovFromPred w => some (0x024, w)
  | .pmovToPred w => some (0x024, w)
  | .pmovGet w => some (0x024, w)
  | .pmovSet w => some (0x024, w)
  | .lea w => some (0x025, w)
  | .fadd w => some (0x080, w)
  | .fsub w => some (0x081, w)
  | .fmul w => some (0x082, w)
  | .ffma w => some (0x083, w)
  | .fmin w => some (0x084, w)
  | .fmax w => some (0x085, w)
  | .fabs w => some (0x086, w)
  | .fneg w => some (0x087, w)
  | .fdiv w => some (0x088, w)
  | .fsqrt w => some (0x089, w)
  | .fcmp w => some (0x08A, w)
  | .fclass w => some (0x08B, w)
  | .fdot2 w => some (0x08C, w)
  | .fdot4 w => some (0x08D, w)
  | .cvt w => some (0x100, w)
  | .cvts w => some (0x101, w)
  | .frnd w => some (0x102, w)
  | .frcp w => some (0x110, w)
  | .frsq w => some (0x111, w)
  | .fexp2 w => some (0x112, w)
  | .flog2 w => some (0x113, w)
  | .fsin w => some (0x114, w)
  | .fcos w => some (0x115, w)
  | .ftanh w => some (0x116, w)
  | .qscl w => some (0x120, w)
  | .qpack w => some (0x121, w)
  | .qunpk w => some (0x122, w)
  | .shape w => some (0x123, w)
  | .prdx w => some (0x180, w)
  | .ballot w => some (0x181, w)
  | .lxch w => some (0x182, w)
  | .lxop w => some (0x183, w)
  | .scan w => some (0x184, w)
  | .part w => some (0x185, w)
  | .reord w => some (0x186, w)
  | .tmma w => some (0x200, w)
  | .tzero w => some (0x201, w)
  | .tld w => some (0x202, w)
  | .tdrn w => some (0x203, w)
  | .tredr w => some (0x204, w)
  | .tredc w => some (0x205, w)
  | .tbcr w => some (0x206, w)
  | .tbcc w => some (0x207, w)
  | .trot w => some (0x208, w)
  | .tew w => some (0x209, w)
  | .tget w => some (0x20A, w)
  | .tset w => some (0x20B, w)
  | .ld w => some (0x280, w)
  | .st w => some (0x281, w)
  | .pref w => some (0x282, w)
  | .wb w => some (0x283, w)
  | .inv w => some (0x284, w)
  | .iinv w => some (0x285, w)
  | .ifence w => some (0x286, w)
  | .lds w => some (0x290, w)
  | .sts w => some (0x291, w)
  | .ldk w => some (0x292, w)
  | .cpy w => some (0x293, w)
  | .cpyw w => some (0x294, w)
  | .publDecl w => some (0x295, w)
  | .publSwap w => some (0x295, w)
  | .publFree w => some (0x295, w)
  | .atom w => some (0x300, w)
  | .cas w => some (0x301, w)
  | .ldr w => some (0x302, w)
  | .stc w => some (0x303, w)
  | .fence w => some (0x304, w)
  | .persist w => some (0x305, w)
  | .bari w => some (0x310, w)
  | .bara w => some (0x311, w)
  | .barw w => some (0x312, w)
  | .bars w => some (0x313, w)
  | .barq w => some (0x314, w)
  | .nop w => some (0x340, w)
  | .bra w => some (0x341, w)
  | .brx w => some (0x342, w)
  | .call w => some (0x343, w)
  | .callx w => some (0x344, w)
  | .ret w => some (0x345, w)
  | .exit w => some (0x346, w)
  | .yield w => some (0x347, w)
  | .loop w => some (0x348, w)
  | .trap w => some (0x380, w)
  | .sysc w => some (0x381, w)
  | .eret w => some (0x382, w)
  | .mfcr w => some (0x383, w)
  | .mtcr w => some (0x384, w)
  | .tlbi w => some (0x385, w)
  | .waite w => some (0x386, w)
  | .lnch w => some (0x387, w)
  | .engsGo w => some (0x388, w)
  | .engsSt w => some (0x388, w)
  | .engsCmd w => some (0x388, w)
  | .engsSig w => some (0x388, w)
  | .engr w => some (0x389, w)
  | .savev w => some (0x38A, w)
  | .savevState w => some (0x38A, w)
  | .restv w => some (0x38B, w)
  | .restvState w => some (0x38B, w)
  | .name w => some (0x38C, w)
  | .holdArm w => some (0x38D, w)
  | .holdOff w => some (0x38D, w)
  | .rstv w => some (0x38E, w)
  | .harvOn w => some (0x38F, w)
  | .harvOff w => some (0x38F, w)
  | .hchkLost w => some (0x390, w)
  | .hchkLostc w => some (0x390, w)
  | .hchkRevs w => some (0x390, w)
  | .push _ => Option.none
  | .ext _ => Option.none
  | .getl _ => Option.none
  | .setl _ => Option.none
  | .engLoop _ => Option.none
  | .endl _ => Option.none
  | .tkpop _ => Option.none
  | .tkpsh _ => Option.none
  | .tktst _ => Option.none
  | .cpyin _ _ => Option.none
  | .cpyout _ _ => Option.none
  | .gath _ _ => Option.none
  | .scat _ _ => Option.none
  | .mdfil _ _ => Option.none
  | .wpre _ _ => Option.none
  | .wswp _ _ => Option.none
  | .strm _ _ => Option.none
  | .strms _ _ => Option.none
  | .drn _ _ => Option.none
  | .dclr _ _ => Option.none
  | .kscl _ _ => Option.none
  | .kpack _ _ => Option.none
  | .kunpk _ _ => Option.none
  | .agset _ => Option.none
  | .agstr _ => Option.none
  | .agwrap _ => Option.none
  | .agrd _ => Option.none
  | .dup => Option.none
  | .drop => Option.none
  | .swap => Option.none
  | .over => Option.none
  | .add => Option.none
  | .sub => Option.none
  | .mul => Option.none
  | .engAnd => Option.none
  | .engOr => Option.none
  | .engXor => Option.none
  | .engShl => Option.none
  | .engShr => Option.none
  | .jmp => Option.none
  | .jz => Option.none
  | .halt => Option.none
  | .waitc => Option.none
  | .sigc => Option.none
  | .codeLineFill _ _ _ => Option.none
  | .groupSlotFree _ _ => Option.none
  | .completionRecordFault _ _ _ _ => Option.none
  | .bundleValidation _ _ => Option.none
  | .dependenceSignalRead _ _ _ => Option.none
  | .placementConsideration _ => Option.none
  | .coreReservation _ => Option.none
  | .rangeClearDone _ => Option.none
  | .withdrawal _ => Option.none
  | .preemption _ _ => Option.none
  | .saveBudgetExpiry _ _ => Option.none
  | .teamSaveComplete _ => Option.none
  | .revocationComplete _ => Option.none
  | .harvestRevoke _ _ => Option.none
  | .entryWake _ _ => Option.none
  | .waiteRecheck _ _ => Option.none
  | .reservationExpiry _ _ => Option.none
  | .storeCombiningDrain _ _ => Option.none
  | .plainRead _ => Option.none
  | .leasedRead _ => Option.none
  | .homeWrite _ => Option.none
  | .refUpdate _ _ => Option.none
  | .guardAnswer _ => Option.none
  | .leaseFenceTimeout _ => Option.none
  | .leaseCut _ => Option.none
  | .releasePublished _ _ => Option.none
  | .persistBufferDrain _ _ => Option.none
  | .pageRequest _ => Option.none
  | .prqcResume _ _ => Option.none
  | .prqcDecline _ _ => Option.none
  | .cres _ => Option.none
  | .bankFormatWrite _ _ _ => Option.none
  | .chctlIso _ _ => Option.none
  | .chctlRen _ _ => Option.none
  | .registerWrite _ _ _ => Option.none
  | .enumerationComplete _ _ _ => Option.none
  | .eventDelivery _ => Option.none
  | .copyLineLanded _ _ => Option.none
  | .copyCompletion _ _ => Option.none
  | .copyTranslationFault _ _ => Option.none
  | .copyWriteFailure _ _ => Option.none
  | .engineOpStart _ _ => Option.none
  | .engineOpFinish _ _ => Option.none
  | .engineTranslationFault _ => Option.none
  | .enginePoisonAtStore _ => Option.none
  | .engineStop _ _ => Option.none
  | .engineFaultReport _ => Option.none
  | .clusterFreezeDone _ => Option.none
  | .groupPatrolExpiry _ _ => Option.none
  | .clusterPatrolExpiry _ => Option.none
  | .queuePatrolExpiry _ _ => Option.none
  | .mailArrival _ => Option.none
  | .mailForward _ => Option.none
  | .mailAck _ => Option.none
  | .mailUndeliverable _ _ => Option.none
  | .planeRemap _ _ => Option.none
  | .transactionTimeout _ => Option.none
  | .membershipTimeout _ => Option.none
  | .recoveryLimit _ => Option.none
  | .transactionResponse _ => Option.none
  | .invalidationAcknowledgement _ _ _ => Option.none
  | .teamRestoreComplete _ => Option.none
  | .rollbackComplete _ => Option.none
  | .engineIllegalWord => Option.none
  | .branchIntoLiteral => Option.none
  | .refBroadcast => Option.none
  | .powerLoss => Option.none
  | .bridgeFailure => Option.none
  | .membershipBeat => Option.none
  | .powerOnReset => Option.none
  | .doorbell _ _ => Option.none
  | .peerRead _ _ _ => Option.none
  | .readExclusive _ _ _ => Option.none
  | .upgrade _ _ _ => Option.none
  | .writeBack _ _ _ => Option.none
  | .ioCoherentRead _ _ => Option.none
  | .ioCoherentWrite _ _ _ => Option.none
  | .chipletFatalError _ _ => Option.none
  | .ucieLinkFailure _ _ => Option.none
  | .engineWriteRefused _ _ => Option.none
  | .correctedError _ => Option.none
  | .uncorrectableError _ => Option.none
  | .linkTimeout _ _ => Option.none
  | .planeUp _ _ => Option.none
  | .switchTimeout _ _ _ => Option.none
  | .beatReceived _ _ => Option.none
  | .packageRejoin _ => Option.none
  | .frameAuthFailure _ _ => Option.none
  | .rekeyStart _ _ => Option.none
  | .rekeyComplete _ _ => Option.none
  | .portStop _ _ => Option.none
  | .accessTableWrite _ _ _ => Option.none
  | .hostAccess _ _ _ _ => Option.none
  | .supplySag _ _ => Option.none
  | .sagRecovery _ _ => Option.none
  | .powerLimitStep _ => Option.none
  | .energyStoreDecline _ _ => Option.none

/-- R27: the word of an engine instruction; none for the others. -/
def engineWordOf (i : Instr) : Option Half :=
  match i with
  | .push lit => some (BitVec.ofNat 3 0 ++ lit)
  | .ext lit => some (BitVec.ofNat 3 1 ++ lit)
  | .getl reg => some (BitVec.ofNat 8 0x4C ++ BitVec.ofNat 8 reg.val)
  | .setl reg => some (BitVec.ofNat 8 0x4D ++ BitVec.ofNat 8 reg.val)
  | .engLoop reg => some (BitVec.ofNat 8 0x60 ++ BitVec.ofNat 8 reg.val)
  | .endl reg => some (BitVec.ofNat 8 0x61 ++ BitVec.ofNat 8 reg.val)
  | .tkpop queue => some (BitVec.ofNat 12 0x800 ++ queue)
  | .tkpsh queue => some (BitVec.ofNat 12 0x810 ++ queue)
  | .tktst queue => some (BitVec.ofNat 12 0x820 ++ queue)
  | .cpyin pop push => some (BitVec.ofNat 8 0xA0 ++ pop ++ push)
  | .cpyout pop push => some (BitVec.ofNat 8 0xA1 ++ pop ++ push)
  | .gath pop push => some (BitVec.ofNat 8 0xA2 ++ pop ++ push)
  | .scat pop push => some (BitVec.ofNat 8 0xA3 ++ pop ++ push)
  | .mdfil pop push => some (BitVec.ofNat 8 0xA4 ++ pop ++ push)
  | .wpre pop push => some (BitVec.ofNat 8 0xA0 ++ pop ++ push)
  | .wswp pop push => some (BitVec.ofNat 8 0xA1 ++ pop ++ push)
  | .strm pop push => some (BitVec.ofNat 8 0xA2 ++ pop ++ push)
  | .strms pop push => some (BitVec.ofNat 8 0xA3 ++ pop ++ push)
  | .drn pop push => some (BitVec.ofNat 8 0xA0 ++ pop ++ push)
  | .dclr pop push => some (BitVec.ofNat 8 0xA1 ++ pop ++ push)
  | .kscl pop push => some (BitVec.ofNat 8 0xA0 ++ pop ++ push)
  | .kpack pop push => some (BitVec.ofNat 8 0xA1 ++ pop ++ push)
  | .kunpk pop push => some (BitVec.ofNat 8 0xA2 ++ pop ++ push)
  | .agset gen => some (BitVec.ofNat 5 0x18 ++ gen ++ BitVec.ofNat 8 0)
  | .agstr gen => some (BitVec.ofNat 5 0x19 ++ gen ++ BitVec.ofNat 8 0)
  | .agwrap gen => some (BitVec.ofNat 5 0x1A ++ gen ++ BitVec.ofNat 8 0)
  | .agrd gen => some (BitVec.ofNat 5 0x1B ++ gen ++ BitVec.ofNat 8 0)
  | .dup => some 0x4000
  | .drop => some 0x4100
  | .swap => some 0x4200
  | .over => some 0x4300
  | .add => some 0x4400
  | .sub => some 0x4500
  | .mul => some 0x4600
  | .engAnd => some 0x4700
  | .engOr => some 0x4800
  | .engXor => some 0x4900
  | .engShl => some 0x4A00
  | .engShr => some 0x4B00
  | .jmp => some 0x6200
  | .jz => some 0x6300
  | .halt => some 0x6400
  | .waitc => some 0x6500
  | .sigc => some 0x6600
  | .iadd _ => Option.none
  | .isub _ => Option.none
  | .imul _ => Option.none
  | .imulh _ => Option.none
  | .imad _ => Option.none
  | .idiv _ => Option.none
  | .irem _ => Option.none
  | .imin _ => Option.none
  | .imax _ => Option.none
  | .iabs _ => Option.none
  | .and _ => Option.none
  | .or _ => Option.none
  | .xor _ => Option.none
  | .andn _ => Option.none
  | .bmix _ => Option.none
  | .shl _ => Option.none
  | .shr _ => Option.none
  | .sar _ => Option.none
  | .rotl _ => Option.none
  | .popc _ => Option.none
  | .clz _ => Option.none
  | .ctz _ => Option.none
  | .brev _ => Option.none
  | .bfx _ => Option.none
  | .bfi _ => Option.none
  | .icmp _ => Option.none
  | .plog _ => Option.none
  | .sel _ => Option.none
  | .mov _ => Option.none
  | .pmovFromPred _ => Option.none
  | .pmovToPred _ => Option.none
  | .pmovGet _ => Option.none
  | .pmovSet _ => Option.none
  | .lea _ => Option.none
  | .fadd _ => Option.none
  | .fsub _ => Option.none
  | .fmul _ => Option.none
  | .ffma _ => Option.none
  | .fmin _ => Option.none
  | .fmax _ => Option.none
  | .fabs _ => Option.none
  | .fneg _ => Option.none
  | .fdiv _ => Option.none
  | .fsqrt _ => Option.none
  | .fcmp _ => Option.none
  | .fclass _ => Option.none
  | .fdot2 _ => Option.none
  | .fdot4 _ => Option.none
  | .cvt _ => Option.none
  | .cvts _ => Option.none
  | .frnd _ => Option.none
  | .frcp _ => Option.none
  | .frsq _ => Option.none
  | .fexp2 _ => Option.none
  | .flog2 _ => Option.none
  | .fsin _ => Option.none
  | .fcos _ => Option.none
  | .ftanh _ => Option.none
  | .qscl _ => Option.none
  | .qpack _ => Option.none
  | .qunpk _ => Option.none
  | .shape _ => Option.none
  | .prdx _ => Option.none
  | .ballot _ => Option.none
  | .lxch _ => Option.none
  | .lxop _ => Option.none
  | .scan _ => Option.none
  | .part _ => Option.none
  | .reord _ => Option.none
  | .tmma _ => Option.none
  | .tzero _ => Option.none
  | .tld _ => Option.none
  | .tdrn _ => Option.none
  | .tredr _ => Option.none
  | .tredc _ => Option.none
  | .tbcr _ => Option.none
  | .tbcc _ => Option.none
  | .trot _ => Option.none
  | .tew _ => Option.none
  | .tget _ => Option.none
  | .tset _ => Option.none
  | .ld _ => Option.none
  | .st _ => Option.none
  | .pref _ => Option.none
  | .wb _ => Option.none
  | .inv _ => Option.none
  | .iinv _ => Option.none
  | .ifence _ => Option.none
  | .lds _ => Option.none
  | .sts _ => Option.none
  | .ldk _ => Option.none
  | .cpy _ => Option.none
  | .cpyw _ => Option.none
  | .publDecl _ => Option.none
  | .publSwap _ => Option.none
  | .publFree _ => Option.none
  | .atom _ => Option.none
  | .cas _ => Option.none
  | .ldr _ => Option.none
  | .stc _ => Option.none
  | .fence _ => Option.none
  | .persist _ => Option.none
  | .bari _ => Option.none
  | .bara _ => Option.none
  | .barw _ => Option.none
  | .bars _ => Option.none
  | .barq _ => Option.none
  | .nop _ => Option.none
  | .bra _ => Option.none
  | .brx _ => Option.none
  | .call _ => Option.none
  | .callx _ => Option.none
  | .ret _ => Option.none
  | .exit _ => Option.none
  | .yield _ => Option.none
  | .loop _ => Option.none
  | .trap _ => Option.none
  | .sysc _ => Option.none
  | .eret _ => Option.none
  | .mfcr _ => Option.none
  | .mtcr _ => Option.none
  | .tlbi _ => Option.none
  | .waite _ => Option.none
  | .lnch _ => Option.none
  | .engsGo _ => Option.none
  | .engsSt _ => Option.none
  | .engsCmd _ => Option.none
  | .engsSig _ => Option.none
  | .engr _ => Option.none
  | .savev _ => Option.none
  | .savevState _ => Option.none
  | .restv _ => Option.none
  | .restvState _ => Option.none
  | .name _ => Option.none
  | .holdArm _ => Option.none
  | .holdOff _ => Option.none
  | .rstv _ => Option.none
  | .harvOn _ => Option.none
  | .harvOff _ => Option.none
  | .hchkLost _ => Option.none
  | .hchkLostc _ => Option.none
  | .hchkRevs _ => Option.none
  | .codeLineFill _ _ _ => Option.none
  | .groupSlotFree _ _ => Option.none
  | .completionRecordFault _ _ _ _ => Option.none
  | .bundleValidation _ _ => Option.none
  | .dependenceSignalRead _ _ _ => Option.none
  | .placementConsideration _ => Option.none
  | .coreReservation _ => Option.none
  | .rangeClearDone _ => Option.none
  | .withdrawal _ => Option.none
  | .preemption _ _ => Option.none
  | .saveBudgetExpiry _ _ => Option.none
  | .teamSaveComplete _ => Option.none
  | .revocationComplete _ => Option.none
  | .harvestRevoke _ _ => Option.none
  | .entryWake _ _ => Option.none
  | .waiteRecheck _ _ => Option.none
  | .reservationExpiry _ _ => Option.none
  | .storeCombiningDrain _ _ => Option.none
  | .plainRead _ => Option.none
  | .leasedRead _ => Option.none
  | .homeWrite _ => Option.none
  | .refUpdate _ _ => Option.none
  | .guardAnswer _ => Option.none
  | .leaseFenceTimeout _ => Option.none
  | .leaseCut _ => Option.none
  | .releasePublished _ _ => Option.none
  | .persistBufferDrain _ _ => Option.none
  | .pageRequest _ => Option.none
  | .prqcResume _ _ => Option.none
  | .prqcDecline _ _ => Option.none
  | .cres _ => Option.none
  | .bankFormatWrite _ _ _ => Option.none
  | .chctlIso _ _ => Option.none
  | .chctlRen _ _ => Option.none
  | .registerWrite _ _ _ => Option.none
  | .enumerationComplete _ _ _ => Option.none
  | .eventDelivery _ => Option.none
  | .copyLineLanded _ _ => Option.none
  | .copyCompletion _ _ => Option.none
  | .copyTranslationFault _ _ => Option.none
  | .copyWriteFailure _ _ => Option.none
  | .engineOpStart _ _ => Option.none
  | .engineOpFinish _ _ => Option.none
  | .engineTranslationFault _ => Option.none
  | .enginePoisonAtStore _ => Option.none
  | .engineStop _ _ => Option.none
  | .engineFaultReport _ => Option.none
  | .clusterFreezeDone _ => Option.none
  | .groupPatrolExpiry _ _ => Option.none
  | .clusterPatrolExpiry _ => Option.none
  | .queuePatrolExpiry _ _ => Option.none
  | .mailArrival _ => Option.none
  | .mailForward _ => Option.none
  | .mailAck _ => Option.none
  | .mailUndeliverable _ _ => Option.none
  | .planeRemap _ _ => Option.none
  | .transactionTimeout _ => Option.none
  | .membershipTimeout _ => Option.none
  | .recoveryLimit _ => Option.none
  | .transactionResponse _ => Option.none
  | .invalidationAcknowledgement _ _ _ => Option.none
  | .teamRestoreComplete _ => Option.none
  | .rollbackComplete _ => Option.none
  | .engineIllegalWord => Option.none
  | .branchIntoLiteral => Option.none
  | .refBroadcast => Option.none
  | .powerLoss => Option.none
  | .bridgeFailure => Option.none
  | .membershipBeat => Option.none
  | .powerOnReset => Option.none
  | .doorbell _ _ => Option.none
  | .peerRead _ _ _ => Option.none
  | .readExclusive _ _ _ => Option.none
  | .upgrade _ _ _ => Option.none
  | .writeBack _ _ _ => Option.none
  | .ioCoherentRead _ _ => Option.none
  | .ioCoherentWrite _ _ _ => Option.none
  | .chipletFatalError _ _ => Option.none
  | .ucieLinkFailure _ _ => Option.none
  | .engineWriteRefused _ _ => Option.none
  | .correctedError _ => Option.none
  | .uncorrectableError _ => Option.none
  | .linkTimeout _ _ => Option.none
  | .planeUp _ _ => Option.none
  | .switchTimeout _ _ _ => Option.none
  | .beatReceived _ _ => Option.none
  | .packageRejoin _ => Option.none
  | .frameAuthFailure _ _ => Option.none
  | .rekeyStart _ _ => Option.none
  | .rekeyComplete _ _ => Option.none
  | .portStop _ _ => Option.none
  | .accessTableWrite _ _ _ => Option.none
  | .hostAccess _ _ _ _ => Option.none
  | .supplySag _ _ => Option.none
  | .sagRecovery _ _ => Option.none
  | .powerLimitStep _ => Option.none
  | .energyStoreDecline _ _ => Option.none

/-- The bytes of an instruction, the lowest address first; a step of the hardware has none. -/
def encode (i : Instr) : List Byte :=
  match mainOf i, engineWordOf i with
  | some (op, w), _ => bytesOfDword (mainBits op w) ++ litBytes w.lits
  | Option.none, some h => [h.extractLsb' 0 8, h.extractLsb' 8 8]
  | Option.none, Option.none => []

/-- The engine that executes an engine word; every engine has the words that are not launches or generator words. -/
def engineFor (i : Instr) : EngineKind :=
  match i with
  | .wpre _ _ => .array
  | .wswp _ _ => .array
  | .strm _ _ => .array
  | .strms _ _ => .array
  | .drn _ _ => .drain
  | .dclr _ _ => .drain
  | .kscl _ _ => .kiln
  | .kpack _ _ => .kiln
  | .kunpk _ _ => .kiln
  | _ => .access

/-- The instruction of a decoder's answer. -/
def Decoded.instr? : Decoded → Option Instr
  | .instr i => some i
  | .rejected _ => Option.none

/-- The instruction whose bits are w, numbered as the opcode table numbers them: a 16-bit word is an engine word, read
as the access engine reads it where that engine has the launch operation, and otherwise as the first engine that has
it (log 17); a longer one is a main word with literal words of zeros. -/
def decodeTableWord (nbits w : Nat) : Option Instr :=
  if nbits ≤ 16 then
    Machine.firstSome (fun k => (decodeEngine k (BitVec.ofNat 16 w)).instr?)
      [EngineKind.access, EngineKind.array, EngineKind.drain, EngineKind.kiln]
  else (decodeMain (Machine.toBytes 16 (w % 2 ^ nbits))).instr?

end Sys2Proof
end

