-- ==== Sys2Proof/Machine/Operands.lean ====
section
/-! DEFINITION. What an issuing instruction sees of its group, the operand codes (R7), widths (R8), forms (R9),
immediates, literal words and constants (R15 to R18), the decode checks (R24), and reads and writes of registers. -/

namespace Sys2Proof.Machine

/-! ## The issuing entry -/

/-- What an issuing main-word instruction sees: its group, its entry and its lanes (R94). -/
structure Ctx where
  tid : Nat
  team : Team
  group : Group
  unit : CoreUnit
  hub : HubId
  pos : LanePos
  kernel : Bool
  /-- The lanes of the issuing entry. -/
  entry : Dword
  /-- The lanes whose guard is true, or whose guard bit is poisoned (R12, R42). -/
  active : Dword
  /-- The entry lanes whose guard bit is poisoned (R42). -/
  guardPoison : Dword

def Ctx.gid (c : Ctx) : Nat := c.group.gid
def Ctx.vector (c : Ctx) : Bool := decide (c.group.profile = .V)
def Ctx.live (c : Ctx) : Dword := c.group.regs.live

/-- At least one live lane of the group is not active (R41). -/
def Ctx.partialWrite (c : Ctx) : Bool := decide (c.live &&& ~~~c.active ≠ 0)

/-- A v register of no group: uniform 0. -/
def VReg.zero : VReg := { store := .uniform 0, poison := 0 }

/-- R224: what a lane reads. -/
def VReg.lane (r : VReg) (lane : Nat) : Word :=
  match r.store with
  | .uniform v => v
  | .affine b s => b + s * BitVec.ofNat 32 lane
  | .general ws => ws.getD lane 0

def VReg.shape (r : VReg) : Shape :=
  match r.store with
  | .uniform _ => .uniform
  | .affine _ _ => .affine
  | .general _ => .general

def GroupRegs.v (g : GroupRegs) (n : Nat) : VReg := g.vregs.getD n VReg.zero
def GroupRegs.s (g : GroupRegs) (n : Nat) : SReg := g.sregs.getD n { value := 0, poison := false }

/-- R6: p0 reads true. -/
def GroupRegs.p (g : GroupRegs) (n : Nat) : Dword := if n = 0 then BitVec.allOnes 64 else g.preds.getD (n - 1) 0
def GroupRegs.pPoison (g : GroupRegs) (n : Nat) : Dword := if n = 0 then 0 else g.predPoison.getD (n - 1) 0

/-- Writes an s register. -/
def GroupRegs.setS (g : GroupRegs) (n : Nat) (v : Dword) (poison : Bool) : GroupRegs :=
  { g with sregs := g.sregs.set n { value := v, poison := poison } }

/-- Writes the bits of a predicate in the lanes of a mask; a write to p0 is discarded (R6). -/
def GroupRegs.setP (g : GroupRegs) (n : Nat) (lanes bits poison : Dword) : GroupRegs :=
  if n = 0 then g
  else { g with
    preds := g.preds.set (n - 1) ((g.p n &&& ~~~lanes) ||| (bits &&& lanes))
    predPoison := g.predPoison.set (n - 1) ((g.pPoison n &&& ~~~lanes) ||| (poison &&& lanes)) }

/-! ## Operand codes -/

def isV (c : Byte) : Bool := decide (c.toNat < 0x80)
def isS (c : Byte) : Bool := decide (0x80 ≤ c.toNat ∧ c.toNat < 0xE0)
def isTs (c : Byte) : Bool := decide (0xE8 ≤ c.toNat ∧ c.toNat < 0xF0)
def isConst (c : Byte) : Bool := decide (0xF0 ≤ c.toNat ∧ c.toNat < 0xF4)
def isImm (c : Byte) : Bool := c == 0xFC || c == 0xFD
def isReserved (c : Byte) : Bool := (decide (0xF4 ≤ c.toNat ∧ c.toNat < 0xF8)) || c == 0xFA || c == 0xFB || c == 0xFE || c == 0xFF

/-- R9: the uniform class; lane and tid are not in it. -/
def isUniform (c : Byte) : Bool := !isV c && c != 0xE1 && c != 0xE3

/-- R60, R108: lane, tid, ix0 to ix3 and the immediates are not addresses or targets. DESIGN CHOICE (log 65): zero, gid and
literal words, which R60 names in neither of its lists, are targets; zero and gid, which R108 does not name, are addresses. -/
def isAddress (c : Byte) : Bool := c != 0xE1 && !(decide (0xE3 ≤ c.toNat ∧ c.toNat < 0xE8)) && !isImm c

/-- An s or ts register. -/
def isScalarReg (c : Byte) : Bool := isS c || isTs c

/-- The type an operand is read or written at (R8, R15). -/
inductive OTy where
  | int (w : Nat) (signed : Bool)
  | float (f : Fmt)
deriving DecidableEq, Repr

def OTy.width : OTy → Nat
  | .int w _ => w
  | .float f => f.width

/-- n32 and n64, the types of counts, addresses and values. -/
def tN32 : OTy := .int 32 false
def tN64 : OTy := .int 64 false

/-- R13: the integer types of M. -/
def intTy (m : Nat) : OTy :=
  match m with
  | 0 => .int 32 true
  | 1 => .int 32 false
  | 2 => .int 64 true
  | 3 => .int 64 false
  | 4 => .int 16 true
  | 5 => .int 16 false
  | 6 => .int 8 true
  | _ => .int 8 false

/-- R13: the floating-point types of M[3:2]. -/
def floatFmt (t : Nat) : Fmt :=
  match t with
  | 0 => .f32
  | 1 => .f64
  | 2 => .f16
  | _ => .bf16

/-! ## Signatures -/

/-- What a field of the main word holds for an instruction. -/
inductive FieldUse where
  /-- Reserved: must be zero (R14). -/
  | unused
  /-- Form bits: those outside the mask are reserved. -/
  | form (mask : Byte)
  /-- A source operand of a type, restricted to the codes that legal admits. -/
  | src (ty : OTy) (legal : Byte → Bool)
  /-- A destination of a width, restricted to the codes that legal admits. -/
  | dst (w : Nat) (legal : Byte → Bool)
  /-- An operand code whose legality the instruction checks itself (operandsBad). -/
  | code

/-- How an instruction's form is decided. -/
inductive FormRule where
  /-- R9: the destination decides. -/
  | byDest
  /-- For each active lane in the V profile, whatever the sources (R50). -/
  | perLane
  /-- Once for the group; a v source is legal only where legal says so. -/
  | once
  /-- Once when every source is of the uniform class, for each active lane otherwise (R112). -/
  | bySources
deriving DecidableEq, Repr

/-- What the decode checks of R24 need to know of an instruction. -/
structure Sig where
  op : BitVec 10
  inS : Bool := true
  inV : Bool := true
  /-- Privileged at task level, with the second value that cause 0x05 reports. -/
  privileged : Bool := false
  priv2 : Dword := 0
  form : FormRule := .once
  d : FieldUse := .unused
  a : FieldUse := .unused
  b : FieldUse := .unused
  c : FieldUse := .unused
  mOk : Bool
  /-- The bits of X that the instruction gives a meaning; X carries form fields when any is set (R16, R18). -/
  xMask : BitVec 12 := 0
  /-- imm20 may stand in A or B (R16). -/
  imm : Bool := false
  /-- Literal word 0 is the memory form's offset when L is 1 or more (R22). -/
  memory : Bool := false
  /-- C and X hold the branch form's word offset (R21). -/
  branch : Bool := false
  /-- Checks of form fields' values that R14 makes a non-zero reserved field. -/
  fieldsOk : Bool := true
  /-- Checks of operand codes that an entry adds, by the field that fails: cause 0x04. -/
  operandsBad : Option Nat := none
  /-- v registers that it reads beside those its source fields name. -/
  reads : List Nat := []

/-- Every code. -/
def anyCode (_ : Byte) : Bool := true

/-- A source without further restriction. -/
def FieldUse.s (ty : OTy) : FieldUse := .src ty anyCode

/-- R7: the codes that a destination may name: registers, or zero. -/
def destCode (c : Byte) : Bool := decide (c.toNat ≤ 0xE0) || isTs c

/-- A general destination of a width. -/
def FieldUse.dstAny (w : Nat) : FieldUse := .dst w anyCode

/-- R173: a status register destination, s, ts or zero. -/
def statusCode (c : Byte) : Bool := isScalarReg c || c == 0xE0

/-- R173: a source of the uniform class, read at 64 bits. -/
def uniformSource : FieldUse := .src tN64 isUniform

/-- R173, R108: a global address of the uniform class. -/
def uniformAddress : FieldUse := .src tN64 (fun x => isUniform x && isAddress x)

/-- The fields in order with their codes and numbers (R373, 0x04). -/
def Sig.fields (g : Sig) (w : MainWord) : List (Nat × Byte × FieldUse) :=
  [(0, w.d, g.d), (1, w.a, g.a), (2, w.b, g.b), (3, w.c, g.c)]

/-- The source operands: field, code and type. -/
def Sig.sources (g : Sig) (w : MainWord) : List (Nat × Byte × OTy) :=
  (g.fields w).filterMap (fun f => match f.2.2 with
    | .src ty _ => some (f.1, f.2.1, ty)
    | _ => none)

/-- Some operand of the instruction is imm20 (R16). -/
def Sig.usesImm (g : Sig) (w : MainWord) : Bool := (g.sources w).any (fun f => isImm f.2.1)

/-- The constant operands' fields, in order. -/
def Sig.constFields (g : Sig) (w : MainWord) : List Nat :=
  (g.sources w).filterMap (fun f => if isConst f.2.1 then some f.1 else none)

/-- R18: the first constant operand's offset stands in X when X carries no imm20 and no form fields. -/
def Sig.constInX (g : Sig) (w : MainWord) : Bool := !g.usesImm w && g.xMask == 0 && !g.branch

/-- The last literal word. -/
def lastLit : Lits → Word
  | .none => 0
  | .one w0 => w0
  | .two _ w1 => w1

/-- Whether the constant operand of a field takes its offset from X. -/
def Sig.offsetInX (g : Sig) (w : MainWord) (field : Nat) : Bool := g.constInX w && (g.constFields w).head? == some field

/-- R18: the word offset of the constant operand of a field. -/
def Sig.constOffset (g : Sig) (w : MainWord) (field : Nat) : Nat :=
  if g.offsetInX w field then w.x.toNat else (lastLit w.lits).toNat % 4096

/-- R9: whether the instruction executes once for the group. -/
def Sig.scalarForm (g : Sig) (vector : Bool) (w : MainWord) : Bool :=
  if !vector then true
  else match g.form with
    | .once => true
    | .perLane => false
    | .bySources => (g.sources w).all (fun f => isUniform f.2.1)
    | .byDest =>
      if isScalarReg w.d then true
      else if w.d == 0xE0 then (g.sources w).all (fun f => isUniform f.2.1)
      else false

/-! ## Decode checks -/

/-- R8, R107: a v register, or an even pair, or at 128 bits four registers, that the role does not allocate so. -/
def vOutside (budget width : Nat) (code : Byte) : Bool :=
  let n := width / 32
  decide (budget ≤ code.toNat) || (decide (2 ≤ n) && (code.toNat % n != 0 || decide (budget < code.toNat + n)))

/-- R107: the codes of a 128-bit operand: v registers, an even s or ts register, or zero. -/
def wideCode (c : Byte) : Bool := isV c || (isScalarReg c && c.toNat % 2 == 0) || c == 0xE0

/-- R7, R8: whether a source code is legal in its field, but for literal words and constants. -/
def Sig.sourceBad (g : Sig) (vector : Bool) (budget : Nat) (w : MainWord) (field : Nat) (code : Byte) (ty : OTy)
    (legal : Byte → Bool) : Bool :=
  isReserved code || !legal code ||
  (isV code && (!vector || vOutside budget ty.width code)) ||
  (ty.width == 128 && !wideCode code) ||
  (isConst code && !vector) ||
  (vector && g.form == .byDest && g.scalarForm vector w && !isUniform code) ||
  (isImm code && (!g.imm || g.xMask != 0 || field == 3 || (field == 2 && (g.sources w).any (fun f => f.1 == 1 && isImm f.2.1)))) ||
  (code == 0xFD && (match ty with | .int _ _ => true | .float _ => false))

/-- R7, R8: whether a destination code is illegal. -/
def Sig.destBad (vector : Bool) (budget width : Nat) (code : Byte) (legal : Byte → Bool) : Bool :=
  !destCode code || !legal code ||
  (isV code && (!vector || vOutside budget width code)) || (width == 128 && !wideCode code)

/-- R17, R18: a code that has no literal word or constant to read: a word that the instruction has not, a 64-bit operand in the
second word or at an odd offset, or a constant too many (DEDUCED, log 35: TVAL2 then names the operand's field). -/
def Sig.wordBad (g : Sig) (w : MainWord) (field : Nat) (code : Byte) (width : Nat) : Bool :=
  let n := w.lits.count
  let before := (g.constFields w).filter (fun f => decide (f < field))
  (code == 0xF8 && n == 0) || (code == 0xF9 && (decide (n < 2) || width == 64)) ||
  (isConst code && ((!g.offsetInX w field && n == 0) || (width == 64 && g.constOffset w field % 2 == 1) ||
    decide ((if g.constInX w then 2 else 1) ≤ before.length)))

/-- The first field whose code is an illegal operand. -/
def Sig.fieldBad (g : Sig) (vector : Bool) (budget : Nat) (w : MainWord) : Option Nat :=
  firstSome (fun f => match f.2.2 with
    | .src ty legal =>
      if g.sourceBad vector budget w f.1 f.2.1 ty legal || g.wordBad w f.1 f.2.1 ty.width then some f.1 else none
    | .dst width legal => if Sig.destBad vector budget width f.2.1 legal then some f.1 else none
    | _ => none) (g.fields w)

/-- R17: the literal words that the operands use, a word once for each use. -/
def Sig.litUses (g : Sig) (w : MainWord) : List Nat :=
  let n := w.lits.count
  (if g.memory && decide (1 ≤ n) then [0] else []) ++
  (g.sources w).flatMap (fun f =>
    if f.2.1 == 0xF8 then if f.2.2.width == 64 && n == 2 then [0, 1] else [0]
    else if f.2.1 == 0xF9 then [1]
    else if isConst f.2.1 && !g.offsetInX w f.1 then [n - 1]
    else [])

/-- R17: a literal word used twice. -/
def Sig.litBad (g : Sig) (w : MainWord) : Bool :=
  decide (1 < (g.litUses w).count 0) || decide (1 < (g.litUses w).count 1)

/-- R14, R18, R22: a reserved field that is not zero. -/
def Sig.reservedBad (g : Sig) (w : MainWord) : Bool :=
  let imm := g.usesImm w || g.branch
  let fieldSet := fun (code : Byte) (u : FieldUse) => match u with
    | .unused => code != 0
    | .form mask => code &&& ~~~mask != 0
    | _ => false
  fieldSet w.d g.d || fieldSet w.a g.a || fieldSet w.b g.b ||
  (!imm && fieldSet w.c g.c) ||
  (!imm && !(g.constFields w).any (g.offsetInX w) && w.x &&& ~~~g.xMask != 0) ||
  !g.mOk || !g.fieldsOk ||
  (g.memory && decide (1 ≤ w.lits.count) && w.c != 0) ||
  ((g.constFields w).any (fun f => !g.offsetInX w f) && decide (4096 ≤ (lastLit w.lits).toNat))

/-- A trap to be taken: its cause, values, cause lanes and recorded PC (R365). -/
structure TrapInfo where
  cause : Nat
  pc : Dword
  lanes : Dword
  val : Dword := 0
  val2 : Dword := 0
deriving DecidableEq, Repr

/-- A trap of the issuing instruction that belongs to the instruction as a whole (R364). -/
def Ctx.whole (c : Ctx) (cause : Nat) (val val2 : Dword) : TrapInfo :=
  { cause := cause, pc := c.pos.pc, lanes := c.entry, val := val, val2 := val2 }

/-- R24: the decode checks in their order. -/
def Sig.check (g : Sig) (c : Ctx) (w : MainWord) : Option TrapInfo :=
  let word := mainBits g.op w
  let budget := c.group.regs.vregs.length
  let operand := fun (f : Nat × Byte × FieldUse) => match f.2.2 with
    | .src _ _ => isTs f.2.1
    | .dst _ _ => isTs f.2.1
    | .code => isTs f.2.1
    | _ => false
  if !(if c.vector then g.inV else g.inS) then some (c.whole 0x01 word 0)
  else if !c.kernel && (g.privileged || (g.fields w).any operand) then some (c.whole 0x05 word g.priv2)
  else match g.fieldBad c.vector budget w with
    | some f => some (c.whole 0x04 word (BitVec.ofNat 64 f))
    | none => match g.operandsBad with
      | some f => some (c.whole 0x04 word (BitVec.ofNat 64 f))
      | none =>
        if g.litBad w then some (c.whole 0x04 word 4)
        else if g.reservedBad w then some (c.whole 0x02 word 0)
        else none

/-! ## Reading operands -/

/-- An operand as an instruction reads it: its shape, and each lane's value in the low bits and poison. -/
structure Opnd where
  shape : Shape
  base : Word
  stride : Word
  val : Nat → Dword
  poison : Nat → Bool

/-- A uniform operand without poison. -/
def Opnd.const (v : Dword) : Opnd :=
  { shape := .uniform, base := loWord v, stride := 0, val := fun _ => v, poison := fun _ => false }

/-- R15: imm20 as an integer. -/
def imm20 (w : MainWord) : BitVec 20 := w.x ++ w.c

/-- R17: a literal word at a type. -/
def litValue (ty : OTy) (l : Lits) (second : Bool) : Dword :=
  match l with
  | .none => 0
  | .one w0 => if ty.width = 64 then match ty with
      | .int _ _ => w0.signExtend 64
      | .float f => BitVec.ofNat 64 (convF32 f w0.toNat)
    else zextDword ty.width (w0.setWidth 64)
  | .two w0 w1 =>
    if ty.width = 64 then joinWords w0 w1
    else zextDword ty.width ((if second then w1 else w0).setWidth 64)

/-- The scalar core index in the package, or the array cluster index (R7). -/
def coreIndex : CoreUnit → Nat
  | .scalar h n => 32 * hubNumber h + n
  | .control c => 12 * hubNumber c.hub + 4 * (c.chiplet - 4) + c.core
  | .vector _ => 0

/-- A read of a v register, or of an even pair at 64 bits (R8, R224). -/
def readV (g : GroupRegs) (n : Nat) (wide : Bool) (width : Nat) : Opnd :=
  let r := g.v n
  if wide then
    let r1 := g.v (n + 1)
    { shape := if r.shape = .uniform ∧ r1.shape = .uniform then .uniform else .general, base := 0, stride := 0,
      val := fun l => joinWords (r.lane l) (r1.lane l),
      poison := fun l => laneBit r.poison l || laneBit r1.poison l }
  else
    { shape := r.shape,
      base := match r.store with | .uniform v => v | .affine b _ => b | .general _ => 0,
      stride := match r.store with | .affine _ s => s | _ => 0,
      val := fun l => zextDword width ((r.lane l).setWidth 64), poison := laneBit r.poison }

/-- R7, R15, R17, R18: the operand that a code names in a field. -/
def readOperand (g : Sig) (c : Ctx) (w : MainWord) (field : Nat) (code : Byte) (ty : OTy) : Opnd :=
  let narrow := fun v : Dword => Opnd.const (zextDword ty.width v)
  if isV code then readV c.group.regs code.toNat (ty.width == 64) ty.width
  else if isS code then
    let r := c.group.regs.s (code.toNat - 0x80)
    { narrow r.value with poison := fun _ => r.poison }
  else if isTs code then narrow (c.group.ts.getD (code.toNat - 0xE8) 0)
  else if isConst code then
    let bank := c.team.consts.getD (code.toNat - 0xF0) []
    let off := g.constOffset w field
    if ty.width = 64 then Opnd.const (joinWords (bank.getD off 0) (bank.getD (off + 1) 0))
    else narrow ((bank.getD off 0).setWidth 64)
  else match code.toNat with
    | 0xE1 => if c.vector then { shape := .affine, base := 0, stride := 1, val := fun l => BitVec.ofNat 64 l, poison := fun _ => false }
        else Opnd.const 0
    | 0xE2 => narrow (if c.vector then BitVec.ofNat 64 c.gid else 0)
    | 0xE3 => if c.vector then
          { shape := .affine, base := BitVec.ofNat 32 (64 * c.gid), stride := 1,
            val := fun l => zextDword ty.width (BitVec.ofNat 64 (64 * c.gid + l)), poison := fun _ => false }
        else narrow (BitVec.ofNat 64 (coreIndex c.unit))
    | 0xE4 => narrow ((c.team.ix.getD 0 0).setWidth 64)
    | 0xE5 => narrow ((c.team.ix.getD 1 0).setWidth 64)
    | 0xE6 => narrow ((c.team.ix.getD 2 0).setWidth 64)
    | 0xE7 => narrow ((c.team.ix.getD 3 0).setWidth 64)
    | 0xF8 => Opnd.const (litValue ty w.lits false)
    | 0xF9 => Opnd.const (litValue ty w.lits true)
    | 0xFC => narrow ((imm20 w).signExtend 64)
    | 0xFD => match ty with
      | .float f => Opnd.const (BitVec.ofNat 64 (convF32 f (((imm20 w).setWidth 32) <<< 12).toNat))
      | .int _ _ => Opnd.const 0
    | _ => Opnd.const 0

/-- The operand of field A, B or C at its type. -/
def Sig.opA (g : Sig) (c : Ctx) (w : MainWord) : Opnd :=
  match g.a with | .src ty _ => readOperand g c w 1 w.a ty | _ => Opnd.const 0
def Sig.opB (g : Sig) (c : Ctx) (w : MainWord) : Opnd :=
  match g.b with | .src ty _ => readOperand g c w 2 w.b ty | _ => Opnd.const 0
def Sig.opC (g : Sig) (c : Ctx) (w : MainWord) : Opnd :=
  match g.c with | .src ty _ => readOperand g c w 3 w.c ty | _ => Opnd.const 0

/-- A lane's value read as an integer of a type. -/
def OTy.toInt (ty : OTy) (x : Dword) : Int :=
  match ty with
  | .int w true => signed w x.toNat
  | .int w false => ((x.toNat % 2 ^ w : Nat) : Int)
  | .float _ => x.toNat

/-! ## Writing results -/

/-- A result: its shape before partial writes count (R41, R75), base and stride where it is affine, and each lane's
value, extended to its register, with its poison. -/
structure RVal where
  shape : Shape
  base : Word := 0
  stride : Word := 0
  val : Nat → Dword
  poison : Nat → Bool

/-- R8: a result of a type as a register holds it. -/
def extendTo (ty : OTy) (x : Dword) : Dword :=
  match ty with
  | .int w true => sextDword w x
  | .int w false => zextDword w x
  | .float f => zextDword f.width x

/-- The code of a shape in TVAL2 of cause 0x08 and in SHAPE (R93, R373). -/
def Shape.code : Shape → Nat
  | .uniform => 1
  | .affine => 2
  | .general => 3

/-- R41: the shape that is written: a partial write is general, and an affine result of stride 0 is uniform. -/
def RVal.written (c : Ctx) (r : RVal) : Shape :=
  if c.partialWrite then .general
  else if r.shape = .affine ∧ r.stride = 0 then .uniform
  else r.shape

/-- R41, R225: the trap of a result wider than the declaration of a register. -/
def shapeCheck (c : Ctx) (n : Nat) (result : Shape) : Option TrapInfo :=
  let declared := (c.group.regs.v n).shape
  if declared.code < result.code then
    some (c.whole 0x08 (BitVec.ofNat 64 n) (BitVec.ofNat 64 (declared.code + 4 * result.code)))
  else none

/-- R225: the shape check of a destination code at a width. -/
def destShapeCheck (c : Ctx) (code : Byte) (width : Nat) (result : Shape) : Option TrapInfo :=
  if !isV code then none
  else firstSome (fun i => shapeCheck c (code.toNat + i) result) (List.range (max 1 (width / 32)))

/-- R225: a v register after a result is written in the active lanes; exited lanes keep their words (R201). -/
def VReg.write (r : VReg) (active : Dword) (base stride : Word) (val : Nat → Word) (poison : Nat → Bool) : VReg :=
  { store := match r.store with
      | .uniform _ => .uniform base
      | .affine _ _ => .affine base stride
      | .general ws => .general (lanes64.map (fun l => if laneBit active l then val l else ws.getD l 0))
    poison := (r.poison &&& ~~~active) ||| (maskOf poison &&& active) }

def GroupRegs.setV (g : GroupRegs) (n : Nat) (r : VReg) : GroupRegs := { g with vregs := g.vregs.set n r }

/-- Writes a vector-form result, already checked for shape, to a v register or an even pair. -/
def writeVector (c : Ctx) (g : GroupRegs) (n width : Nat) (r : RVal) : GroupRegs :=
  let poison := fun l => r.poison l || laneBit c.guardPoison l
  let first := r.val (lowestLane c.active)
  let part := fun (k : Nat) (x : Dword) => if k = 0 then loWord x else hiWord x
  let base := fun k => if r.shape = .affine then r.base else part k first
  let stride := if r.shape = .affine then r.stride else 0
  let one := fun (g : GroupRegs) (k : Nat) =>
    g.setV (n + k) ((g.v (n + k)).write c.active (base k) stride (fun l => part k (r.val l)) poison)
  if width = 64 then one (one g 0) 1 else one g 0

/-- Writes a scalar-form result to an s or ts register; zero discards it. -/
def writeScalar (g : Group) (code : Byte) (v : Dword) (poison : Bool) : Group :=
  if isS code then { g with regs := g.regs.setS (code.toNat - 0x80) v poison }
  else if isTs code then { g with ts := g.ts.set (code.toNat - 0xE8) v }
  else g

/-- Writes a result to the destination of an instruction in its form. -/
def writeDest (c : Ctx) (g : Group) (scalar : Bool) (code : Byte) (width : Nat) (r : RVal) : Group :=
  if isV code then { g with regs := writeVector c g.regs code.toNat width r }
  else if scalar then
    let l := lowestLane c.active
    writeScalar g code (r.val l) (r.poison l || decide (c.guardPoison ≠ 0))
  else g

end Sys2Proof.Machine
end

