-- ==== Sys2Proof/Machine/Flags.lean ====
section
/-! DEFINITION. Floating-point status, its sticky flags and enables (R73, R277, R278), and the poison-origin record
(R279, R394, R395). -/

namespace Sys2Proof.Machine

/-- R277: the enables of FPST. -/
def fpstEnables (fpst : Dword) : Flags := fpst.extractLsb' 8 5

/-- R277: the bits of FPST that a write keeps. -/
def fpstWritable : Dword := 0x1F1F

/-- R277: FPST with flags set. -/
def setFlags (fpst : Dword) (f : Flags) : Dword := fpst ||| f.setWidth 64

/-- R279: the origin of the first enabled exception in the order of the manual. -/
def floatOrigin (f : Flags) : Nat :=
  if f.getLsbD 0 then 0x18 else if f.getLsbD 1 then 0x19 else if f.getLsbD 2 then 0x1A
  else if f.getLsbD 3 then 0x1B else 0x1C

/-- R395: a poison event of a group: the first writes the record, later ones count. -/
def recordEvent (r : PoisonOrigin) (cause reg lane kind : Nat) (pc address : Dword) : PoisonOrigin :=
  if r.valid then { r with count := if r.count = BitVec.allOnes 32 then r.count else r.count + 1 }
  else { cause := BitVec.ofNat 7 cause, valid := true, reg := BitVec.ofNat 8 reg, lane := BitVec.ofNat 6 lane,
         kind := BitVec.ofNat 2 kind, pc := pc, address := if kind = 3 then address else 0, count := r.count }

/-- A group after a poison event of an instruction at pc. -/
def Group.event (g : Group) (cause reg lane kind : Nat) (pc address : Dword) : Group :=
  { g with regs := { g.regs with porig := recordEvent g.regs.porig cause reg lane kind pc address } }

/-- The union of the flags that lanes raise. -/
def unionFlags (lanes : List Nat) (f : Nat → Flags) : Flags := lanes.foldl (fun acc l => acc ||| f l) 0

/-- R73, R279: flags raised by lanes are made sticky; an enabled one is a poison event, told with the register, the
kind and the lowest lane that meets it. The answer's mask is the poisoned lanes. -/
def raiseFlags (g : Group) (pc : Dword) (lanes : List Nat) (f : Nat → Flags) (reg kind : Nat) : Group × (Nat → Bool) :=
  let enabled := fpstEnables g.regs.fpst
  let all := unionFlags lanes f
  let g1 := { g with regs := { g.regs with fpst := setFlags g.regs.fpst all } }
  let hit := fun l => decide (f l &&& enabled ≠ 0)
  if all &&& enabled = 0 then (g1, hit)
  else
    let lane := (lanes.filter hit).headD 0
    (g1.event (floatOrigin (all &&& enabled)) reg lane kind pc 0, hit)

/-- R394: PORIG as MFCR reads it. -/
def porigWord (r : PoisonOrigin) : Dword :=
  BitVec.ofNat 64 (r.cause.toNat + (if r.valid then 0x80 else 0) + r.reg.toNat * 2 ^ 8 + r.lane.toNat * 2 ^ 16 +
    r.kind.toNat * 2 ^ 22)

/-- R394: PORIG as MTCR writes it. -/
def setPorig (r : PoisonOrigin) (v : Dword) : PoisonOrigin :=
  { r with cause := v.extractLsb' 0 7, valid := v.getLsbD 7, reg := v.extractLsb' 8 8, lane := v.extractLsb' 16 6,
           kind := v.extractLsb' 22 2 }

end Sys2Proof.Machine
end

