-- ==== Sys2Proof/Machine/Retire.lean ====
section
/-! DEFINITION. The end of teams and packets: completion records (R182, R449), retirement (R216, R217) and kills. -/

namespace Sys2Proof.Machine

/-- R449: the report of a completion record that could not be written. -/
def State.recordFails (s : State) (h : HubId) (va : Dword) (status : Byte) (cause : Nat) : State :=
  s.due (.completionRecordFault h va (BitVec.ofNat 8 cause) status)

/-- R182, R348, R449: adds 1 to word 0 of a completion record, as an RMW of the hub with release at system scope; word 1 stands written
when it fails. -/
def State.addOne (s : State) (h : HubId) (q : Nat) (va : Dword) (status : Byte) : State :=
  match translate s (queueSpace h ((s.hub h).queue q)) va .rmw with
  | .bad f => s.recordFails h va status f.cause
  | .ok x =>
    let s1 := s.countMigration h ((s.hub h).queue q).asn va x
    let r : RmwWord := { key := x.key, size := 8, lane := 0, op := 0, operand := toBytes 8 1 }
    if s.noAtomics x then s1.recordFails h va status 0x29
    else if localHome x.home then
      s1.rmwAtHome r { hubWriter h with rmw := true, release := true, scope := 5, durable := x.dur }
    else s1.newTxn (hubTeam h) 0 h (lineOfKey x.key)
      (.rmw r { WriteHow.hub x.dur with release := some 5, made := { source := .record q va status, va := va, kernel := true } })

/-- R182, R236, R449: writes a completion record, word 1 and then word 0; a write that fails is reported as event 0x76. One that is
refused writes neither word; one that completes with error ends before the add. -/
def State.writeCompletion (s : State) (h : HubId) (q : Queue) (va : Dword) (status cause : Byte) : State :=
  if va = 0 then s
  else
    let sp := queueSpace h q
    let w1 := BitVec.ofNat 64 (status.toNat + cause.toNat * 256)
    match translate s sp va .write, translate s sp va .rmw with
    | .bad f, _ => s.recordFails h va status f.cause
    | .ok _, .bad f => s.recordFails h va status f.cause
    | .ok x, .ok _ =>
      let s1 := (s.touch sp va .write x).countMigration h q.asn va x
      match s1.linkError h (lineOfKey x.key), s1.queueRegister (x.key + 8) with
      | some e, _ => s1.recordFails h va status e.toNat
      | none, some (h', off) => (s1.writeQueueSpace h' true off w1).addOne h q.index va status
      | none, none =>
        if localHome x.home then
          (s1.homeWrite (x.key + 8) (toBytes 8 w1.toNat) { hubWriter h with durable := x.dur }).addOne h q.index va status
        else s1.newTxn (hubTeam h) 0 h (lineOfKey x.key) (.write (cellsFrom (x.key + 8) (toBytes 8 w1.toNat))
          { WriteHow.hub x.dur with made := { source := .record q.index va status, va := va, kernel := true } })

/-- R351: whether a completion record has room where it is durable. -/
def State.completionRoom (s : State) (h : HubId) (q : Queue) (va : Dword) : Bool :=
  if va = 0 then true
  else match translate s (queueSpace h q) va .write with
    | .bad _ => true
    | .ok x => !x.dur || s.durableRoom x.key 16

/-- R217: whether a store of one of some teams is still on its way. -/
def State.storesLeft (s : State) (teams : List Nat) : Bool :=
  s.cores.any (fun c => c.combining.any (fun e => teams.contains e.team)) || s.txns.any (fun x => teams.contains x.team)

/-- The teams of a packet. -/
def Team.ofPacket (t : Team) (h : HubId) (q seq : Nat) : Bool :=
  decide (t.cls ≠ .boot) && decide (t.hub = h) && t.queue == q && t.packet == seq

/-- A team leaves the machine: its storage is free (R216), its names end (R215), its page requests are removed (R386)
and its mailboxes with them. Stores already issued complete as they stand. -/
def State.releaseTeam (s : State) (t : Team) : State :=
  let clean := fun (h : Hub) => { h with
    requests := h.requests.filter (fun r => match r.source with
      | .copy team _ => team != t.id
      | .engine team => team != t.id)
    names := updateWhere (fun n => n.team == t.id) (fun n => { n with ended := true }) h.names
    reservations := h.reservations.filter (fun r => r.team != t.id) }
  ((s.dropTeam t.id).modHub .h0 clean).modHub .h1 clean

/-- R217: the packet leaves its queue, its completion record is written, and QSTAT.RETD advances. -/
def State.completePacket (s : State) (h : HubId) (q seq : Nat) (status cause : Byte) : State :=
  let queue := (s.hub h).queue q
  match queue.packet? seq with
  | none => s
  | some p =>
    let s1 := s.writeCompletion h queue (BitVec.ofNat 64 (p.field 0x38 8)) status cause
    s1.modQueue h q (fun x => { x with packets := x.packets.filter (fun y => y.seq != seq), retd := x.retd + 1 })

/-- R217, R351: whether a packet may complete now: every store of the teams is performed, and its record has room. -/
def State.mayComplete (s : State) (r : Retiring) : Bool :=
  let queue := (s.hub r.hub).queue r.queue
  !s.storesLeft r.teams && (match queue.packet? r.seq with
    | none => true
    | some p => s.completionRoom r.hub queue (BitVec.ofNat 64 (p.field 0x38 8)))

/-- R217: a packet retires at once, or when what it waits for has come. -/
def State.retirePacket (s : State) (h : HubId) (q seq : Nat) (status cause : Byte) (teams : List Nat) : State :=
  let r : Retiring := { hub := h, queue := q, seq := seq, status := status, cause := cause, teams := teams }
  if s.mayComplete r then s.completePacket h q seq status cause
  else if s.retiring.any (fun x => x.hub == h && x.queue == q && x.seq == seq) then s
  else { s with retiring := s.retiring ++ [r] }.modPacket h q seq (fun p => { p with life := .running, index := none, window := [] })

/-- R217: the packets whose completion has become possible complete. -/
def State.settleRetiring (s : State) : State :=
  s.retiring.foldl (fun s r =>
    if s.mayComplete r then
      { s with retiring := s.retiring.filter (fun x => decide (x ≠ r)) }.completePacket r.hub r.queue r.seq r.status r.cause
    else s) s

/-- The package's revocation of harvest contexts on a core (R259): every harvest team there, or joined to one in
progress. -/
def State.revoke (s : State) (c : CoreId) (teams : List Nat) : State :=
  if teams = [] then s
  else if s.revocations.any (fun r => decide (r.core = c)) then
    { s with
      revocations := updateWhere (fun r => decide (r.core = c))
        (fun r => { r with teams := (r.teams ++ teams).eraseDups }) s.revocations }
  else { s with
    revocations := s.revocations ++ [{ core := c, teams := teams, start := s.cycle }] }

/-- The harvest teams resident on a vector core. -/
def State.harvestOn (s : State) (c : CoreId) : List Nat :=
  (s.teams.filter (fun t => t.harvest && decide (t.life ≠ .parked) && decide (t.life ≠ .saved) &&
    t.cores.any (fun x => decide (x.unit = .vector c)))).map (fun t => t.id)

/-- R259: the harvest contexts of the cores of a team that set HARV.on are revoked when it retires or is saved. -/
def State.revokeFor (s : State) (t : Team) : State :=
  if t.hlim = 0 then s
  else t.cores.foldl (fun s c => match c.unit with
    | .vector id => s.revoke id (s.harvestOn id)
    | _ => s) s

/-- A kill ends its packet: every team of it stops, and the record tells status 2 with the cause (R182, R217). -/
def State.killPacket (s : State) (h : HubId) (q seq : Nat) (cause : Byte) : State :=
  let victims := s.teams.filter (fun t => t.ofPacket h q seq)
  let s1 := victims.foldl (fun s t => (s.revokeFor t).releaseTeam t) s
  s1.retirePacket h q seq 2 cause (victims.map (fun t => t.id))

/-- A team is killed with a cause. The boot work item has no packet; it only stops. -/
def State.killTeam (s : State) (tid : Nat) (cause : Byte) : State :=
  match s.team? tid with
  | none => s
  | some t => match t.cls with
    | .boot => s.releaseTeam t
    | _ => s.killPacket t.hub t.queue t.packet cause

/-- R215 to R217: a team retires; the packet retires with its last team once every iteration has been placed. -/
def State.retireTeam (s : State) (tid : Nat) : State :=
  match s.team? tid with
  | none => s
  | some t =>
    let s1 := (s.revokeFor t).releaseTeam t
    match t.cls with
    | .boot => s1
    | _ =>
      let s2 := s1.modPacket t.hub t.queue t.packet (fun p => { p with teams := p.teams - 1 })
      match ((s2.hub t.hub).queue t.queue).packet? t.packet with
      | none => s2
      | some p =>
        if p.teams = 0 ∧ p.index.isNone ∧ p.window = [] ∧ p.life = .running then
          match p.mailRefused with
          | some c => s2.retirePacket t.hub t.queue t.packet 3 c [tid]
          | none => s2.retirePacket t.hub t.queue t.packet 0 0 [tid]
        else s2

end Sys2Proof.Machine
end

