-- ==== Sys2Proof/Machine/Ops.lean ====
section
/-! DEFINITION. The frontier and its movement (R57, R202 to R204), hardware loops (R68, R69), taking an exception
(R364 to R368) and returning from one (R175), waits (R207), and what poison and lost state do to a team (R396 to
R403). -/

namespace Sys2Proof.Machine

/-! ## The frontier -/

def LanePos.zero : LanePos := { pc := 0, pri := 0, depth := 0 }

def GroupRegs.at (g : GroupRegs) (lane : Nat) : LanePos := g.pos.getD lane LanePos.zero

/-- Whether a group is at kernel level (R363). -/
def Group.kernel (g : Group) : Bool := decide (g.trap.level = .kernel)

/-- The live lanes of the current frontier: at kernel level the kernel frontier alone (R364). -/
def Group.current (g : Group) : Dword :=
  if g.kernel then g.regs.live &&& g.kernelLanes else g.regs.live

/-- The lanes of an entry of the current frontier (R202). -/
def Group.entryLanes (g : Group) (p : LanePos) : Dword :=
  g.current &&& maskOf (fun l => decide (g.regs.at l = p))

/-- R202: greater depth first, then greater priority, then lower PC. -/
def higher (p q : LanePos) : Bool :=
  if p.depth ≠ q.depth then decide (q.depth.toNat < p.depth.toNat)
  else if p.pri ≠ q.pri then decide (q.pri.toNat < p.pri.toNat)
  else decide (p.pc.toNat < q.pc.toNat)

/-- Inserts an entry in the order of R202, once. -/
def insertEntry (p : LanePos) : List LanePos → List LanePos
  | [] => [p]
  | q :: qs => if p = q then q :: qs else if higher p q then p :: q :: qs else q :: insertEntry p qs

/-- The entries of the current frontier, the highest first. -/
def Group.entries (g : Group) : List LanePos :=
  (maskLanes g.current).foldl (fun es l => insertEntry (g.regs.at l) es) []

/-- R202: exactly one entry. -/
def Group.converged (g : Group) : Bool := g.entries.length == 1

/-- Whether a wait keeps its entry from issuing: a WAITE that reads again issues (R179). -/
def EntryWait.holds (w : EntryWait) : Bool :=
  match w.kind with
  | .rereading _ => false
  | .completing _ => false
  | .remote _ back => !back
  | .retrying => false
  | _ => true

/-- Whether a wait is that of a WAITE that may read again (R179). -/
def EntryWait.rereads (w : EntryWait) : Bool :=
  match w.kind with
  | .memoryWord _ _ _ => true
  | _ => false

/-- Whether an entry waits under R207. -/
def Group.waiting (g : Group) (p : LanePos) : Bool :=
  g.waits.any (fun w => decide (w.entry = p) && w.kernel == g.kernel && w.holds)

/-- Whether a wait is that of a TLBI, PERSIST, SAVEV or RESTV that has not completed, or of an instruction under way at another package
(log 83), and whether it holds every entry, as a TLBI does (R207, R250). -/
def EntryWait.completion (w : EntryWait) : Option Bool :=
  match w.kind with
  | .completes every => some every
  | .completing every => some every
  | .remote _ _ => some true
  | _ => none

/-- The entry whose TLBI, PERSIST, SAVEV or RESTV has not completed (R207, R250). -/
def Group.completingAt (g : Group) : Option LanePos :=
  (g.waits.find? (fun w => w.kernel == g.kernel && w.completion.isSome)).map (fun w => w.entry)

/-- The entries that may issue: behind a TLBI that has not completed, only its own (R207). -/
def Group.readyEntries (g : Group) : List LanePos :=
  g.entries.filter (fun p => !g.waiting p &&
    g.waits.all (fun w => decide (w.kernel ≠ g.kernel) || decide (w.completion ≠ some true) || decide (w.entry = p)))

/-- R370: whether the highest entry's instruction has begun and is in none of the waits of R207: a trailing fence, or the close of a
mailbox. -/
def Group.inExecution (g : Group) : Bool :=
  g.entries.head?.any (fun p => g.waits.any (fun w => decide (w.entry = p) && w.kernel == g.kernel && (match w.kind with
    | .fence _ _ | .closing _ => true
    | _ => false)))

/-- R204: whether an entry is ready: it may issue, and no wait of it stands. -/
def Group.ready (g : Group) (p : LanePos) : Bool :=
  g.readyEntries.contains p && !g.waits.any (fun w => decide (w.entry = p) && w.kernel == g.kernel)

/-- The ageing record of an entry (R204). -/
def Group.age (g : Group) (p : LanePos) : EntryAge :=
  (g.ages.find? (fun a => decide (a.entry = p) && a.kernel == g.kernel)).getD
    { entry := p, kernel := g.kernel, count := 0, queued := none }

/-- The ready entry of the aged queue that stands first. -/
def Group.agedEntry (g : Group) : Option LanePos :=
  let queued := g.readyEntries.filterMap (fun p => (g.age p).queued.map (fun n => (n, p)))
  (queued.foldl (fun best x => match best with
    | none => some x
    | some b => if x.1 < b.1 then some x else some b) none).map (fun x => x.2)

/-- R204: the entry that issues. -/
def Group.issuing (g : Group) : Option LanePos :=
  match g.agedEntry with
  | some p => some p
  | none => g.readyEntries.head?

/-- Whether the frontier of a level holds an entry. -/
def Group.hasEntry (g : Group) (kernel : Bool) (p : LanePos) : Bool :=
  (maskLanes g.regs.live).any (fun l => laneBit g.kernelLanes l == kernel && decide (g.regs.at l = p))

/-- R204: the ageing records after an issue: the issuing entry starts again at 0, every other entry that was ready
and still exists adds 1, and one that reaches 64 joins the tail of the aged queue. -/
def agesAfter (before : Group) (issued : LanePos) (after : Group) : List EntryAge :=
  let others := before.entries.filter (fun p => decide (p ≠ issued) && after.hasEntry before.kernel p)
  let held := before.ages.filter (fun a => a.kernel != before.kernel)
  let tail := before.ages.foldl (fun n a => match a.queued with | some k => max n (k + 1) | none => n) 0
  (others.foldl (fun (acc : List EntryAge × Nat) p =>
      let a := before.age p
      let ready := before.ready p
      let c := if ready then min 64 (a.count + 1) else a.count
      match a.queued with
      | some _ => (acc.1 ++ [{ a with count := c }], acc.2)
      | none =>
        if c = 64 ∧ ready then (acc.1 ++ [{ a with count := c, queued := some acc.2 }], acc.2 + 1)
        else if c = 0 then acc
        else (acc.1 ++ [{ a with count := c }], acc.2))
    (held, tail)).1

/-- R204, R255: a group after one of its issue slots: the ageing records, and when it last issued. -/
def Group.counted (g before : Group) (issued : LanePos) (tick : Nat) : Group :=
  { g with ages := agesAfter before issued g, issuedAt := tick }

/-- Sets the positions of lanes. -/
def Group.place (g : Group) (f : Nat → Option LanePos) : Group :=
  { g with regs := { g.regs with
      pos := g.regs.pos.zipIdx.map (fun x => match f x.2 with | some p => p | none => x.1) } }

/-! ## Hardware loops -/

/-- Whether an address lies in a loop's body. -/
def LoopLevel.body (v : LoopLevel) (a : Dword) : Bool := decide (v.sta.toNat ≤ a.toNat ∧ a.toNat < v.lend.toNat)

/-- R68: control arrives at an address from another, from inside a level's body; a level that ends is checked again at
once, and the next one with it. An ERET gives no address to come from (R175). -/
def arrive (loops : List LoopLevel) (origin : Option Dword) : Nat → Dword → List LoopLevel × Nat × Dword
  | 0, pc => (loops, 0, pc)
  | d + 1, pc =>
    match loops[d]? with
    | none => (loops, d + 1, pc)
    | some v =>
      if v.lend = pc ∧ (match origin with | some a => v.body a | none => true) = true then
        if 1 < v.cnt.toNat then (loops.set d { v with cnt := v.cnt - 1 }, d + 1, v.sta)
        else arrive loops origin d pc
      else (loops, d + 1, pc)

/-- R69: a transfer outside the innermost body pops it, and every outer level whose body does not contain the
target; a target at a body's end is an arrival from inside it (R68). -/
def popLoops (loops : List LoopLevel) (origin : Dword) : Nat → Dword → Nat
  | 0, _ => 0
  | d + 1, target =>
    match loops[d]? with
    | none => d + 1
    | some v =>
      if v.body target || (decide (target = v.lend) && v.body origin) then d + 1 else popLoops loops origin d target

/-- Whether loop ends are checked: in the S profile, unless suspended (R69). -/
def Group.loopsRun (g : Group) : Bool := decide (g.profile = .S) && !g.trap.lsus && decide (0 < g.ldep)

/-- R68: an S-profile work item arrives at its PC. -/
def Group.arriveLoop (g : Group) (origin : Option Dword) : Group :=
  if !g.loopsRun then g
  else
    let p := g.regs.at 0
    let r := arrive g.loops origin g.ldep p.pc
    { g.place (fun l => if l = 0 then some { p with pc := r.2.2 } else none) with loops := r.1, ldep := r.2.1 }

/-- R69: a control transfer of an S-profile work item to a target. -/
def Group.transferLoop (g : Group) (origin target : Dword) : Group :=
  if !g.loopsRun then g else { g with ldep := popLoops g.loops origin g.ldep target }

/-! ## Waits -/

/-- The waits of an entry of the current frontier end. -/
def Group.unwait (g : Group) (p : LanePos) : Group :=
  { g with waits := g.waits.filter (fun w => !(decide (w.entry = p) && w.kernel == g.kernel)) }

/-- R207: the entry waits; its lanes stay at the instruction. -/
def Group.wait (g : Group) (p : LanePos) (k : WaitKind) (fall : Dword) : Group :=
  if g.waiting p then g
  else { g with waits := (g.unwait p).waits ++ [{ entry := p, kernel := g.kernel, kind := k, fall := fall }] }

/-! ## Taking an exception -/

/-- R366: the class of a cause. -/
def causeClass (c : Nat) : Nat :=
  if c < 0x20 then 0 else if c < 0x40 then 1 else if c < 0x50 then 2 else if c < 0x60 then 3 else if c < 0x70 then 4 else 5

/-- R366: the handler address of a cause. -/
def handlerAddress (ktvec : Dword) (c : Nat) : Dword := ktvec + BitVec.ofNat 64 (0x100 * causeClass c)

/-- R365: trap entry of a group, for trap lanes m. -/
def Group.enterTrap (g : Group) (ktvec : Dword) (m : Dword) (t : TrapInfo) (cycle : Dword) : Group :=
  let p := g.regs.at (lowestLane m)
  let nested := g.kernel
  let aside := if nested then g.aside
    else g.regs.pos.zipIdx.map (fun x => if laneBit m x.2 then { x.1 with pc := t.pc } else x.1)
  let g1 := { g.unwait p with
    trap := { g.trap with
      level := .kernel, plvl := g.trap.level, nest := nested, lsus := decide (g.profile = Profile.S), epri := p.pri,
      edep := p.depth, cause := BitVec.ofNat 7 t.cause, epc := t.pc, val := t.val, val2 := t.val2, mask := t.lanes }
    aside := aside
    kernelLanes := if nested then g.kernelLanes else m
    byTarget := g.byTarget ||| m
    preemptedAt := if t.cause = 0x70 ∧ t.val = 0 then some cycle else g.preemptedAt
    handling := if t.cause = 0x70 then some 0 else g.handling.map (fun n => n + 1) }
  g1.place (fun l => if laneBit m l then some { pc := handlerAddress ktvec t.cause, pri := 0, depth := 0 } else none)

/-- R133: the reservations of a group are lost. -/
def State.loseReservations (s : State) (tid gid : Nat) : State :=
  let drop := fun (h : Hub) => { h with reservations := h.reservations.filter (fun r => !(r.team == tid && r.gid == gid)) }
  (s.modHub .h0 drop).modHub .h1 drop

/-- R365: a group takes a trap. It orders no memory access (R330). -/
def State.takeTrap (s : State) (tid gid : Nat) (m : Dword) (t : TrapInfo) : State :=
  match s.team? tid with
  | none => s
  | some team =>
    (s.setTeam (team.modGroup gid (fun g => g.enterTrap team.ktvec m t s.cycle))).loseReservations tid gid

/-- R364: the trap lanes of an asynchronous cause: the highest entry of the current frontier, ready or not. -/
def Group.asyncLanes (g : Group) : Dword :=
  match g.entries.head? with
  | some p => g.entryLanes p
  | none => 0

/-- R370: an asynchronous cause is taken at an issue boundary; TEPC is the address of the highest entry. -/
def State.takeAsync (s : State) (tid gid cause : Nat) (val val2 : Dword) : State :=
  match s.group? tid gid with
  | none => s
  | some g =>
    let m := g.asyncLanes
    s.takeTrap tid gid m { cause := cause, pc := (g.regs.at (lowestLane m)).pc, lanes := m, val := val, val2 := val2 }

/-! ## Checkpointed and paired teams -/

/-- R402: a group as at its arrival at the last commit barrier. -/
def Group.rollBack (g : Group) : Group :=
  { g with
    regs := g.shadow.getD g.regs, waits := [], ages := [], kernelLanes := 0, byTarget := 0, aside := [], staged := none,
    trap := { g.trap with level := .task, plvl := .task, nest := false, lsus := false }, reordAt := none, reordFailed := none,
    handling := none, slotFreed := false, signature := 0, patrolCount := 0, arrivedAt := [], arrGen := g.shadowArr, copiesIssued := 0, retired := false,
    replay := g.replay.map (fun m => { m with pending := true }) }

/-- R402: a team rolls back; every staged access is discarded, its copies are dropped, and RBCNT gains 1. -/
def Team.rollBack (t : Team) (mismatch : Bool) : Team :=
  { t with
    groups := t.groups.map Group.rollBack, barriers := t.shadowBarriers, pairs := t.shadowPairs, staged := [],
    copies := [], feed := [], lineCopies := [], patrolCount := 0, commitQueue := [], life := .rollingBack,
    cores := t.cores.map (fun c => match c.shadowScratch with | some x => { c with scratch := x } | none => c),
    rbcnt := BitVec.ofNat 32 ((t.rbcnt.toNat % 65536 + 1) % 65536 +
      ((t.rbcnt.toNat / 65536 + if mismatch then 1 else 0) % 65536) * 65536) }

/-- R402: rolls a team and its twin back; each finishes by ROLLBACK_COMPLETE. A commit in progress completes first (R401). -/
def State.rollBackTeam (s : State) (tid : Nat) (mismatch : Bool) : State :=
  match s.team? tid with
  | none => s
  | some t =>
    let forget := fun (s : State) (id : Nat) =>
      (((s.team? id).map (fun x => x.groups)).getD []).foldl (fun s g => s.dropAsks (.agent (.group id g.gid))) s
    let one := fun (s : State) (id : Nat) =>
      if (s.team? id).any (fun x => x.committing.isSome) then s.modTeam id (fun x => { x with rollBackAfter := some mismatch })
      else (((forget s id).modTeam id (fun t => t.rollBack mismatch)).queueProgress t).due (.rollbackComplete id)
    match t.twin with
    | some w => one (one s tid) w
    | none => one s tid

/-- R396, R397, R403: lost data in a team: a plain team is killed with 0x50; a staged one rolls back, and is killed at
the second failure since its last commit. -/
def State.dataFailure (s : State) (tid : Nat) : State :=
  match s.team? tid with
  | none => s
  | some t =>
    if t.mode = .plain ∨ t.dataRollback then s.killTeam tid 0x50
    else
      let mark := fun (t : Team) => { t with dataRollback := true }
      let s1 := s.rollBackTeam tid false
      let s2 := s1.modTeam tid mark
      match t.twin with
      | some w => s2.modTeam w mark
      | none => s2

/-- R393, R397: an uncorrectable error in the state of a team; a scalar or array team is killed in every mode. -/
def State.stateLost (s : State) (tid : Nat) : State :=
  match s.team? tid with
  | none => s
  | some t => if t.cls = .vector then s.dataFailure tid else s.killTeam tid 0x50

/-- R396, R403: whether a trap is a poison trap of origin 0x50, which acts on the team. -/
def TrapInfo.lostData (t : TrapInfo) : Bool := decide ((t.cause = 0x0C ∨ t.cause = 0x0D) ∧ t.val = 0x50)

/-- A trap of an instruction: every cause that does not act on the team is taken by the handler. m is the set of trap lanes. -/
def State.meetTrap (s : State) (c : Ctx) (m : Dword) (t : TrapInfo) : State :=
  if t.lostData then s.dataFailure c.tid else s.takeTrap c.tid c.gid m t

/-- A trap of an issuing instruction, which has had an issue slot (R204). -/
def State.raiseTrap (s : State) (c : Ctx) (m : Dword) (t : TrapInfo) : State :=
  if t.lostData then s.dataFailure c.tid
  else (s.takeTrap c.tid c.gid m t).modGroup c.tid c.gid (fun g => g.counted c.group c.pos s.tick)

/-! ## Returning -/

/-- A lane's position that a staged record gives (R175). -/
def stagedPos (staged : List StagedLane) (lane : Nat) : Option StagedLane := staged[lane]?

/-- R175: ERET of a group whose kernel frontier is converged; entry is its lanes. -/
def Group.eret (g : Group) (entry : Dword) : Group :=
  let g1 := match g.trap.rstg, g.staged with
    | true, some st =>
      let g' := g.place (fun l => (stagedPos st l).map (fun x : StagedLane => x.pos))
      { g' with
        regs := { g'.regs with live := maskOf (fun l => match stagedPos st l with | some x => x.live | none => false) }
        staged := none, trap := { g'.trap with rstg := false } }
    | _, _ => g.place (fun l => if laneBit entry l then some { pc := g.trap.epc, pri := g.trap.epri, depth := g.trap.edep } else none)
  let toTask := decide (g.trap.plvl = .task)
  Group.arriveLoop (origin := none) { g1 with
    trap := { g1.trap with level := g.trap.plvl, lsus := false }
    kernelLanes := if toTask then 0 else g1.kernelLanes
    handling := if toTask then none else match g.handling with
      | some (n + 1) => some n
      | _ => none
    byTarget := if g.trap.rstg && g.staged.isSome then 0 else g1.byTarget &&& ~~~entry
    aside := if toTask then [] else g1.aside
    ages := if toTask then g1.ages.filter (fun a => !a.kernel) else g1.ages }

/-! ## Asynchronous causes -/

/-- Adds an asynchronous cause to a group. -/
def Group.post (g : Group) (c : AsyncCause) : Group := { g with async := g.async ++ [c] }

def State.post (s : State) (tid gid : Nat) (c : AsyncCause) : State := s.modGroup tid gid (fun g => g.post c)

/-- The number of an engine (R183). -/
def engineNumber : EngineKind → Nat
  | .access => 0
  | .array => 1
  | .drain => 2
  | .kiln => 3

/-- R371: the rank of an asynchronous cause; patrol causes stand with the events. -/
def AsyncCause.rank : AsyncCause → Nat
  | .preemption _ => 0
  | .harvestRevoke => 1
  | .engineFault e _ _ _ => 2 + engineNumber e
  | .mail _ _ _ => 6
  | .event _ _ _ => 7
  | .patrol _ _ _ => 8

/-- Whether a cause is a report of an engine (R300). -/
def AsyncCause.isEngine : AsyncCause → Bool
  | .engineFault _ _ _ _ => true
  | _ => false

/-- R371: the first cause in rank, the earliest among equals. -/
def firstCause (cs : List AsyncCause) : Option AsyncCause :=
  cs.foldl (fun best c => match best with
    | none => some c
    | some b => if c.rank < b.rank then some c else some b) none

/-- R370, R300, R250: the asynchronous causes that a group may take now: none while a TLBI, PERSIST, SAVEV or RESTV
waits to complete or the highest entry's instruction is in execution, and no engine report inside a handler. -/
def Group.takable (g : Group) : List AsyncCause :=
  if g.current = 0 ∨ g.completingAt.isSome ∨ g.inExecution then []
  else g.async.filter (fun c => match c with
    | .engineFault _ _ _ _ => !g.kernel
    | _ => true)

/-- R373: an asynchronous cause is taken, with its values (R190, R192, R250, R253, R300, R375, R408). -/
def State.takeCause (s : State) (tid gid : Nat) (c : AsyncCause) : State :=
  match c with
  | .preemption resume =>
    s.takeAsync tid gid 0x70 (if resume then 1 else 0) (((s.team? tid).map (fun t => t.saveArea)).getD 0)
  | .harvestRevoke =>
    match s.group? tid gid with
    | some g => s.takeAsync tid gid 0x71 g.revocations g.lost
    | none => s
  | .engineFault e cause word val2 =>
    s.takeAsync tid gid cause.toNat (BitVec.ofNat 64 (engineNumber e + 4 * (word % 2048))) val2
  | .mail name reason reg => s.takeAsync tid gid 0x64 name (BitVec.ofNat 64 (reason % 256 + 256 * (reg % 256)))
  | .patrol cause val val2 => s.takeAsync tid gid cause.toNat val val2
  | .event cause val val2 => s.takeAsync tid gid cause.toNat val val2

/-- A group takes one of its asynchronous causes now, when it is the first that it may take (R371). -/
def State.takeNow (s : State) (tid gid : Nat) (f : AsyncCause → Bool) : State :=
  match s.group? tid gid with
  | none => s
  | some g => match firstCause g.takable with
    | none => s
    | some c =>
      if f c && !g.retired && !g.saved then
        (s.modGroup tid gid (fun g => { g with async := g.async.erase c })).takeCause tid gid c
      else s

/-- A group after a fault of its fetch: at a handler address, at either level, it is a vector fault, and the team is killed
(R367). -/
def State.fetchFault (s : State) (tid gid : Nat) (m : Dword) (t : TrapInfo) : State :=
  match s.team? tid with
  | none => s
  | some team =>
    let atVector := (List.range 6).any (fun k => team.ktvec + BitVec.ofNat 64 (0x100 * k) == t.pc)
    if atVector && (t.cause == 0x06 || t.cause == 0x20 || t.cause == 0x23 || t.cause == 0x26) then
      s.killTeam tid (BitVec.ofNat 8 t.cause)
    else s.takeTrap tid gid m t

end Sys2Proof.Machine
end

