-- ==== Sys2Proof/Machine/Cache.lean ====
section
/-! DEFINITION. The levels between a group and the homes of its accesses (R316 to R319, R343), transactions to other
packages (R426), and how acquires, releases and promotions are performed (R318, R329, R345). -/

namespace Sys2Proof.Machine

/-! ## Agents and scopes -/

/-- The hub an agent of a team is resident on (R321). -/
def State.agentHub (s : State) (tid gid : Nat) : HubId :=
  match s.team? tid with
  | none => .h0
  | some t => match (t.group? gid).bind t.coreOf with
    | some u => unitHub u
    | none => match t.cores.head? with
      | some c => unitHub c.unit
      | none => t.hub

/-- An agent at the moment of an event: its team and group, and the hub it is resident on (R321). -/
structure AgentAt where
  team : Nat
  gid : Nat
  hub : HubId
deriving DecidableEq, Repr

/-- An agent of a team as it stands now. -/
def State.agentNow (s : State) (tid gid : Nat) : AgentAt := { team := tid, gid := gid, hub := s.agentHub tid gid }

/-- R321: whether an agent's instance of a scope includes another agent of this package. -/
def AgentAt.includes (a : AgentAt) (scope : Nat) (b : AgentAt) : Bool :=
  match scope with
  | 0 => a.team == b.team && a.gid == b.gid
  | 1 => a.team == b.team
  | 2 => decide (a.hub = b.hub)
  | _ => true

/-- R321: whether two events, each with its agent and scope, are mutually in scope. -/
def mutuallyInScope (a : AgentAt) (scope : Nat) (b : AgentAt) (scope' : Nat) : Bool :=
  a.includes scope b && b.includes scope' a

/-- The agent of a note (R345). -/
def Note.agent (n : Note) : AgentAt := { team := n.team, gid := n.gid, hub := n.hub }

/-- R329: a narrow release: scope 0, or scope 1 in a team of one core. -/
def Team.narrow (t : Team) (scope : Nat) : Bool := scope == 0 || (scope == 1 && decide (t.cores.length ≤ 1))

/-! ## The store-combining path -/

/-- The line entries that a group still holds in a core's store-combining path. -/
def Core.heldBy (c : Core) (tid gid : Nat) : List Combining := c.combining.filter (fun e => e.team == tid && e.gid == gid)

/-- The entry of a line in a core's path (R316). -/
def Core.entryOf (c : Core) (line : Nat) : Option Combining := c.combining.find? (fun e => e.line == line)

/-- R215, R448: a failure of a group's store, atomic or copy is held for its next fence; after its retirement it kills
the team. -/
def State.holdFailure (s : State) (tid gid : Nat) (f : HeldFailure) : State :=
  match s.group? tid gid with
  | none => s
  | some g => if g.retired then s.killTeam tid f.cause
    else s.modGroup tid gid (fun g => { g with failures := g.failures ++ [f] })

/-- The ring position of a core's chiplet (R188). -/
def unitChiplet : CoreUnit → Nat
  | .vector c => c.chiplet
  | .scalar _ _ => 7
  | .control c => c.chiplet

/-- R429: a group as a master at the targets of its writes, at the level at which it made them. -/
def State.masterSpace (s : State) (h : HubId) (tid gid : Nat) (kernel : Bool) : Option Space :=
  (s.team? tid).map (fun t =>
    let g := t.group? gid
    { asn := t.asn, ptroot := t.ptroot, hub := t.hub, tenant := t.tenant, kernel := kernel, masterHub := h
      pos := (((g.bind t.coreOf).or (t.cores.head?.map (fun c => c.unit))).map unitChiplet).getD 15, tlb := none })

/-- R430: the position of a target that refuses a write, or an RMW, on its arrival, because its table has changed since the check at
translation. -/
def State.refusedLate (s : State) (h : HubId) (tid gid line right : Nat) (kernel : Bool) : Option Nat :=
  (s.masterSpace h tid gid kernel).bind (fun sp => s.refusedBy sp (keyHome (line * 128)) (keyAddress (line * 128)) [right])

/-- R373, R430, R448: how such a refusal is reported: with the address of the first byte of the line that was to be written. -/
def State.lateFailure (s : State) (line pos : Nat) (cells : List (Nat × Byte)) (made : MadeBy) : HeldFailure :=
  { copy := (match made.source with | .copy _ => true | _ => false)
    place := (match made.source with | .copy p => p | _ => 0)
    cause := 0x26, val := made.va + BitVec.ofNat 64 (cells.foldl (fun m c => min m (c.1 % 128)) 127)
    val2 := s.targetWord (keyHome (line * 128)) pos }

/-- Whether an entry's durable bytes fit the persist buffer of their home (R351). -/
def State.entryRoom (s : State) (e : Combining) : Bool := !e.durable || s.roomForKeys (e.bytes.map (fun c => c.1))

/-- Performs one entry of the store-combining path at its home; a line of another package leaves as a request. -/
def State.performEntry (s : State) (h : HubId) (e : Combining) : State :=
  if localHome (keyHome (e.line * 128)) && (s.linkError h e.line).isNone then
    s.homeWriteLine e.line e.bytes (Writer.plain h e.team e.gid e.durable)
  else s.newTxn e.team e.gid h e.line (.write e.bytes { WriteHow.hub e.durable with made := e.made })

/-- An entry leaves a core's path and is performed, or refused by its target (R430). -/
def State.drainEntry (s : State) (u : CoreUnit) (e : Combining) : State :=
  let s1 := s.modCore u (fun c => { c with combining := c.combining.erase e })
  match s.refusedLate (unitHub u) e.team e.gid e.line 1 e.made.kernel with
  | none => s1.performEntry (unitHub u) e
  | some pos => s1.holdFailure e.team e.gid (s.lateFailure e.line pos e.bytes e.made)

/-- Drains the entries of a core's path that a test names, the oldest first (R316); a durable one without room waits at its home, and
later ones pass it (R351, R415). The test names with an entry every older one of its group. n bounds their number. -/
def State.drainWhere (u : CoreUnit) (named : Combining → Bool) : Nat → State → State
  | 0, s => s
  | n + 1, s =>
    match (s.core u).combining.find? (fun e => named e && s.entryRoom e) with
    | none => s
    | some e => State.drainWhere u named n (s.drainEntry u e)

/-- Drains a group's entries, where room allows. -/
def State.drain (s : State) (u : CoreUnit) (tid gid : Nat) : State :=
  State.drainWhere u (fun e => e.team == tid && e.gid == gid) (s.core u).combining.length s

/-- Drains a core's path, where room allows. -/
def State.drainCore (s : State) (u : CoreUnit) : State := State.drainWhere u (fun _ => true) (s.core u).combining.length s

/-- Drains the entry that a core holds for a line, with its group's others (R316, R328). -/
def State.drainLine (s : State) (u : CoreUnit) (line : Nat) : State :=
  match (s.core u).entryOf line with
  | none => s
  | some e => s.drain u e.team e.gid

/-- Whether a core still holds bytes of a line. -/
def State.holdsLine (s : State) (u : CoreUnit) (line : Nat) : Bool := (s.core u).combining.any (fun e => e.line == line)

/-- Whether a group still holds stores that are not performed. -/
def State.holdsStores (s : State) (u : CoreUnit) (tid gid : Nat) : Bool := !((s.core u).heldBy tid gid).isEmpty

/-- The line entries of a store-combining path (R316). -/
def pathEntries : Nat := 32

/-- An entry with later bytes of its group over its own. -/
def Combining.merge (e : Combining) (cells : List (Nat × Byte)) (durable : Bool) (made : MadeBy) : Combining :=
  { e with
    bytes := e.bytes.filter (fun c => !cells.any (fun d => d.1 == c.1)) ++ cells
    durable := e.durable || durable
    made := if e.made.source = .store then made else e.made }

/-- Adds an entry to a core's path; a full path performs its oldest first (R316). -/
def State.addEntry (s : State) (u : CoreUnit) (e : Combining) : State :=
  let s1 := match (s.core u).combining with
    | old :: _ => if pathEntries ≤ (s.core u).combining.length then s.drainEntry u old else s
    | [] => s
  s1.modCore u (fun c => { c with combining := c.combining ++ [e] })

/-- Puts bytes of one line into the store-combining path: merged into the line's entry when that is the group's newest, else
as a new entry after the older one has been performed (R316). -/
def State.combine (s : State) (u : CoreUnit) (new : Combining) : State :=
  match (s.core u).entryOf new.line with
  | some e =>
    if ((s.core u).heldBy new.team new.gid).getLast? = some e then
      s.modCore u (fun c => { c with
        combining := updateWhere (fun x => decide (x = e)) (fun x => x.merge new.bytes new.durable new.made) c.combining })
    else (s.drainLine u new.line).addEntry u new
  | none => s.addEntry u new

/-- Whether a path takes stores of lines without draining one of its entries. -/
def Core.takes (c : Core) (tid gid : Nat) (lines : List Nat) : Bool :=
  (decide (c.combining.length + lines.length ≤ pathEntries) && lines.all (fun l => (c.entryOf l).isNone)) ||
  (match lines with
   | [] => true
   | [l] => ((c.heldBy tid gid).getLast?.any (fun e => e.line == l))
   | _ => false)

/-- R316, R351: readies a core's path for stores of a group to lines, of which keys are durable: none when they must wait for
room in a persist buffer. -/
def State.pathFor (s : State) (u : CoreUnit) (tid gid : Nat) (lines durable : List Nat) : Option State :=
  if (s.core u).takes tid gid lines then some s
  else
    let s1 := s.drainCore u
    if (s1.core u).combining.isEmpty && s1.roomForKeys durable then some s1 else none

/-- R317: the byte that the core's store-combining path holds for a key. -/
def Core.forwarded (c : Core) (k : Nat) : Option Byte :=
  (c.entryOf (lineOfKey k)).bind (fun e => (e.bytes.find? (fun x => x.1 == k)).map (fun x => x.2))

/-- R317: a line as the loads of a core read it: with the bytes that its store-combining path holds. -/
def Core.overlay (c : Core) (line : Nat) (data : List Byte) : List Byte :=
  match c.entryOf line with
  | none => data
  | some e => setCells e.bytes data

/-! ## The vector L1 -/

/-- R318: the bump, with its wrap sweep. -/
def L1.bump (l : L1) : L1 :=
  let g := (l.gen + 1) % 16
  { gen := g, lines := l.lines.filter (fun x => x.tag != g) }

/-- A current line (R318). -/
def L1.current (l : L1) (line : Nat) : Option CacheLine := l.lines.find? (fun x => x.line == line && x.tag == l.gen)

/-- Fills or replaces a line (R317). -/
def L1.fill (l : L1) (line : Nat) (data : List Byte) : L1 :=
  { l with lines := { line := line, tag := l.gen, data := data } :: l.lines.filter (fun x => x.line != line) }

/-- R317: a store's bytes enter a current line, and never allocate one. -/
def L1.store (l : L1) (line : Nat) (cells : List (Nat × Byte)) : L1 :=
  { l with
    lines := updateWhere (fun x => x.line == line && x.tag == l.gen)
      (fun x => { x with data := cells.foldl (fun d c => d.set (c.1 % 128) c.2) x.data }) l.lines }

def L1.drop (l : L1) (line : Nat) : L1 := { l with lines := l.lines.filter (fun x => x.line != line) }

def State.modL1 (s : State) (tid ix : Nat) (f : L1 → L1) : State :=
  s.modTeam tid (fun t => t.modShare ix (fun c => { c with l1 := f c.l1 }))

/-! ## Requests on their way -/

/-- The wts of a line at its home; another package's is not held by this state and is free (log 18). -/
def State.wtsOf (s : State) (line : Nat) : Dword :=
  let home := keyHome (line * 128)
  if localHome home then ((s.hub (homeHub home)).stamp line).wts else Config.freeReading s.tick 41

/-- R329, R345: the writer of a request: a release leaves its note. -/
def Txn.writer (x : Txn) (how : WriteHow) (rmw : Bool) : Writer :=
  { hub := x.hub, team := x.team, gid := x.gid, scope := how.release.getD 0, release := how.release.isSome, rmw := rmw,
    durable := how.durable, published := how.published, holder := how.holder }

/-- The origins of the poison of the bytes of a line (R393). -/
def State.lineOrigins (s : State) (line : Nat) : List Byte := (List.range 128).map (fun i => s.poisonAt (line * 128 + i))

/-- Whether a write of an agent on a core is on its way to another package. -/
def State.writesAway (s : State) (u : CoreUnit) : Bool :=
  s.txns.any (fun x => x.kind.writes &&
    ((s.team? x.team).any (fun t => (t.group? x.gid).any (fun g => decide (t.coreOf g = some u)))))

/-- Whether a group has a write on its way to another package. -/
def State.ownWrites (s : State) (tid gid : Nat) : Bool :=
  s.txns.any (fun x => x.team == tid && x.gid == gid && x.kind.writes)

/-- Whether stores that a core's groups made or may have read are not performed yet. -/
def State.unsettled (s : State) (u : CoreUnit) : Bool := !(s.core u).combining.isEmpty || s.writesAway u

/-! ## Reading -/

/-- The lease that an answer brings enters the RDC, unless the hub is fenced (R344), or has a write to the line on its way (R343). -/
def Hub.takeLease (h : Hub) (line : Nat) (a : TxnAnswer) (writing : Bool) : Hub :=
  if h.fenced || writing then h
  else { h with rdc := { line := line, data := a.data, wts := a.wts, lease := a.lease } :: h.rdc.filter (fun e => e.line != line) }

/-- R344: a hub is fenced: its RDC is emptied. -/
def Hub.fence (h : Hub) (now : Dword) : Hub :=
  if h.fenced then h else { h with fenced := true, fencedAt := now, rdc := [] }

/-- R344: whether the other hub of the package, as a home, answers a hub with guard. -/
def State.guards (s : State) (h : HubId) : Bool :=
  !(s.hub h).fenced && decide ((s.hub h).lclk.toNat + 2 ^ 20 < (s.hub (otherHub h)).lclk.toNat)

/-- R342: the lease end that a home grants a hub on a line: a home of this package extends its rts; what another's holds is free (log
18). -/
def State.grantLease (s : State) (h : HubId) (line : Nat) : State × Dword :=
  let home := keyHome (line * 128)
  let least := (s.hub h).lclk + (s.hub h).llen.setWidth 64
  if localHome home then
    let x := (s.hub (homeHub home)).stamp line
    let e := maxTime x.rts least
    (s.modHub (homeHub home) (fun y => y.setStamp { x with rts := e }), e)
  else (s, maxTime (Config.freeReading s.tick 43) least)

/-- R342, R343: a leased read at a home of this package: the line with its wts and lease end. -/
def State.leaseLine (s : State) (h : HubId) (line : Nat) : State × RdcEntry :=
  let granted := s.grantLease h line
  let entry := { line := line, data := s.homeLine line, wts := s.wtsOf line, lease := granted.2 : RdcEntry }
  (granted.1.modHub h (fun r => { r with rdc := entry :: r.rdc.filter (fun y => y.line != line) }), entry)

/-- R114, R337, R342: whether a read of a hub is leased: the page is cached, the policy lets the L2 level hold it, and the home
is elsewhere. -/
def leasable (h : HubId) (mode policy line : Nat) : Bool :=
  mode == 2 && decide (2 ≤ policy) && keyHome (line * 128) != peerOf h

/-- R342, R430: a request is performed at its home, which answers it, or is refused there and completes with error. -/
def State.performTxn (s : State) (x : Txn) : State :=
  let answer := fun (s1 : State) (data origins : List Byte) (lease : Dword) =>
    (s1.modTxn x.id (fun y => { y with
      answer := some { data := data, origins := origins, wts := s1.wtsOf x.line, lease := lease, failed := 0 } })).due (.transactionResponse x.id)
  let checked := fun (right : Nat) (how : WriteHow) (go : State) =>
    if (s.refusedLate x.hub x.team x.gid x.line right how.made.kernel).isSome then
      (s.modTxn x.id (fun y => { y with error := some 0x26 })).due (.transactionResponse x.id)
    else go
  match x.kind with
  | .write bytes how => checked 1 how (answer (s.homeWriteLine x.line bytes (x.writer how false)) [] [] 0)
  | .rmw r how =>
    checked 2 how (answer (s.rmwAtHome r (x.writer how true)) (s.homeBytes r.key r.size)
      (List.replicate r.size (s.poisonIn r.key r.size)) 0)
  | .read leased =>
    let granted := if leased then s.grantLease x.hub x.line else (s, 0)
    answer (granted.1.ioRead x.line) (s.homeLine x.line) (s.lineOrigins x.line) granted.2

/-- A read that reaches the home: leased, or plain; a hub whose clock is too far behind is answered guard and served plainly
(R342, R344). Of a line of another package the turn asks its home, and takes the answer (R426). A plain read leaves the hub no older copy
of the line (R328). The answer carries the read stamp it contributes (R341). -/
def State.readHome (s : State) (h : HubId) (mode policy line : Nat) : State × List Byte × Dword :=
  let home := keyHome (line * 128)
  let elsewhere := home != peerOf h
  let leased := leasable h mode policy line && !(s.hub h).fenced
  if !localHome home then
    let r := s.ask h line (.read leased)
    (if leased then r.1 else r.1.modHub h (fun x => x.dropRdc line), (r.2.map (fun a => a.data)).getD [], (r.2.map (fun a => a.wts)).getD 0)
  else
    let s1 := if elsewhere && s.guards h then s.modHub h (fun x => x.fence s.tbase) else s
    let s2 := (s1.evictLine line).ioRead line
    if leasable h mode policy line && !(s2.hub h).fenced then
      let r := s2.leaseLine h line
      (r.1, r.2.data, r.2.wts)
    else (s2.modHub h (fun x => x.dropRdc line), s2.homeLine line, if elsewhere then s2.wtsOf line else 0)

/-- A line read beyond the L1 by an agent of a hub: from the RDC under a lease where the read is leasable (R343), else from the
home. -/
def State.readBeyond (s : State) (h : HubId) (mode policy line : Nat) : State × List Byte × Dword :=
  let me := s.hub h
  let held := if leasable h mode policy line && !me.fenced then
      me.rdc.find? (fun e => e.line == line && decide (me.lclk.toNat ≤ e.lease.toNat) && !Config.freeReplaced s.tick line)
    else none
  match held with
  | some e => (s, e.data, e.wts)
  | none => s.readHome h mode policy line

/-- How a load is made. -/
structure LoadHow where
  policy : Nat
  hint : Nat
  mode : Nat
  /-- The page is durable (R338, R350). -/
  durable : Bool
  /-- The load is an acquire (R329). -/
  acquire : Bool
  /-- LDR, served at the home alone (R132, R317). -/
  atHome : Bool
deriving DecidableEq, Repr

/-- The read-only path of a vector chiplet. -/
def State.roPath (s : State) (h : HubId) (chiplet : Nat) : ReadOnlyPath :=
  (s.readOnly.find? (fun p => decide (p.hub = h) && p.chiplet == chiplet)).getD { hub := h, chiplet := chiplet, lines := [] }

def State.setRoPath (s : State) (p : ReadOnlyPath) : State :=
  { s with readOnly := p :: s.readOnly.filter (fun q => !(decide (q.hub = p.hub) && q.chiplet == p.chiplet)) }

/-- Adds a read stamp to a group (R341). -/
def Group.sawStamp (g : Group) (w : Dword) : Group := { g with readStamp := maxTime g.readStamp w }

/-- A line read beyond the L1 as a load asks for it: LDR never takes the RDC's copy. An acquire contributes the wts of what it read, also
where the hub is the home (R341). -/
def State.readFor (s : State) (h : HubId) (how : LoadHow) (line : Nat) : State × List Byte × Dword :=
  let r := if how.atHome then s.readHome h how.mode how.policy line else s.readBeyond h how.mode how.policy line
  if how.acquire && homed h line then (r.1, r.2.1, r.1.wtsOf line) else r

/-- Whether data read beyond the L1 may fill it: of a line of another package, whose answer may be older than a store made meanwhile, only
while the hub holds its lease (R317, R328). -/
def State.mayFill (s : State) (h : HubId) (line : Nat) : Bool :=
  localHome (keyHome (line * 128)) || (s.hub h).rdc.any (fun e => e.line == line)

/-- A line as a vector group's load reads it (R317, R319, R329). In a partition of no size the L1 and the read-only path are off
(R223). A read served by a line that the read-only path already held fills no L1 line (log 69). A hit takes over what the core's path
forwards (R328). -/
def State.vectorLine (s : State) (tid gid ix : Nat) (u : CoreUnit) (line : Nat) (how : LoadHow) : State × List Byte :=
  let share := (s.team? tid).bind (fun t => t.share? ix)
  let sized := decide (0 < (share.map (fun c => c.pooll.size)).getD 0)
  let free := !how.acquire && !how.atHome && sized
  let useL1 := decide (3 ≤ how.policy) && free
  match (if useL1 then (share.map (fun c => c.l1)).bind (fun l => l.current line) else none) with
  | some c => if Config.freeReplaced s.tick line then beyond s useL1 (how.hint == 5 && how.policy == 4 && free) else keep s true c.data
  | none => beyond s useL1 (how.hint == 5 && how.policy == 4 && free)
where
  /-- Fills or replaces the L1's line with the data read, the path's bytes over them. -/
  keep (s : State) (fill : Bool) (data : List Byte) : State × List Byte :=
    let d := (s.core u).overlay line data
    (s.modL1 tid ix (fun l =>
      if !fill && (l.current line).isNone then l else if s.mayFill (unitHub u) line then l.fill line d else l.drop line), d)
  /-- From the read-only path, or beyond it. -/
  beyond (s : State) (fill readOnly : Bool) : State × List Byte :=
    let h := unitHub u
    let ro := s.roPath h (unitChiplet u)
    let sees := fun (r : State × List Byte × Dword) => (r.1.modGroup tid gid (fun g => g.sawStamp r.2.2), r.2.1)
    if readOnly then
      match ro.lines.find? (fun x => x.line == line && !Config.freeReplaced (s.tick + 1) line) with
      | some x => (s, x.data)
      | none =>
        let r := sees (s.readHome h how.mode how.policy line)
        keep (r.1.setRoPath { ro with lines := { line := line, tag := 0, data := r.2 } :: ro.lines.filter (fun x => x.line != line) })
          fill r.2
    else
      let r := sees (s.readFor h how line)
      keep r.1 fill r.2

/-- The directory's number of a scalar core or control core: 0 to 31 and 32 to 43 (R338). -/
def peerNumber : CoreUnit → Nat
  | .scalar _ n => n
  | .control c => 32 + 4 * (c.chiplet - 4) + c.core
  | .vector _ => 0

/-- R433: the class of the chiplet at a ring position: 0 full MOESI peer, 1 I/O-coherent, 2 non-coherent or none. -/
def chipletClass (pos : Nat) : Nat := if pos = 7 then 0 else if pos < 8 then 1 else 2

/-- R434: whether the chiplet of a peer has the class of its position; one that was granted a weaker class caches nothing. -/
def Hub.peerGranted (h : Hub) (peer : Nat) : Bool :=
  let pos := if peer < 32 then 7 else 4 + (peer - 32) / 4
  h.caps.all (fun c => c.pos != pos || decide (c.cls ≤ chipletClass pos))

/-- R114, R337: whether a scalar or control core of a hub may cache a line: homed on its own hub under MODE local or migrate, at
policy 2 or more, with no directory transition in progress. -/
def State.peerCaches (s : State) (h : HubId) (peer mode policy line : Nat) : Bool :=
  homed h line && (s.hub h).peerGranted peer && (mode == 0 || mode == 3) && decide (2 ≤ policy) && ((s.hub h).entry line).pending.isNone

/-- R338: a line as a scalar or control core's load reads it: its own cached copy, taken from the directory where it may be
cached, else the home's. -/
def State.peerLine (s : State) (tid gid : Nat) (h : HubId) (peer line : Nat) (how : LoadHow) : State × List Byte :=
  let s1 := s.evictLine line
  if s1.peerCaches h peer how.mode how.policy line then
    let s2 := if ((s1.hub h).copyOf peer line).isSome then s1 else s1.sharedBy h peer line how.durable
    (if how.acquire then s2.modGroup tid gid (fun g => g.sawStamp (s2.wtsOf line)) else s2,
     ((s2.hub h).copyOf peer line).elim (s2.homeLine line) (fun p => p.data))
  else
    let r := s1.readFor h how line
    (r.1.modGroup tid gid (fun g => g.sawStamp r.2.2), r.2.1)

/-- Bytes of one line as a group's load reads them. -/
def State.loadPiece (s : State) (tid gid ix : Nat) (u : CoreUnit) (k n : Nat) (how : LoadHow) : State × List Byte :=
  let line := lineOfKey k
  match u with
  | .vector _ =>
    let r := s.vectorLine tid gid ix u line how
    let c := r.1.core u
    (r.1, (List.range n).map (fun i => (c.forwarded (k + i)).getD (r.2.getD (k % 128 + i) 0)))
  | u =>
    let r := s.peerLine tid gid (unitHub u) (peerNumber u) line how
    (r.1, (List.range n).map (fun i => r.2.getD (k % 128 + i) 0))

/-! ## A hub as an agent -/

/-- The origin of the poison of bytes of a line that the turn under way reads: of another package's, what its answer tells (R135, R393). -/
def State.originSeen (s : State) (h : HubId) (k n : Nat) : Byte :=
  let line := lineOfKey k
  match if localHome (keyHome k) then none else (s.answerFor h line (.read true)).or (s.answerFor h line (.read false)) with
  | none => s.poisonIn k n
  | some a =>
    if a.failed ≠ 0 then a.failed
    else ((a.origins.drop (k % 128)).take n).foldl (fun acc o => if acc = 0 then o else acc) 0

/-- R236, R437: why an access of a hub to n bytes fails at once: its home cannot be reached, or it is no aligned 8-byte access of the queue
register space. -/
def State.hubReach (s : State) (h : HubId) (x : Xlat) (n : Nat) : Option Byte :=
  match s.linkError h (lineOfKey x.key) with
  | some e => some e
  | none => if (s.queueRegister x.key).isSome && (n != 8 || x.key % 8 != 0) then some 0x25 else none

/-- R236, R321, R342, R348: a hub reads bytes of one line, as the agent that it is, or a register of the queue register space. -/
def State.hubLine (s : State) (sp : Space) (va : Dword) (n : Nat) (x : Xlat) : State × List Byte :=
  let h := sp.masterHub
  match s.queueRegister x.key with
  | some (q, off) => (s.touch sp va .read x, toBytes n (s.readQueueSpace q off).toNat)
  | none =>
  let r := ((s.touch sp va .read x).countMigration h sp.asn va x).readBeyond h x.mode x.pol (lineOfKey x.key)
  (r.1.modHub h (fun y => { y with readStamp := maxTime y.readStamp r.2.2 }), (r.2.1.drop (x.key % 128)).take n)

/-- A hub's read of bytes of one line, with the origin of their poison; what is asked yet has none. -/
def State.hubFetch (s : State) (sp : Space) (va : Dword) (n : Nat) (x : Xlat) : State × List Byte × Byte :=
  let r := s.hubLine sp va n x
  (r.1, r.2, if r.1.asked = s.asked then r.1.originSeen sp.masterHub x.key n else 0)

/-- R373: whether an origin is the error of a request that has failed. -/
def linkOrigin (o : Byte) : Bool := decide (0x60 ≤ o.toNat ∧ o.toNat ≤ 0x62)

/-- R236, R321, R348, R351, R426: a hub writes bytes of one line, as the agent that it is, or a register of the queue register space. -/
def State.hubStore (s : State) (sp : Space) (va : Dword) (x : Xlat) (bytes : List Byte) : State :=
  let h := sp.masterHub
  match s.queueRegister x.key with
  | some (q, off) => (s.touch sp va .write x).writeQueueSpace q true off (BitVec.ofNat 64 (ofBytes bytes))
  | none =>
  let s1 := (s.touch sp va .write x).countMigration h sp.asn va x
  if !localHome x.home then
    s1.newTxn (hubTeam h) 0 h (lineOfKey x.key) (.write (cellsFrom x.key bytes) (WriteHow.hub x.dur))
  else
  let keys := if x.dur then (List.range bytes.length).map (fun i => x.key + i) else []
  (State.makeRoom keys ((s1.hub .h0).persist.length + (s1.hub .h1).persist.length) s1).homeWrite x.key bytes
    { hubWriter h with durable := x.dur }

/-! ## Staging -/

/-- R400: the bytes that a team's staged stores give over memory, in staging order. -/
def stagedByte (st : List Staged) (k : Nat) (b : Byte) : Byte :=
  st.foldl (fun b e =>
    if (e.kind = 1 ∨ e.kind = 3 ∨ e.kind = 2) ∧ e.address ≤ k ∧ k < e.address + e.bytes.length then e.bytes.getD (k - e.address) b else b) b

/-- Bytes that a group of a team reads: the team's staged bytes before memory (R400). -/
def State.groupLoad (s : State) (tid gid ix : Nat) (u : CoreUnit) (k n : Nat) (how : LoadHow) : State × List Byte :=
  let r := s.loadPiece tid gid ix u k n how
  let st := ((s.team? tid).map (fun t => t.staged)).getD []
  (r.1, if st = [] then r.2 else r.2.zipIdx.map (fun x => stagedByte st (k + x.2) x.1))

/-! ## Writing -/

/-- How a store is made. -/
structure StoreHow where
  policy : Nat
  mode : Nat
  durable : Bool
  made : MadeBy
deriving DecidableEq, Repr

/-- A relaxed store of a group to memory, within one line (R317, R329): a vector group's enters the store-combining
path, unless the effective policy is device; a scalar or control core writes its own exclusive copy, taken from the directory
(R338), or the home. -/
def State.groupStore (s : State) (tid gid ix : Nat) (u : CoreUnit) (line : Nat) (cells : List (Nat × Byte)) (how : StoreHow) :
    State :=
  let entry : Combining := { team := tid, gid := gid, line := line, bytes := cells, durable := how.durable, made := how.made }
  match u with
  | .vector _ =>
    let s1 := s.modL1 tid ix (fun l => l.store line cells)
    if how.policy = 0 then (s1.drainLine u line).performEntry (unitHub u) entry
    else (s1.combine u entry).modHub (unitHub u) (fun h => h.dropRdc line)
  | u =>
    let h := unitHub u
    let s1 := s.evictLine line
    if s1.peerCaches h (peerNumber u) how.mode how.policy line && !how.durable then
      let mine := (s1.hub h).copyOf (peerNumber u) line
      let s2 := if mine.any (fun p => decide (p.state = .E ∨ p.state = .M)) then s1
        else (s1.invalidateOthers h (peerNumber u) line).grantM h (peerNumber u) line
      s2.peerWrite h (peerNumber u) line cells (Writer.plain h tid gid false)
    else s1.performEntry h entry

/-! ## Acquire and release -/

/-- R318, R341: an acquire at a scope, after its read: the bump when it reaches beyond the core, and the lease clock. -/
def State.acquire (s : State) (tid gid ix scope : Nat) (u : CoreUnit) (promoted : Bool) : State :=
  match s.team? tid with
  | none => s
  | some t =>
    let beyond := promoted || decide (2 ≤ scope) || (scope == 1 && decide (1 < t.cores.length))
    let s1 := if beyond then s.modL1 tid ix L1.bump else s
    if 3 ≤ scope ∨ promoted then
      let stamp := ((t.group? gid).map (fun g => g.readStamp)).getD 0
      (s1.modHub (unitHub u) (fun h => h.raise stamp)).modGroup tid gid (fun g => { g with readStamp := 0 })
    else s1

/-- R345: the notes of a line that an acquire by an agent at a scope is promoted against. -/
def State.promoting (s : State) (a : AgentAt) (scope line : Nat) : List Note :=
  (s.hub (homeHub (keyHome (line * 128)))).notes.filter (fun n => n.line == line && !mutuallyInScope n.agent n.scope a scope)

/-- R345, R346: whether every write ordered before a release has been performed. A narrow release may be ordered after the stores
of its core's other groups, so the core's path is asked whole (log 70). -/
def State.noteSettled (s : State) (n : Note) : Bool :=
  (match n.core with
   | none => true
   | some c => !s.unsettled (.vector c)) && !s.ownWrites n.team n.gid

/-- R345: publishes a release: the holder core drains its entries, and the note is marked once they are performed, with the clock of
its writer's hub, which their acknowledgements have raised (R341). -/
def State.publish (s : State) (n : Note) : State :=
  let s1 := match n.core with
    | some c => s.drainCore (.vector c)
    | none => s
  if s1.noteSettled n then
    s1.modHub (homeHub (keyHome (n.line * 128))) (fun h => { h with
      notes := updateWhere (fun x => decide (x = n)) (fun x => { x with published := true, core := none, clock := (s1.hub n.hub).lclk }) h.notes })
  else s1

/-- R345: whether the note of a line was dropped. -/
def State.noteDropped (s : State) (line : Nat) : Bool :=
  (s.hub (homeHub (keyHome (line * 128)))).dropped.contains line

/-- The unpublished releases that a promoted acquire of lines waits for (R345). -/
def State.unpublished (s : State) (a : AgentAt) (scope : Nat) (lines : List Nat) : List Note :=
  (lines.flatMap (fun l => s.promoting a scope l)).filter (fun n => !n.published)

/-- R345: what an acquire asks before it reads: the releases it is promoted against are published, as far as they can be. -/
def State.publishFor (s : State) (a : AgentAt) (scope : Nat) (lines : List Nat) : State :=
  (s.unpublished a scope lines).foldl (fun s n => s.publish n) s

/-- R345: an acquire read or RMW of lines: promoted where a note asks for it. Its LCLK passes the writes ordered before the release that it
is promoted against, also where they were performed after it (R326, R341; log 70). -/
def State.acquireLines (s : State) (tid gid ix scope : Nat) (u : CoreUnit) (lines : List Nat) : State :=
  let a : AgentAt := { team := tid, gid := gid, hub := unitHub u }
  let notes := lines.flatMap (fun l => s.promoting a scope l)
  let promoted := !notes.isEmpty || lines.any s.noteDropped
  let s1 := s.modGroup tid gid (fun g => notes.foldl (fun g n => g.sawStamp n.clock) g)
  s1.acquire tid gid ix scope u promoted

/-- R116: whether a WB of a group is still at work: a line that it named is held or on its way. -/
def State.maintaining (s : State) (u : CoreUnit) (tid gid : Nat) : Bool :=
  let lines := ((s.group? tid gid).map (fun g => g.maintenance)).getD []
  lines.any (fun l => ((s.core u).heldBy tid gid).any (fun e => e.line == l) ||
    s.txns.any (fun x => x.team == tid && x.gid == gid && x.line == l))

/-- R124, R313, R329: what a release at a scope still waits for: copies, maintenance, and at a wide scope every store that the
group made or may have read. The state is the one after the path has been drained as far as it can be. -/
def State.releaseWait (s : State) (t : Team) (gid scope : Nat) (u : CoreUnit) : Option WaitKind :=
  if t.copies.any (fun c => c.gid == gid) then some .copies
  else if s.maintaining u t.id gid then some .transaction
  else if t.narrow scope then none
  else if s.unsettled u || s.txns.any (fun x => x.team == t.id && x.gid == gid) then some .transaction
  else none

/-- The stores performed as a release at a scope requires: those that a WB named, and at a wide scope all that the core's path
holds, since the group may have read them (R313, R328, R329). -/
def State.releaseDrain (s : State) (t : Team) (gid scope : Nat) (u : CoreUnit) : State :=
  if t.narrow scope then if s.maintaining u t.id gid then s.drain u t.id gid else s
  else s.drainCore u

end Sys2Proof.Machine
end

