-- ==== Sys2Proof/Machine/Issue.lean ====
section
/-! DEFINITION. How a main-word instruction issues: the entry and its active lanes (R12, R204), the decode checks
(R24), waits for held registers (R189), the body, and how the lanes move after it (R57). -/

namespace Sys2Proof.Machine

/-- What the body of a main-word instruction answers. -/
inductive Res where
  /-- Completes; every live lane of the entry goes to the fall-through address (R57). -/
  | done (s : State)
  /-- Completes as a control instruction: where lanes go, those that reach a target (R20), and the target of a
  transfer (R69). -/
  | moved (s : State) (pos : Nat → Option LanePos) (taken : Dword) (target : Option Dword)
  /-- Raises a trap before any effect; the trap lanes are the whole entry (R364). -/
  | trap (t : TrapInfo)
  /-- Raises a trap that leaves a changed state: the report of a failure that was held (R135, R448). -/
  | fails (s : State) (t : TrapInfo)
  /-- TRAP and SYSC: the given lanes trap, the others go to the fall-through address (R174). -/
  | call (m : Dword) (t : TrapInfo)
  /-- The entry waits and issues again later (R207). -/
  | wait (s : State) (k : WaitKind)
  /-- Nothing moves: the group's position is as the state says. -/
  | gone (s : State)

/-- The instruction after this one (R57). -/
def fallPc (c : Ctx) (w : MainWord) : Dword := c.pos.pc + BitVec.ofNat 64 (8 + 4 * w.lits.count)

/-- The group that issues, before the guard is known. -/
def State.issuer (s : State) : Option (Team × Group × CoreUnit × LanePos) :=
  match s.next with
  | .agent (.group tid gid) =>
    match s.team? tid with
    | none => none
    | some t =>
      match t.group? gid with
      | none => none
      | some g =>
        match t.coreOf g, g.issuing with
        | some u, some p => some (t, g, u, p)
        | _, _ => none
  | _ => none

/-- R12, R42: the context of an instruction: its entry lanes, and those its guard makes active. -/
def ctxFor (t : Team) (g : Group) (u : CoreUnit) (p : LanePos) (w : MainWord) : Ctx :=
  let entry := g.entryLanes p
  let guard := g.regs.p w.pred.toNat
  let poison := entry &&& g.regs.pPoison w.pred.toNat
  { tid := t.id, team := t, group := g, unit := u, hub := unitHub u, pos := p, kernel := g.kernel, entry := entry,
    active := entry &&& ((if w.neg then ~~~guard else guard) ||| poison), guardPoison := poison }

/-- The context of a main-word instruction in a state where a group issues. -/
def State.ctx (s : State) (w : MainWord) : Option Ctx :=
  s.issuer.map (fun x => ctxFor x.1 x.2.1 x.2.2.1 x.2.2.2 w)

/-- The address space of an issuing group's accesses (R377, R380, R429). -/
def Ctx.space (c : Ctx) : Space :=
  { asn := c.team.asn, ptroot := c.team.ptroot, hub := c.team.hub, tenant := c.team.tenant, kernel := c.kernel,
    masterHub := c.hub, pos := unitChiplet c.unit, tlb := some c.unit }

/-- The share of the issuing group's team on its core. -/
def Ctx.share (c : Ctx) : CoreShare :=
  (c.team.share? c.group.coreIx).getD (CoreShare.bare c.unit 0)

/-- The v registers that an instruction reads, and those that its destinations name (R8). -/
def Sig.vregs (g : Sig) (w : MainWord) : List Nat × List Nat :=
  let of := fun (code : Byte) (width : Nat) => if !isV code then [] else
    (List.range (max 1 (width / 32))).map (fun i => code.toNat + i)
  let src := (g.sources w).flatMap (fun f => of f.2.1 f.2.2.width) ++ g.reads
  let dst := (g.fields w).flatMap (fun f => match f.2.2 with | .dst width _ => of f.2.1 width | _ => [])
  (src, dst)

/-- A held register among those given (R189). -/
def Group.held (g : Group) (regs : List Nat) : Option Nat :=
  regs.find? (fun n => g.mailboxes.any (fun m => m.armed && m.reg == n))

/-- R189, R341: the first read of a register that mail released is an acquire at the HOLD's scope. -/
def State.readMail (s : State) (c : Ctx) (regs : List Nat) : State :=
  (c.group.mailboxes.filter (fun m => m.delivered && regs.contains m.reg)).foldl (fun s m =>
    let s1 := s.acquire c.tid c.gid c.group.coreIx m.scope c.unit (m.senderInScope && decide (2 ≤ m.scope))
    let s2 := if 3 ≤ m.scope then s1.modHub c.hub (fun h => h.raise m.senderClock) else s1
    s2.modGroup c.tid c.gid (fun g => { g with mailboxes := g.mailboxes.filter (fun x => !(x.delivered && x.reg == m.reg)) })) s

/-- R408: an instruction completes at task level. -/
def State.progress (s : State) (tid gid : Nat) (kernel : Bool) : State :=
  if kernel then s
  else
    match s.team? tid with
    | none => s
    | some t =>
      (s.setTeam { (t.modGroup gid (fun g => { g with patrolCount := 0 })) with patrolCount := 0 }).queueProgress t

/-- Moves the issuing entry's lanes, and brings the loops and the ageing records up to date (R57, R68, R204). -/
def State.advance (s : State) (c : Ctx) (pos : Nat → Option LanePos) (taken : Dword) (target : Option Dword) : State :=
  let move := fun (g : Group) =>
    let g0 := (g.unwait c.pos).place pos
    let g1 := { g0 with byTarget := (g0.byTarget &&& ~~~c.entry) ||| taken }
    let g2 := (match target with | some x => g1.transferLoop c.pos.pc x | none => g1).arriveLoop (some c.pos.pc)
    g2.counted c.group c.pos s.tick
  (s.modGroup c.tid c.gid move).progress c.tid c.gid c.kernel

/-- R57: after an instruction that is no control instruction, every live lane of the entry moves to the
fall-through address. -/
def fallThrough (c : Ctx) (w : MainWord) (lane : Nat) : Option LanePos :=
  if laneBit c.entry lane then some { c.pos with pc := fallPc c w } else none

/-- R204: the slot of an instruction whose wait itself completes it counts when the wait begins; any other wait's instruction
issues again, and its slot counts then. -/
def Group.slotOfWait (g : Group) (c : Ctx) (k : WaitKind) (tick : Nat) : Group :=
  match k with
  | .barrier _ _ | .fence _ _ | .closing _ => g.counted c.group c.pos tick
  | _ => g

/-- The state after a body's answer. -/
def settle (s : State) (c : Ctx) (w : MainWord) : Res → State
  | .done s1 => s1.advance c (fallThrough c w) 0 none
  | .moved s1 pos taken target => s1.advance c pos taken target
  | .trap t => s.raiseTrap c c.entry t
  | .fails s1 t => s1.raiseTrap c c.entry t
  | .call m t =>
    let s1 := s.modGroup c.tid c.gid (fun g =>
      { g.place (fun l => if laneBit m l then none else fallThrough c w l) with byTarget := g.byTarget &&& ~~~c.entry })
    (s1.takeTrap c.tid c.gid m t).modGroup c.tid c.gid (fun g => g.counted c.group c.pos s.tick)
  | .wait s1 k => s1.modGroup c.tid c.gid (fun g => (g.slotOfWait c k s.tick).wait c.pos k (fallPc c w))
  | .gone s1 => s1

/-- The cycle in which the instruction of an entry started: now, when it has not started before (R179). -/
def Group.startOf (g : Group) (p : LanePos) (now : Dword) : Dword :=
  (g.waits.findSome? (fun w => if w.entry = p ∧ w.kernel = g.kernel then (match w.kind with
    | .rereading start => some start
    | .remote start _ => some start
    | _ => none) else none)).getD now

/-- An instruction of a group is taken back because it asked for what it has no answer to: its requests leave behind the stores that its
core's path holds for their lines (R328), and its entry waits (log 83). -/
def State.underWay (s : State) (tid gid : Nat) (u : CoreUnit) (p : LanePos) (asks : List Ask) : State :=
  let s1 := asks.foldl (fun (s : State) a => s.drainLine u a.line) s
  (s1.postAsks (asks.filter (fun a => !s1.holdsLine u a.line))).modGroup tid gid (fun g =>
    g.wait p (.remote (g.startOf p s.cycle) false) p.pc)

/-- What a body's answer asks of another package: a walk's line (R379), or the reads and RMWs that its state notes. -/
def Res.asks (s : State) (c : Ctx) (w : MainWord) (r : Res) : List Ask :=
  match r with
  | .trap t => if t.cause = walkAsks then [{ hub := c.hub, line := t.val.toNat, kind := .read false }] else []
  | r => (settle s c w r).asked

/-- Whether a wait's instruction has not done its part yet, and issues again. -/
def WaitKind.issuesAgain : WaitKind → Bool
  | .barrier _ _ | .fence _ _ | .closing _ | .reorder _ | .memoryWord _ _ _ | .completes _ => false
  | _ => true

/-- The end of a main word: its effects, with the answers it was given used up; or it is taken back and waits. One whose requests have been
answered and that has to wait yet keeps its answers, and stays under way. -/
def closeMain (s : State) (c : Ctx) (w : MainWord) (r : Res) : State :=
  match r.asks s c w with
  | [] => (match r with
    | .wait s1 k =>
      if k.issuesAgain && s.arrived.any (fun a => decide (a.asker = s.next)) then s1.underWay c.tid c.gid c.unit c.pos []
      else (settle s c w r).answersUsed
    | r => (settle s c w r).answersUsed)
  | asks => s.underWay c.tid c.gid c.unit c.pos asks

/-- R207: the memory instructions, which wait behind a PERSIST, SAVEV or RESTV of their group (DEDUCED, log 72): those of R106 that
access global memory or scratchpad or order such accesses, WAITE, SAVEV and RESTV. -/
def memoryInstruction (op : BitVec 10) : Bool :=
  decide (0x280 ≤ op.toNat ∧ op.toNat ≤ 0x305) || [0x386, 0x38A, 0x38B].contains op.toNat

/-- A main-word instruction: the decode checks, the waits of R207 for held registers and behind an instruction that still completes,
then the body. -/
def runMain (s : State) (g : Sig) (w : MainWord) (body : State → Ctx → Res) : Host.Outcome State Fault Refusal :=
  match s.ctx w with
  | none => .refused .noExecutingUnit
  | some c =>
    match g.check c w with
    | some t => .next (settle s c w (.trap t)).answersUsed
    | none =>
      let regs := g.vregs w
      match c.group.held (regs.1 ++ regs.2) with
      | some n => .next (settle s c w (.wait s (.heldRegister n))).answersUsed
      | none =>
        if memoryInstruction g.op && c.group.completingAt.any (fun p => decide (p ≠ c.pos)) then
          .next (settle s c w (.wait s .behind)).answersUsed
        else if c.group.mailboxes.any (fun m => m.delivered && regs.1.contains m.reg) then
          let s1 := s.readMail c regs.1
          match s1.ctx w with
          | some c1 => .next (closeMain s1 c1 w (body s1 c1))
          | none => .next s1
        else .next (closeMain s c w (body s c))

/-- Replaces the issuing group. -/
def Ctx.put (c : Ctx) (s : State) (g : Group) : State := s.setGroup c.tid g

/-- Whether a core is an array cluster's control core. -/
def isControlCore : CoreUnit → Bool
  | .control _ => true
  | _ => false

/-- R183: whether a control core issues. -/
def State.controlIssuer (s : State) : Bool :=
  match s.issuer with
  | none => false
  | some (_, _, u, _) => isControlCore u

/-- R25: the trap of a word whose opcode is not assigned, at the issuing entry. -/
def State.illegalWord (s : State) (w : MainWord) (word : Dword) : State :=
  match s.ctx w with
  | none => s
  | some c => s.raiseTrap c c.entry (c.whole 0x01 word 0)

/-- R24: what the decode checks know of a word whose M names no form of its opcode: the profiles, the privilege, and the
operand fields that every form of the opcode reads (DEDUCED, log 67). -/
def reservedSig (op : BitVec 10) (control : Bool) : Sig :=
  match op.toNat with
  | 0x388 => { op := op, inS := control, inV := false, a := uniformSource, mOk := false, imm := true }
  | 0x38A => { op := op, inS := false, privileged := true, a := uniformAddress, mOk := false }
  | 0x38B => { op := op, inS := false, privileged := true, a := uniformAddress, mOk := false }
  | 0x390 => { op := op, inS := false, d := .dst 64 statusCode, mOk := false }
  | 0x295 => { op := op, inS := false, mOk := false }
  | _ => { op := op, mOk := false }

/-- R24: the trap of a word whose M names no form of its opcode. -/
def State.reservedWord (s : State) (w : MainWord) (op : BitVec 10) : State :=
  match s.ctx w with
  | none => s
  | some c => match (reservedSig op s.controlIssuer).check c w with
    | some t => s.raiseTrap c c.entry t
    | none => s

/-- Whether any lane of a mask has a true bit in a test: for poison met by lanes (R364). -/
def lanesWith (m : Dword) (f : Nat → Bool) : Dword := m &&& maskOf f

/-- A trap met by some lanes (R364). -/
def Ctx.someLanes (c : Ctx) (cause : Nat) (lanes val val2 : Dword) : TrapInfo :=
  { cause := cause, pc := c.pos.pc, lanes := lanes, val := val, val2 := val2 }

/-- A memory cause of an instruction that acts once for the group: every active lane meets it (R364, R372). -/
def Ctx.active_ (c : Ctx) (cause : Nat) (val val2 : Dword) : TrapInfo := c.someLanes cause c.active val val2

/-- The origin of a poisoned register operand (R395). -/
def Ctx.origin (c : Ctx) : Dword := c.group.regs.porig.cause.setWidth 64

/-- The lanes that meet poison in an operand: an operand common to the instruction names the whole entry (R364). -/
def Ctx.poisonLanes (c : Ctx) (code : Byte) (o : Opnd) : Dword :=
  let hit := lanesWith c.active o.poison
  if isV code || decide (hit = 0) then hit else c.entry

/-- Poison at store or at branch (R42, R110, R364), in the guard or in one of the given operands, each with its code and
field. TVAL2 holds the first poisoned operand's field; for a guard alone the manual gives no field, and the value is
free (log 19). -/
def Ctx.poisonTrap (c : Ctx) (s : State) (cause : Nat) (ops : List (Byte × Nat × Opnd)) : Option TrapInfo :=
  let lanes := ops.foldl (fun m o => m ||| c.poisonLanes o.1 o.2.2) c.guardPoison
  if lanes = 0 then none
  else
    let field := match ops.find? (fun o => decide (c.poisonLanes o.1 o.2.2 ≠ 0)) with
      | some o => BitVec.ofNat 64 o.2.1
      | none => Config.freeReading s.tick 42
    some (c.someLanes cause lanes c.origin field)

end Sys2Proof.Machine
end

