-- ==== Sys2Proof/Machine/Results.lean ====
section
/-! DEFINITION. How a computational instruction delivers its results: the shape of a result (R41), its poison (R42), the
register or predicate write, in scalar and in vector form (R9). -/

namespace Sys2Proof.Machine

/-- R41: the shape of a result from its sources; affine, with base and stride, only where an instruction's row says so. -/
def resultShape (srcs : List Opnd) (affine : Option (Word × Word)) : Shape × Word × Word :=
  if srcs.all (fun o => decide (o.shape = .uniform)) then (.uniform, 0, 0)
  else match affine with
    | some (b, t) => (.affine, b, t)
    | none => (.general, 0, 0)

/-- R42: the OR of the poison that sources carry for a lane. -/
def anyPoison (srcs : List Opnd) (lane : Nat) : Bool := srcs.any (fun o => o.poison lane)

/-- An operand that is uniform or affine (R41). -/
def Opnd.linear (o : Opnd) : Bool := decide (o.shape ≠ .general)

/-- Delivers a result to field D: the shape trap of R41 first, then the write in the active lanes. -/
def deliver (s : State) (c : Ctx) (g : Sig) (w : MainWord) (width : Nat) (r : RVal) : Res :=
  let scalar := g.scalarForm c.vector w
  match (if scalar then none else destShapeCheck c w.d width (r.written c)) with
  | some t => .trap t
  | none => if c.active = 0 then .done s else .done (c.put s (writeDest c c.group scalar w.d width r))

/-- A lane-by-lane operation on the bits of its operands at a type; affine tells base and stride where R41 gives them. -/
def elementwise (g : Sig) (w : MainWord) (ty : OTy) (srcs : Ctx → List Opnd) (affine : Ctx → Option (Word × Word))
    (f : Ctx → Nat → Dword) (s : State) (c : Ctx) : Res :=
  let sh := resultShape (srcs c) (affine c)
  deliver s c g w ty.width
    { shape := sh.1, base := sh.2.1, stride := sh.2.2, val := fun l => extendTo ty (f c l),
      poison := anyPoison (srcs c) }

/-- Writes a predicate in the active lanes (R50), with its poison (R42). -/
def deliverPred (s : State) (c : Ctx) (pd : Nat) (val poison : Nat → Bool) : Res :=
  .done (c.put s { c.group with
    regs := c.group.regs.setP pd c.active (maskOf val) (maskOf poison ||| c.guardPoison) })

/-- Whether the group that issues is of the V profile. -/
def State.vectorIssuer (s : State) : Bool :=
  match s.issuer with
  | some (_, g, _, _) => decide (g.profile = Profile.V)
  | none => true

end Sys2Proof.Machine
end

