-- ==== Sys2Proof/Machine/Staging.lean ====
section
/-! DEFINITION. Posted mail (R190), and what a checkpointed or paired team
stages and commits (R398 to R407). -/

namespace Sys2Proof.Machine

/-! ## Mail -/

/-- R188: the package and hub of a name. -/
def namePackage (n : Dword) : Nat := bits n 63 54
def nameHub (n : Dword) : HubId := hubOfNumber (bits n 53 53)

/-- R418: the index of a mail's plane. -/
def mailIndex (name : Dword) : Nat := bits name 39 37 ^^^ bits name 45 43

/-- Whether a name's package is another one. -/
def State.nameAway (s : State) (name : Dword) : Bool := decide (namePackage name ≠ s.flash.package)

/-- R190, R421, R425, R427, R437: whether mail of a hub cannot leave for a name: its package is absent or failed, no plane is live, or a
failed bridge stands between, in which case it is refused with reason 4. -/
def State.mailCut (s : State) (h : HubId) (name : Dword) : Bool :=
  if s.nameAway name then
    !s.packages.any (fun p => p.package == namePackage name && decide (p.state = .up ∨ p.state = .recovering)) ||
      decide ((s.hub h).plst = 0) ||
      ((s.hub h).plst.getLsbD ((s.hub h).planeOf (mailIndex name)) && s.planeCut h ((s.hub h).planeOf (mailIndex name)))
  else decide (nameHub name ≠ h) && !s.bridgeUp

/-- R135, R190: mail takes an outstanding-transaction entry: one that an outcome already answers, or one that is held or leaves on a
plane (R418, R421, R423); what goes to this package's own directories takes no plane. -/
def State.enterMail (s : State) (m : Mail) : State :=
  let away := s.nameAway m.name
  let held := away && s.moving m.hub (mailIndex m.name)
  let plane := if away && !held && m.outcome.isNone then (s.hub m.hub).planeOf (mailIndex m.name) else heldPlane
  let s1 := { s with nextTxn := s.nextTxn + 1, mails := s.mails ++ [{ m with plane := plane }] }
  if m.outcome.isSome then s1.due (.mailAck m.id)
  else if held then s1
  else (if away then s1.sent plane else s1).due (.mailArrival m.id)

/-- R190: posts mail; its arrival at the directory comes due. -/
def State.postMail (s : State) (tid gid : Nat) (h : HubId) (name : Dword) (reg : Nat) (key : Half) (words : List Word)
    (scope : Nat) : State :=
  s.enterMail
    { id := s.nextTxn, team := tid, gid := gid, hub := h, name := name, reg := reg, key := key, words := words, scope := scope
      clock := (s.hub h).lclk, plane := heldPlane, outcome := if s.mailCut h name then some 4 else none, forward := false, issued := s.tbase }

/-! ## Staging -/

/-- R405: one step of the CRC-64, most significant bit first. -/
def crcBit (c : Dword) : Dword := if c.getLsbD 63 then (c <<< 1) ^^^ 0x42F0E1EBA9EA3693 else c <<< 1

/-- R405: a byte fed to the CRC-64. -/
def crcByte (c : Dword) (b : Byte) : Dword :=
  let x := c ^^^ (b.setWidth 64 <<< 56)
  crcBit (crcBit (crcBit (crcBit (crcBit (crcBit (crcBit (crcBit x)))))))

/-- R405: the CRC-64 of bytes from a value. -/
def crc64 (c : Dword) (bs : List Byte) : Dword := bs.foldl crcByte c

/-- R405: the record of a staged access. -/
def Staged.record (e : Staged) : List Byte :=
  let data := if e.kind = 2 then e.operand else e.bytes
  toBytes 8 e.va.toNat ++ [BitVec.ofNat 8 e.kind, BitVec.ofNat 8 e.op] ++ toBytes 2 data.length ++ data

/-- R399, R400: whether a team stages its accesses. -/
def Team.staging (t : Team) : Bool := decide (t.mode ≠ .plain)

/-- R400: the lines of a team's staging area. -/
def stagedLines (st : List Staged) : List Nat :=
  ((st.filter (fun e => e.kind != 4)).map (fun e => lineOfKey e.address)).eraseDups

/-- R400, R405: stages an access; one that needs a line beyond the capacity kills the team. -/
def State.stage (s : State) (tid : Nat) (e : Staged) : State :=
  match s.team? tid with
  | none => s
  | some t =>
    let st := t.staged ++ [e]
    if 8192 < (stagedLines st).length then s.killTeam tid 0x52
    else
      let sign := fun (g : Group) => if t.mode = .paired then { g with signature := crc64 g.signature e.record } else g
      s.setTeam ({ t with staged := st }.modGroup e.gid sign)

/-- R406: a mismatch between twins: both roll back, and the second since their last commit kills them. -/
def State.pairMismatch (s : State) (tid : Nat) : State :=
  match s.team? tid with
  | none => s
  | some t =>
    if t.pairMismatch then s.killTeam tid 0x51
    else
      let mark := fun (x : Team) => { x with pairMismatch := true }
      let s1 := (s.rollBackTeam tid true).modTeam tid mark
      match t.twin with
      | some w => s1.modTeam w mark
      | none => s1

/-! ## Commits -/

/-- Whether a write of a team is on its way to another package. -/
def State.teamWrites (s : State) (tid : Nat) : Bool :=
  s.txns.any (fun x => x.team == tid && x.kind.writes)

/-- How a staged access is made at its home: a staged release is published when it is performed (R346). -/
def Staged.how (e : Staged) : WriteHow :=
  { durable := e.durable, release := if e.release then some e.scope else none, published := true, holder := none
    made := { source := .store, va := e.va - BitVec.ofNat 64 (e.address % 128), kernel := e.kernel } }

/-- Whether a staged store is one write with another: of the same instruction, on the same line, and to no register (R236, R412). -/
def State.oneWrite (s : State) (e x : Staged) : Bool :=
  e.kind == 1 && x.kind == 1 && e.gid == x.gid && e.instr == x.instr && lineOfKey e.address == lineOfKey x.address &&
  (s.queueRegister e.address).isNone

/-- The bytes of staged stores, a later one's over an earlier one's (R113). -/
def stagedCells (es : List Staged) : List (Nat × Byte) :=
  es.foldl (fun cells e =>
    let new := cellsFrom e.address e.bytes
    cells.filter (fun c => !new.any (fun d => d.1 == c.1)) ++ new) []

/-- A staged access performed (R401), with the others of its instruction on its line, whose bytes make one write (R412): a write, an RMW on
what memory holds then, a store to a register (R236), or mail. A release waits for the acknowledgement of every earlier staged write
(R346), and a durable write for room (R351): then none. -/
def State.performStaged (s : State) (t : Team) (e : Staged) (others : List Staged) : Option State :=
  let h := s.agentHub t.id e.gid
  let cells := stagedCells (e :: others)
  let line := lineOfKey e.address
  let w : Writer := { hub := h, team := t.id, gid := e.gid, scope := e.scope, release := e.release, rmw := decide (e.kind = 2),
                      durable := e.durable, published := true, holder := none }
  let remote := !localHome (keyHome e.address) || (s.linkError h (lineOfKey e.address)).isSome
  if (e.release && s.teamWrites t.id) || (e.durable && !s.roomForKeys (cells.map (fun c => c.1))) then none
  else match e.kind, s.queueRegister e.address with
  | 4, _ =>
    let words := (List.range 64).map (fun i => BitVec.ofNat 32 (ofBytes ((e.bytes.drop (4 * i)).take 4)))
    some (s.postMail t.id e.gid h e.va e.mailReg e.mailKey words e.scope)
  | 2, _ =>
    let r : RmwWord := { key := e.address, size := e.bytes.length, lane := 0, op := e.op, operand := e.operand }
    some (if remote then s.newTxn t.id e.gid h line (.rmw r e.how) else s.rmwAtHome r w)
  | _, some (q, off) =>
    if (s.linkError h (lineOfKey e.address)).isSome then some (s.newTxn t.id e.gid h line (.write cells e.how))
    else some (s.writeQueueSpace q e.kernel off (BitVec.ofNat 64 (ofBytes e.bytes)))
  | _, none => some (if remote then s.newTxn t.id e.gid h line (.write cells e.how) else s.homeWriteLine line cells w)

/-- R401: staged accesses performed in staging order, as far as they can be; those that are left. n bounds their number. -/
def State.performAll (s : State) (t : Team) : Nat → List Staged → State × List Staged
  | _, [] => (s, [])
  | 0, es => (s, es)
  | n + 1, e :: es => match s.performStaged t e (es.filter (s.oneWrite e)) with
    | none => (s, e :: es)
    | some s1 => State.performAll s1 t n (es.filter (fun x => !s.oneWrite e x))

/-- R399, R401, R403: what a commit at a barrier makes of a group: its registers as at its arrival there become the shadow, and its signature
and replay log are cleared. -/
def Group.commit (g : Group) (n : Nat) : Group :=
  { g with
    shadow := some (((g.arrivedAt.find? (fun a => a.1 == n)).map (fun a => a.2)).getD g.regs), signature := 0, replay := []
    arrivedAt := g.arrivedAt.filter (fun a => a.1 != n), shadowArr := g.arrGen }

/-- R401: the new shadow of a team, which replaces the old one. What the leader has read since stays for its follower (R404). -/
def Team.commit (t : Team) (n : Nat) : Team :=
  { t with
    groups := t.groups.map (fun g => g.commit n), staged := [], lineCopies := [],
    shadowBarriers := t.barriers, shadowPairs := t.pairs, dataRollback := false, pairMismatch := false,
    cores := t.cores.map (fun c => { c with shadowScratch := some c.scratch }), committing := none }

/-- The signature of a team (R405). -/
def Team.teamSignature (t : Team) : Dword := t.groups.foldl (fun x g => x ^^^ g.signature) 0

/-- R138: the generation moves and the arrivals start again. -/
def Barrier.open (b : Barrier) : Barrier :=
  { b with arrivals := 0, gen := b.gen + 1, reord := [], arrived := [], copyArrived := false }

def Team.modBarrier (t : Team) (n : Nat) (f : Barrier → Barrier) : Team := { t with barriers := modifyAt n f t.barriers }

/-- The number under which a team commits for the last time: above every named barrier's (R216). -/
def finalBarrier : Nat := 48

/-- R401, steps 4 and 5: the new shadow of a team replaces the old one, and the waiters of the generation pass; a rollback that
was asked for meanwhile follows. -/
def State.finishCommit (s : State) (tid : Nat) : State :=
  match s.team? tid with
  | none => s
  | some t => match t.committing with
    | none => s
    | some n =>
      let s1 := s.modTeam tid (fun x => { (x.modBarrier n Barrier.open).commit n with
        lastCommitted := x.lastCommitted || n == finalBarrier, rollBackAfter := none,
        dataRollback := x.rollBackAfter.isSome && x.dataRollback })
      match t.rollBackAfter with
      | none => s1
      | some m => (s1.modTeam tid (fun x => x.rollBack m)).due (.rollbackComplete tid)

/-- R401: a commit begins at a completed generation. -/
def State.beginCommit (s : State) (tid n : Nat) : State :=
  s.modTeam tid (fun t => { t with committing := some n, commitQueue := t.commitQueue.erase n })

/-- R401, R406: a commit in progress goes on: the leader's staged accesses are performed in order, a follower's are discarded,
and when the last is acknowledged both twins have the new shadow. -/
def State.goOnCommit (s : State) (t : Team) : State :=
  let follows := !t.leader && (t.twin.bind s.team?).any (fun x => x.committing.isSome)
  if t.committing.isNone || follows then s
  else
    let r := s.performAll t t.staged.length (if t.leader then t.staged else [])
    let s1 := r.1.modTeam t.id (fun x => { x with staged := r.2 })
    if r.2 ≠ [] ∨ s1.teamWrites t.id = true then s1
    else match t.twin with
      | none => s1.finishCommit t.id
      | some w => (s1.finishCommit t.id).finishCommit w

/-- R401, R406: the commits of a team: the one in progress goes on; else the earliest completed generation begins its own, in a pair once
both twins have completed it and their signatures agree. -/
def State.settleCommit (s : State) (tid : Nat) : State :=
  match s.team? tid with
  | none => s
  | some t =>
    if t.committing.isSome then s.goOnCommit t
    else match t.twin.bind s.team? with
      | none => (match t.commitQueue with
        | [] => s
        | n :: _ =>
          let s1 := s.beginCommit tid n
          ((s1.team? tid).map s1.goOnCommit).getD s1)
      | some other =>
        match t.commitQueue.find? (fun n => other.commitQueue.contains n) with
        | none => s
        | some n =>
          if t.teamSignature ≠ other.teamSignature then s.pairMismatch tid
          else
            let s1 := (s.beginCommit tid n).beginCommit other.id n
            let s2 := ((s1.team? tid).map s1.goOnCommit).getD s1
            ((s2.team? other.id).map s2.goOnCommit).getD s2

/-- Every commit that can goes on. -/
def State.settleCommits (s : State) : State := (s.teams.map (fun t => t.id)).foldl State.settleCommit s

/-- R401, R406: a commit barrier's generation is complete: its commit comes after those before it. -/
def State.queueCommit (s : State) (tid n : Nat) : State :=
  (s.modTeam tid (fun t => { t with commitQueue := t.commitQueue ++ [n] })).settleCommit tid

/-- Whether a generation of a barrier is complete and its commit awaited, so that arrivals belong to the next one. -/
def Team.opening (t : Team) (n : Nat) : Bool := decide (t.committing = some n) || t.commitQueue.contains n

end Sys2Proof.Machine
end

