-- ==== Sys2Proof/Machine/Lanes.lean ====
section
/-! DEFINITION. What the memory instructions share: widths and addresses (R107, R108), the checks of every lane before any
effect (R109, R372), reads and their poison (R110, R404), and the acquire, release and fence parts of an access (R323,
R329, R135, R448). -/

namespace Sys2Proof.Machine

/-! ## Widths and addresses -/

/-- R107: the bytes of a width. -/
def widthBytes (m : BitVec 4) : Nat :=
  match m.toNat with
  | 0 => 1
  | 1 => 1
  | 2 => 2
  | 3 => 2
  | 4 => 4
  | 5 => 8
  | _ => 16

/-- R107: a width as a type. -/
def widthTy (m : BitVec 4) : OTy := .int (8 * widthBytes m) (m == 1 || m == 3)

/-- The scope, order and hint of X (R22). -/
def xScope (w : MainWord) : Nat := bits w.x 2 0
def xOrder (w : MainWord) : Nat := bits w.x 5 3
def xHint (w : MainWord) : Nat := bits w.x 8 6

/-- R22: the byte offset of the memory form, with C scaled. -/
def memOffset (w : MainWord) (scale : Nat) : Dword :=
  match w.lits with
  | .none => BitVec.ofNat 64 (w.c.toNat * scale)
  | .one w0 => w0.signExtend 64
  | .two w0 _ => w0.signExtend 64

/-- R22: C of the memory form holds the offset. -/
def offsetUse : FieldUse := .form 0xFF

/-- R108: a global address. -/
def addressUse : FieldUse := .src tN64 isAddress

/-- The lanes for which accesses are made: once in scalar form when a lane is active, else for each active lane (R112). -/
def Ctx.accessLanes (c : Ctx) (scalar : Bool) : List Nat :=
  if scalar then if c.active = 0 then [] else [lowestLane c.active] else maskLanes c.active

/-! ## Checks of the lanes -/

/-- A memory cause met by a lane (R372). -/
structure LaneFault where
  lane : Nat
  cause : Nat
  rank : Nat
  val : Dword
  val2 : Dword
deriving DecidableEq, Repr

/-- The first of some faults in an order. -/
def firstFault (before : LaneFault → LaneFault → Bool) (fs : List LaneFault) : Option LaneFault :=
  fs.foldl (fun (b : Option LaneFault) f => match b with
    | none => some f
    | some x => if before f x then some f else some x) none

/-- R372: the first cause in rank, with every active lane that meets it and the values of the lowest of them; in scalar form the access is
that of every active lane. -/
def Ctx.laneTrap (c : Ctx) (scalar : Bool) (fs : List LaneFault) : Option TrapInfo :=
  (firstFault (fun f x => decide (f.rank < x.rank)) fs).map (fun f =>
    let same := fs.filter (fun x => x.cause == f.cause)
    let low := (firstFault (fun f x => decide (f.lane < x.lane)) same).getD f
    c.someLanes f.cause (if scalar then c.active else maskOf (fun l => same.any (fun x => x.lane == l))) low.val low.val2)

/-- What kind of access is checked. -/
structure CheckHow where
  kind : AccessKind
  bytes : Nat
  /-- An atomic, LDR or STC (R131). -/
  atomic : Bool
  /-- LDR or STC, whose page must name the issuing package (R132). -/
  own : Bool

/-- R108, R131, R132, R236, R372: one lane's access. -/
def checkAccess (s : State) (sp : Space) (h : CheckHow) (va : Dword) : XRes :=
  if va.toNat % h.bytes ≠ 0 then .bad { cause := 0x25, rank := 1 }
  else match translate s sp va h.kind with
    | .bad f => .bad f
    | .ok x =>
      match s.queueRegister x.key with
      | some _ =>
        if h.atomic then .bad { cause := 0x29, rank := 30 }
        else if h.bytes ≠ 8 then .bad { cause := 0x25, rank := 1 }
        else .ok x
      | none => if (h.own && !localHome x.home) || (h.atomic && s.noAtomics x) then .bad { cause := 0x29, rank := 30 } else .ok x

/-- A checked access of a lane. -/
structure LaneAccess where
  lane : Nat
  va : Dword
  x : Xlat
deriving DecidableEq, Repr

/-- R109: every lane's access, checked before any effect. -/
def checkLanes (s : State) (sp : Space) (h : CheckHow) (va : Nat → Dword) (lanes : List Nat) :
    List LaneAccess × List LaneFault :=
  lanes.foldr (fun l acc => match checkAccess s sp h (va l) with
    | .ok x => ({ lane := l, va := va l, x := x } :: acc.1, acc.2)
    | .bad f => (acc.1, { lane := l, cause := f.cause, rank := f.rank, val := f.val.getD (va l), val2 := f.val2 } :: acc.2))
    ([], [])

/-- What follows the checks of an instruction: the accessed and dirty bits (R382), the cached translations, and the
counted requests, one for each line (R113, R348). -/
def State.touchLanes (s : State) (c : Ctx) (k : AccessKind) (hint : Nat) (as : List LaneAccess) : State :=
  let s1 := as.foldl (fun s a => s.touch c.space a.va k a.x) s
  let device := as.any (fun a => effectivePolicy a.x.pol hint == 0)
  let requests := if device then as else
    as.foldl (fun acc a => if acc.any (fun b => lineOfKey b.x.key == lineOfKey a.x.key) then acc else acc ++ [a]) []
  requests.foldl (fun s a => s.countMigration c.hub c.team.asn a.va a.x) s1

/-! ## Reads -/

/-- A value read by a lane: its bytes, and the origin of its poison or 0. -/
structure LaneValue where
  lane : Nat
  bytes : List Byte
  origin : Byte
deriving DecidableEq, Repr

/-- How one access of an instruction is read. -/
def LaneAccess.how (a : LaneAccess) (order hint : Nat) (atHome : Bool) : LoadHow :=
  { policy := effectivePolicy a.x.pol hint, hint := hint, mode := a.x.mode, durable := a.x.dur,
    acquire := decide (order ≠ 0), atHome := atHome }

/-- The origin of the poison of bytes that a team reads: none where its staged bytes stand over memory (R400). -/
def State.readOrigin (s : State) (t : Team) (h : HubId) (k n : Nat) : Byte :=
  let covered := (List.range n).all (fun i => t.staged.any (fun e => e.kind != 4 && decide (e.address ≤ k + i) &&
    decide (k + i < e.address + e.bytes.length)))
  if covered && decide (0 < n) then 0 else s.originSeen h k n

/-- One lane's read of memory or of the queue register space; one that cannot reach its home is poisoned (R135). -/
def State.readAccess (s : State) (c : Ctx) (how : LaneAccess → LoadHow) (n : Nat) (a : LaneAccess) : State × LaneValue :=
  match s.queueRegister a.x.key with
  | some (h, off) => (s, { lane := a.lane, bytes := toBytes n (s.readQueueSpace h off).toNat,
                           origin := (s.linkError c.hub (lineOfKey a.x.key)).getD 0 })
  | none =>
    let r := s.groupLoad c.tid c.gid c.group.coreIx c.unit a.x.key n (how a)
    let origin := (s.localError c.hub (lineOfKey a.x.key)).getD (r.1.readOrigin c.team c.hub a.x.key n)
    (r.1, { lane := a.lane, bytes := r.2, origin := origin })

/-- What a global read answers: values, a follower's wait for its leader, or a read mismatch (R404). -/
inductive ReadRes where
  | ok (s : State) (vals : List LaneValue)
  | later
  | mismatch

/-- Whether a team is the follower of a pair (R404). -/
def Team.follower (t : Team) : Bool := t.twin.isSome && !t.leader

/-- R404: the reads of a follower's instruction, taken from its leader's for the same instruction. -/
def takeFed (s : State) (c : Ctx) (n : Nat) (as : List LaneAccess) : ReadRes :=
  match c.team.feed.find? (fun f => f.gid == c.gid && f.copy.isNone) with
  | none => .later
  | some f =>
    let pairs := as.zip f.words
    if f.words.length = as.length ∧ pairs.all (fun p => decide (p.1.va = p.2.address) && p.2.bytes.length == n) = true then
      .ok (s.modTeam c.tid (fun t => { t with feed := t.feed.erase f }))
        (pairs.map (fun p => { lane := p.1.lane, bytes := p.2.bytes, origin := p.2.origin }))
    else .mismatch

/-- The reads of an instruction, lane by lane; a leader feeds them to its follower. -/
def State.readLanes (s : State) (c : Ctx) (how : LaneAccess → LoadHow) (n : Nat) (as : List LaneAccess) : ReadRes :=
  if c.team.follower then takeFed s c n as
  else
    let r := as.foldl (fun (acc : State × List LaneValue) a =>
      let x := acc.1.readAccess c how n a
      (x.1, acc.2 ++ [x.2])) (s, [])
    match c.team.twin with
    | none => .ok r.1 r.2
    | some f =>
      let fed : FedRead := { gid := c.gid, copy := none
                             words := (as.zip r.2).map (fun p => { address := p.1.va, bytes := p.2.bytes, origin := p.2.origin }) }
      .ok (r.1.modTeam f (fun t => { t with feed := t.feed ++ [fed] })) r.2

/-! ## Results of loads -/

/-- R111: the shape of a load's result. -/
def loadShape (aCode : Byte) (hint : Nat) : Shape := if isUniform aCode && hint != 1 then .uniform else .general

/-- A lane's value of a list, none where the lane made no access. -/
def laneValue (vs : List LaneValue) (l : Nat) : Option LaneValue := vs.find? (fun v => v.lane == l)

/-- Writes up to 16 bytes a lane to a destination (R107): one register, a pair, four v registers or two s registers. -/
def writeWide (c : Ctx) (g : Group) (scalar : Bool) (code : Byte) (ty : OTy) (shape : Shape) (val : Nat → Nat)
    (poison : Nat → Bool) : Group :=
  let r := fun (f : Nat → Dword) => ({ shape := shape, val := f, poison := poison } : RVal)
  if ty.width = 128 then
    let g1 := writeDest c g scalar code 64 (r (fun l => BitVec.ofNat 64 (val l)))
    let next := if isV code then code + 2 else if isScalarReg code then code + 1 else code
    writeDest c g1 scalar next 64 (r (fun l => BitVec.ofNat 64 (val l / 2 ^ 64)))
  else writeDest c g scalar code ty.width (r (fun l => extendTo ty (BitVec.ofNat 64 (val l))))

/-- A load's results: in scalar form one value, else each active lane's; a lane without an access holds a free value
and is poisoned (R110). Values that carry an origin are one poison event, told by the lowest such lane (R395). -/
def loadResult (c : Ctx) (tick : Nat) (g : Group) (scalar : Bool) (w : MainWord) (ty : OTy) (shape : Shape)
    (vs : List LaneValue) (va : Nat → Dword) : Group :=
  let of := fun (l : Nat) => if scalar then vs.head? else laneValue vs l
  let val := fun l => match of l with
    | some v => ofBytes v.bytes
    | none => (Config.freeReading tick (1000 + l)).toNat
  let poison := fun l => match of l with
    | some v => decide (v.origin ≠ 0)
    | none => true
  let g1 := match vs.find? (fun v => decide (v.origin ≠ 0)) with
    | some v => g.event v.origin.toNat w.d.toNat v.lane 3 c.pos.pc (va v.lane)
    | none => g
  writeWide c g1 scalar w.d ty shape val poison

/-! ## Acquire and release parts -/

/-- Whether an ordered access or fence may go on. -/
inductive Sync where
  | ready (s : State)
  | wait (s : State) (k : WaitKind)
  | fails (s : State) (t : TrapInfo)

/-- R372: the rank of a held failure; 0x0C stands after the others (R448). -/
def HeldFailure.rank (f : HeldFailure) : Nat :=
  match f.cause.toNat with
  | 0x60 => 4
  | 0x27 => 5
  | 0x21 => 6
  | 0x22 => 7
  | 0x26 => 8
  | 0x63 => 9
  | 0x0C => 11
  | _ => 10

/-- R372, R448: the failure that is reported: the first in rank, and of equals the one of the first byte. -/
def firstFailure (fs : List HeldFailure) : Option HeldFailure :=
  fs.foldl (fun b f => match b with
    | none => some f
    | some x => if f.rank < x.rank ∨ (f.rank = x.rank ∧ f.place < x.place) then some f else some x) none

/-- The failures held for an issuing group (R135, R448). -/
def State.heldFailures (s : State) (c : Ctx) : List HeldFailure := ((s.group? c.tid c.gid).getD c.group).failures

/-- R135, R352, R448: failures held for a group are reported: those of copies at every wait for copies, those of stores
at a fence. -/
def State.reportFailures (s : State) (c : Ctx) (stores : Bool) : Sync :=
  let mine := (s.heldFailures c).filter (fun f => f.copy || stores)
  match firstFailure mine with
  | none => .ready s
  | some f =>
    .fails (s.modGroup c.tid c.gid (fun g => { g with failures := g.failures.filter (fun x => !(x.copy || stores)) }))
      (c.whole f.cause.toNat f.val f.val2)

/-- R124, R329, R135: the group's stores performed as a release at a scope requires, and what it still waits for; a
fence waits for every store and outstanding entry of the group as well. -/
def State.settleStores (s : State) (c : Ctx) (scope : Nat) (fence : Bool) : State × Option WaitKind :=
  let s1 := (if fence then s.drain c.unit c.tid c.gid else s).releaseDrain c.team c.gid scope c.unit
  let outstanding := s1.holdsStores c.unit c.tid c.gid || s1.txns.any (fun x => x.team == c.tid && x.gid == c.gid) ||
    s1.mails.any (fun m => m.team == c.tid && m.gid == c.gid)
  match s1.releaseWait c.team c.gid scope c.unit with
  | some k => (s1, some k)
  | none => (s1, if fence && outstanding then some .transaction else none)

/-- The release part of an access, or a fence: its waits, then the failures it reports. -/
def State.release (s : State) (c : Ctx) (scope : Nat) (fence : Bool) : Sync :=
  match s.settleStores c scope fence with
  | (s1, some k) => .wait s1 k
  | (s1, none) => s1.reportFailures c (fence || scope == 6)

/-- Goes on with a synchronisation. -/
def Sync.bind (x : Sync) (k : State → Sync) : Sync :=
  match x with
  | .ready s => k s
  | .wait s w => .wait s w
  | .fails s t => .fails s t

/-- The issuing agent (R321). -/
def Ctx.agent (c : Ctx) : AgentAt := { team := c.tid, gid := c.gid, hub := c.hub }

/-- R345: a promoted acquire of keys waits, before it reads, until the releases it is promoted against are published. -/
def State.acquireReady (s : State) (c : Ctx) (scope : Nat) (keys : List Nat) : Sync :=
  let lines := (keys.map lineOfKey).eraseDups
  let s1 := s.publishFor c.agent scope lines
  if (s1.unpublished c.agent scope lines).isEmpty then .ready s1 else .wait s1 .transaction

/-- The acquire part of a read or RMW at its lines (R318, R345). -/
def State.acquirePart (s : State) (c : Ctx) (scope : Nat) (keys : List Nat) : State :=
  s.acquireLines c.tid c.gid c.group.coreIx scope c.unit (keys.map lineOfKey).eraseDups

/-- R323: the seq-cst fence before a load or RMW of order 4, and the release part of orders 2 and 3. -/
def State.before (s : State) (c : Ctx) (order scope : Nat) : Sync :=
  match order with
  | 4 => (s.release c scope true).bind (fun s1 => .ready (s1.acquire c.tid c.gid c.group.coreIx scope c.unit false))
  | 2 => s.release c scope false
  | 3 => s.release c scope false
  | _ => .ready s

/-- R323: the order of a store's own write: a seq-cst store is a release write, which a fence follows. -/
def storeOrder (order : Nat) : Nat := if order = 4 then 2 else order

/-- Goes on when a synchronisation is ready. -/
def Sync.andThen (x : Sync) (k : State → Res) : Res :=
  match x with
  | .ready s => k s
  | .wait s w => .wait s w
  | .fails s t => .fails s t

/-- R323: the seq-cst fence after an access of order 4 that stored; one that must wait completes with its wait, and a failure
that was held is reported (R135). -/
def State.after (s : State) (c : Ctx) (order scope : Nat) : Res :=
  if order = 4 then
    match s.settleStores c scope true with
    | (s1, none) => (s1.reportFailures c true).andThen (fun s2 =>
        .done (s2.acquire c.tid c.gid c.group.coreIx scope c.unit false))
    | (s1, some _) => .wait s1 (.fence scope c.entry)
  else .done s

/-! ## Writers -/

/-- R345: the core that may still hold stores ordered before a narrow release of a group. -/
def State.holder (s : State) (c : Ctx) : Option CoreId :=
  match c.unit with
  | .vector id => if s.unsettled c.unit then some id else none
  | _ => none

/-- The writer of an ordered write of a group: a narrow release is published when nothing ordered before it is left (R345). -/
def State.writer (s : State) (c : Ctx) (scope : Nat) (release rmw durable : Bool) : Writer :=
  let narrow := release && c.team.narrow scope
  { hub := c.hub, team := c.tid, gid := c.gid, scope := scope, release := release, rmw := rmw, durable := durable,
    published := !narrow || ((s.holder c).isNone && !s.ownWrites c.tid c.gid)
    holder := if narrow then s.holder c else none }

/-- R400, R251, R252: whether a group's global stores are staged: in a staged team, but not while it handles cause 0x70,
whose stores make the saved context. -/
def Ctx.stages (c : Ctx) : Bool := c.team.staging && c.group.handling.isNone

/-- R399: whether an instruction that writes scratchpad, stages an access, copies or mails waits for the commit. -/
def Ctx.awaitsCommit (c : Ctx) : Bool := c.team.staging && !c.group.arrivedAt.isEmpty

end Sys2Proof.Machine
end

