-- ==== Sys2Proof/Machine/Global.lean ====
section
/-! DEFINITION. Global loads and stores, and cache and instruction maintenance (R112 to R117). -/

namespace Sys2Proof.Machine

/-! ## Loads -/

/-- The signature of a load of the memory form (R106, R107). -/
def loadSig (op : BitVec 10) (w : MainWord) (narrow : Bool) (ok : Bool) : Sig :=
  { op := op, form := .byDest, d := .dst (widthTy w.m).width anyCode, a := addressUse, c := offsetUse, memory := true,
    mOk := decide (w.m.toNat < 7) && (!narrow || w.m == 4 || w.m == 5), xMask := 0x1FF,
    fieldsOk := ok && decide (xScope w < 7) && decide (xHint w < 6) }

/-- A lane's effective address (R108). -/
def effectiveAddress (a : Opnd) (w : MainWord) (scale : Nat) (l : Nat) : Dword := a.val l + memOffset w scale

/-- The lanes whose address is not poisoned (R110). -/
def cleanLanes (a : Opnd) (lanes : List Nat) : List Nat := lanes.filter (fun l => !a.poison l)

/-- R109, R112: reads the checked lanes and writes the destination. extra is what the instruction adds to its reads. A read of a
device page waits for the group's writes on their way (R114). -/
def finishLoad (s : State) (c : Ctx) (g : Sig) (w : MainWord) (shape : Shape) (va : Nat → Dword)
    (as : List LaneAccess) (atHome : Bool) (extra : State → State) : Res :=
  if as.any (fun a => effectivePolicy a.x.pol (xHint w) == 0) && s.ownWrites c.tid c.gid then .wait s .transaction
  else (if xOrder w = 0 then .ready s else s.acquireReady c (xScope w) (as.map (fun a => a.x.key))).andThen (fun s1 =>
  match (s1.touchLanes c .read (xHint w) as).readLanes c (fun a => a.how (xOrder w) (xHint w) atHome) (widthBytes w.m) as with
  | .later => .wait s .twin
  | .mismatch => .gone (s.pairMismatch c.tid)
  | .ok s2 vs =>
    let s3 := if xOrder w = 0 then s2 else s2.acquirePart c (xScope w) (as.map (fun a => a.x.key))
    .done ((extra s3).modGroup c.tid c.gid (fun x =>
      loadResult c s.tick x (g.scalarForm c.vector w) w (widthTy w.m) shape vs va)))

/-- R112: LD. -/
def execLd (w : MainWord) (s : State) : Host.Outcome State Fault Refusal :=
  let g := loadSig 0x280 w false (xOrder w == 0 || xOrder w == 1 || xOrder w == 4)
  runMain s g w (fun s c =>
    let scalar := g.scalarForm c.vector w
    let a := g.opA c w
    let va := effectiveAddress a w (widthBytes w.m)
    let shape := loadShape w.a (xHint w)
    let lanes := c.accessLanes scalar
    match (if scalar then none else destShapeCheck c w.d (widthTy w.m).width
        (({ shape := shape, val := fun _ => 0, poison := fun _ => false } : RVal).written c)) with
    | some t => .trap t
    | none =>
      let r := checkLanes s c.space { kind := .read, bytes := widthBytes w.m, atomic := false, own := false } va
        (cleanLanes a lanes)
      match c.laneTrap scalar r.2 with
      | some t => .trap t
      | none =>
        if lanes = [] then .done s
        else (s.before c (xOrder w) (xScope w)).andThen (fun s1 => finishLoad s1 c g w shape va r.1 false id))

/-! ## Stores -/

/-- The data of a store: the low 64 bits and, at 128 bits, the upper 64 (R107). -/
structure StoreData where
  lo : Opnd
  hi : Opnd

/-- Reads the data operand of field B at a width (R107). -/
def storeData (g : Sig) (c : Ctx) (w : MainWord) (bytes : Nat) : StoreData :=
  if bytes = 16 then
    let next := if isV w.b then w.b + 2 else if isScalarReg w.b then w.b + 1 else w.b
    { lo := readOperand g c w 2 w.b tN64, hi := readOperand g c w 2 next tN64 }
  else { lo := g.opB c w, hi := Opnd.const 0 }

/-- The bytes that a lane stores. -/
def StoreData.bytes (d : StoreData) (n l : Nat) : List Byte :=
  (toBytes 8 (d.lo.val l).toNat ++ toBytes 8 (d.hi.val l).toNat).take n

/-- The data as one operand, for its poison. -/
def StoreData.opnd (d : StoreData) : Opnd := { d.lo with poison := fun l => d.lo.poison l || d.hi.poison l }

/-- The signature of a store of the memory form; hint 5 is reserved on ST alone (R112). -/
def storeSig (op : BitVec 10) (form : FormRule) (d : FieldUse) (w : MainWord) (narrow : Bool) (hints : Nat) : Sig :=
  { op := op, form := form, d := d, a := addressUse, b := .s (widthTy w.m), c := offsetUse, memory := true,
    mOk := decide (w.m.toNat < 7) && (!narrow || w.m == 4 || w.m == 5), xMask := 0x1FF,
    fieldsOk := (xOrder w == 0 || xOrder w == 2 || xOrder w == 4) && decide (xScope w < 7) && decide (xHint w < hints) }

/-- The cells of a store's lanes that fall in a line, a higher lane's bytes over a lower one's (R113). -/
def lineCells (line : Nat) (as : List (LaneAccess × List Byte)) : List (Nat × Byte) :=
  as.foldl (fun cells p =>
    if lineOfKey p.1.x.key = line then
      let new := cellsFrom p.1.x.key p.2
      cells.filter (fun c => !new.any (fun d => d.1 == c.1)) ++ new
    else cells) []

/-- Who makes a lane's store, with the virtual address of its line (R373, R429). -/
def LaneAccess.made (a : LaneAccess) (c : Ctx) : MadeBy :=
  { source := .store, va := a.va - BitVec.ofNat 64 (a.x.key % 128), kernel := c.kernel }

/-- How a lane's store is made. -/
def LaneAccess.storeHow (a : LaneAccess) (c : Ctx) (hint : Nat) : StoreHow :=
  { policy := effectivePolicy a.x.pol hint, mode := a.x.mode, durable := a.x.dur, made := a.made c }

/-- The keys of the durable bytes of stores (R350). -/
def durableKeys (as : List (LaneAccess × List Byte)) : List Nat :=
  (as.filter (fun p => p.1.x.dur)).flatMap (fun p => (List.range p.2.length).map (fun i => p.1.x.key + i))

/-- R114: the accesses of one lane's store to a device page: a 16-byte one is two of 8, the lower address first. -/
def devicePieces (p : LaneAccess × List Byte) : List (LaneAccess × List Byte) :=
  if p.2.length = 16 then
    [(p.1, p.2.take 8), ({ p.1 with va := p.1.va + 8, x := { p.1.x with key := p.1.x.key + 8 } }, p.2.drop 8)]
  else [p]

/-- R113, R329: the relaxed stores of an instruction to one line. -/
def State.lineStore (s : State) (c : Ctx) (hint : Nat) (as : List (LaneAccess × List Byte)) (line : Nat) : State :=
  match as.find? (fun p => lineOfKey p.1.x.key == line) with
  | none => s
  | some p => s.groupStore c.tid c.gid c.group.coreIx c.unit line (lineCells line as) { p.1.storeHow c hint with
      durable := as.any (fun q => lineOfKey q.1.x.key == line && q.1.x.dur) }

/-- The lines of stores. -/
def storeLines (as : List (LaneAccess × List Byte)) : List Nat := (as.map (fun p => lineOfKey p.1.x.key)).eraseDups

/-- R329, R345: a release write of one line, performed at the home. -/
def State.releaseStore (s : State) (c : Ctx) (scope : Nat) (as : List (LaneAccess × List Byte)) (line : Nat) : State :=
  match as.find? (fun p => lineOfKey p.1.x.key == line) with
  | none => s
  | some p =>
    let cells := lineCells line as
    let durable := as.any (fun q => lineOfKey q.1.x.key == line && q.1.x.dur)
    let w := s.writer c scope true false durable
    let s1 := match c.unit with
      | .vector _ => s.modL1 c.tid c.group.coreIx (fun l => l.store line cells)
      | _ => s
    if localHome (keyHome (line * 128)) && (s.linkError c.hub line).isNone then s1.homeWriteLine line cells w
    else s1.newTxn c.tid c.gid c.hub line (.write cells
      { durable := durable, release := some scope, published := w.published, holder := w.holder, made := p.1.made c })

/-- Stores to the queue register space, in ascending lane order (R236); one whose hub cannot be reached completes with error (R135). -/
def State.storeRegisters (s : State) (c : Ctx) (as : List (LaneAccess × List Byte)) : State :=
  as.foldl (fun s p => match s.queueRegister p.1.x.key with
    | some (h, off) =>
      if (s.linkError c.hub (lineOfKey p.1.x.key)).isSome then
        s.newTxn c.tid c.gid c.hub (lineOfKey p.1.x.key) (.write (cellsFrom p.1.x.key p.2) { WriteHow.hub false with made := p.1.made c })
      else s.writeQueueSpace h c.kernel off (BitVec.ofNat 64 (ofBytes p.2))
    | none => s) s

/-- R400: the stores of a staged team. -/
def State.stageStores (s : State) (c : Ctx) (order scope : Nat) (as : List (LaneAccess × List Byte)) : State :=
  as.foldl (fun s p => s.stage c.tid
    { gid := c.gid, instr := s.tick, kernel := c.kernel, kind := 1, op := 0, address := p.1.x.key, va := p.1.va, bytes := p.2, operand := [],
      scope := scope, release := decide (order ≠ 0), durable := p.1.x.dur, mailReg := 0, mailKey := 0 }) s

/-- An instruction's stores by where they go: to registers, to device pages, and to other memory. -/
structure StoreParts where
  regs : List (LaneAccess × List Byte)
  device : List (LaneAccess × List Byte)
  rest : List (LaneAccess × List Byte)

/-- The parts of an instruction's stores (R114, R236). -/
def State.storeParts (s : State) (hint : Nat) (as : List (LaneAccess × List Byte)) : StoreParts :=
  let mem := as.filter (fun p => (s.queueRegister p.1.x.key).isNone)
  { regs := as.filter (fun p => (s.queueRegister p.1.x.key).isSome)
    device := (mem.filter (fun p => effectivePolicy p.1.x.pol hint == 0)).flatMap devicePieces
    rest := mem.filter (fun p => effectivePolicy p.1.x.pol hint != 0) }

/-- R114, R351: whether stores to registers and device pages may be made: the group's earlier writes are not on their way, the core's path
holds nothing of their lines, and durable bytes have room. -/
def State.deviceReady (s : State) (c : Ctx) (p : StoreParts) : Bool :=
  (p.regs.isEmpty && p.device.isEmpty) ||
  (!s.ownWrites c.tid c.gid && s.roomForKeys (durableKeys p.device) && !(storeLines p.device).any (s.holdsLine c.unit))

/-- R113, R114, R329: the relaxed stores of an instruction, line by line; those to registers and device pages each by itself, in program
order after the group's other accesses to such pages. None when they must wait: for a write on its way, or for room in a persist
buffer (R351). -/
def State.relaxedStores (s : State) (c : Ctx) (hint : Nat) (p : StoreParts) : Option State :=
  let ready := match c.unit with
    | .vector _ => (s.pathFor c.unit c.tid c.gid (storeLines p.rest) (durableKeys p.rest)).map (fun s1 =>
        (storeLines p.device).foldl (fun (s : State) l => s.drainLine c.unit l) s1)
    | _ => if s.roomForKeys (durableKeys p.rest) then some s else none
  match ready with
  | none => none
  | some s1 =>
    if !s1.deviceReady c p then none
    else
      let s2 := (storeLines p.rest).foldl (fun s l => s.lineStore c hint p.rest l) s1
      some ((p.device.foldl (fun s q => s.lineStore c hint [q] (lineOfKey q.1.x.key)) s2).storeRegisters c p.regs)

/-- R112, R114, R329: the release stores of an instruction: one write for each line, and for each access of a device page. -/
def State.releaseStores (s : State) (c : Ctx) (scope : Nat) (p : StoreParts) : State :=
  let s1 := (storeLines p.rest).foldl (fun s l => s.releaseStore c scope p.rest l) s
  (p.device.foldl (fun s q => s.releaseStore c scope [q] (lineOfKey q.1.x.key)) s1).storeRegisters c p.regs

/-- R112, R329: the stores of checked lanes. A release write follows the stores that the core's path holds for its lines. -/
def finishStore (s : State) (c : Ctx) (order scope hint : Nat) (as : List (LaneAccess × List Byte)) : Res :=
  let touched := fun (s : State) => s.touchLanes c .write hint (as.map (fun p => p.1))
  let p := s.storeParts hint as
  if c.stages then .done ((touched s).stageStores c order scope as)
  else if order = 0 then
    match (touched s).relaxedStores c hint p with
    | none => .wait (s.drainCore c.unit) .transaction
    | some s1 => .done s1
  else
    let lines := storeLines (p.rest ++ p.device)
    let s1 := lines.foldl (fun s l => s.drainLine c.unit l) s
    if !s1.roomForKeys (durableKeys p.rest) || lines.any (s1.holdsLine c.unit) || !s1.deviceReady c p then .wait s1 .transaction
    else ((touched s1).releaseStores c scope p).after c order scope

/-- R112: ST. -/
def execSt (w : MainWord) (s : State) : Host.Outcome State Fault Refusal :=
  let g := storeSig 0x281 .bySources .unused w false 5
  runMain s g w (fun s c =>
    let scalar := g.scalarForm c.vector w
    let n := widthBytes w.m
    let a := g.opA c w
    let d := storeData g c w n
    let lanes := c.accessLanes scalar
    let r := checkLanes s c.space { kind := .write, bytes := n, atomic := false, own := false }
      (effectiveAddress a w n) (cleanLanes a lanes)
    match c.laneTrap scalar r.2 with
    | some t => .trap t
    | none =>
      match c.poisonTrap s 0x0C [(w.a, 1, a), (w.b, 2, d.opnd)] with
      | some t => .trap t
      | none =>
        if lanes = [] then .done s
        else if c.awaitsCommit then .wait s .commit
        else (s.before c (storeOrder (xOrder w)) (xScope w)).andThen (fun s1 =>
          finishStore s1 c (xOrder w) (xScope w) (xHint w) (r.1.map (fun x => (x, d.bytes n x.lane)))))

/-! ## Maintenance -/

/-- R115: a lane's prefetch. A line that may be fetched enters the L1 where the policy holds it; one whose walk faults or asks, of a device
page or dropped by a full table is not fetched (log 13). -/
def State.prefetch (s : State) (c : Ctx) (hint : Nat) (va : Nat → Dword) (l : Nat) : State :=
  match translate s c.space (va l) .read with
  | .bad _ => s
  | .ok x =>
    let pol := effectivePolicy x.pol hint
    if pol = 0 ∨ (s.queueRegister x.key).isSome ∨ Config.freePrefetched (s.tick + l) = true then s
    else ((s.countMigration c.hub c.team.asn (va l) x).loadPiece c.tid c.gid c.group.coreIx c.unit x.key 1
      { policy := pol, hint := hint, mode := x.mode, durable := x.dur, acquire := false, atHome := false }).1

/-- R115: PREF. -/
def execPref (w : MainWord) (s : State) : Host.Outcome State Fault Refusal :=
  let g : Sig := { op := 0x282, form := .bySources, a := addressUse, c := offsetUse, memory := true, mOk := w.m == 0,
                   xMask := 0x1C0, fieldsOk := decide (xHint w < 6) }
  runMain s g w (fun s c =>
    let a := g.opA c w
    let lanes := cleanLanes a (c.accessLanes (g.scalarForm c.vector w))
    .done (lanes.foldl (fun s l => s.prefetch c (xHint w) (effectiveAddress a w 1) l) s))

/-- R116: the parts of a byte range in each page, by their first address and length. -/
def pageParts (a : Dword) (size : Nat) : List (Nat × Nat) :=
  let first := a.toNat / 4096
  let pages := if size = 0 then 0 else (a.toNat % 4096 + size + 4095) / 4096
  (List.range pages).map (fun i =>
    let lo := if i = 0 then a.toNat else (first + i) * 4096
    (lo, min (a.toNat + size) ((first + i + 1) * 4096) - lo))

/-- R116: the lines, first and last, that a byte range names in each page that a read may reach. -/
def namedLines (s : State) (sp : Space) (a : Dword) (size : Nat) : List (Nat × Nat) :=
  (pageParts a size).filterMap (fun p =>
    match translate s sp (BitVec.ofNat 64 p.1) .read with
    | .ok x => some (lineOfKey x.key, lineOfKey (x.key + (p.2 - 1)))
    | .bad _ => none)

/-- R379, R426: what the walks of some addresses ask of other packages first; the instruction waits for it (log 83). -/
def Ctx.walksAsk (c : Ctx) (s : State) (vas : List Nat) : Option TrapInfo :=
  vas.findSome? (fun va => match translate s c.space (BitVec.ofNat 64 va) .read with
    | .bad f => if f.cause = walkAsks then some (c.whole walkAsks (f.val.getD 0) 0) else none
    | .ok _ => none)

/-- The same for the pages that a maintenance instruction names. -/
def Ctx.namesAsk (c : Ctx) (s : State) (a size : Dword) : Option TrapInfo :=
  if size = BitVec.allOnes 64 then none else c.walksAsk s ((pageParts a size.toNat).map (fun p => p.1))

/-- R116: whether a maintenance instruction names a line; the size of all ones names every line. -/
def namesLine (s : State) (sp : Space) (a size : Dword) (line : Nat) : Bool :=
  size == BitVec.allOnes 64 || (namedLines s sp a size.toNat).any (fun p => decide (p.1 ≤ line ∧ line ≤ p.2))

/-- The signature of WB, INV and IINV. -/
def maintSig (op : BitVec 10) (last : Nat) (w : MainWord) : Sig :=
  { op := op, a := .src tN64 isUniform, b := .src tN64 isUniform, mOk := w.m == 0, xMask := 0x007,
    fieldsOk := decide (xScope w ≤ last) }

/-- The cores of the issuing team, or the issuing core alone at scope 0 (R116). -/
def Ctx.teamCores (c : Ctx) (scope : Nat) : List CoreUnit :=
  if scope = 0 then [c.unit] else c.team.cores.map (fun x => x.unit)

/-- Whether a maintenance scope reaches a core (R116). -/
def Ctx.reaches (c : Ctx) (scope : Nat) (u : CoreUnit) : Bool :=
  if scope ≤ 1 then (c.teamCores scope).contains u
  else if scope = 2 then decide (unitHub u = c.hub)
  else true

/-- The directory numbers that a scope reaches on a hub (R116, R338). -/
def Ctx.reachesPeer (c : Ctx) (scope : Nat) (h : HubId) (peer : Nat) : Bool :=
  if scope ≤ 1 then
    (c.teamCores scope).any (fun u => match u with
      | .vector _ => false
      | u => decide (unitHub u = h) && peerNumber u == peer)
  else scope != 2 || decide (h = c.hub)

/-- R116, R338: dirty peer lines of a hub that a test names are written to the home; the copies stay, clean. -/
def State.writeBackPeers (s : State) (h : HubId) (named : PeerLine → Bool) : State :=
  let dirty := (s.hub h).peers.filter (fun p => p.dirty && named p)
  let s1 := dirty.foldl (fun s p => { s with mem := s.mem.writeBytes (p.line * 128) (p.data.take 128) }) s
  s1.modHub h (fun x => { x with
    peers := updateWhere (fun p => p.dirty && named p)
      (fun p => { p with state := if p.state = .M then .E else .S }) x.peers
    dir := updateWhere (fun d => dirty.any (fun p => p.line == d.line))
      (fun d => { d with state := if d.state = .M then .E else .S }) x.dir })

/-- R116: WB. The lines whose stores are still on their way are kept, with those of earlier ones, for the instructions that wait until
every WB completes. -/
def execWb (w : MainWord) (s : State) : Host.Outcome State Fault Refusal :=
  let g := maintSig 0x283 5 w
  runMain s g w (fun s c =>
    if c.active = 0 then .done s
    else match c.namesAsk s ((g.opA c w).val 0) ((g.opB c w).val 0) with
    | some t => .trap t
    | none =>
      let names := namesLine s c.space ((g.opA c w).val 0) ((g.opB c w).val 0)
      let named := ((s.core c.unit).heldBy c.tid c.gid).filter (fun e => names e.line)
      let away := s.txns.filter (fun x => x.team == c.tid && x.gid == c.gid && names x.line)
      let s0 := if named.isEmpty then s else s.drain c.unit c.tid c.gid
      let s1 := s0.modGroup c.tid c.gid (fun g => { g with
        maintenance := (g.maintenance ++ named.map (fun e => e.line) ++ away.map (fun x => x.line)).eraseDups })
      let back := fun (s : State) (h : HubId) =>
        s.writeBackPeers h (fun p => c.reachesPeer (xScope w) h p.peer && names p.line)
      .done (back (back s1 .h0) .h1))

/-- A peer's named lines leave its cache, dirty ones written back first (R116). -/
def State.dropPeers (s : State) (h : HubId) (named : PeerLine → Bool) : State :=
  let s1 := s.writeBackPeers h named
  s1.modHub h (fun x =>
    let kept := x.peers.filter (fun p => !named p)
    { x with
      peers := kept
      dir := x.dir.filterMap (fun d =>
        let sharers := d.sharers.filter (fun n => kept.any (fun p => p.line == d.line && p.peer == n))
        if kept.any (fun p => p.line == d.line) then some { d with sharers := sharers } else none) })

/-- R116, R319: INV. -/
def execInv (w : MainWord) (s : State) : Host.Outcome State Fault Refusal :=
  let g := maintSig 0x284 5 w
  runMain s g w (fun s c =>
    if c.active = 0 then .done s
    else match c.namesAsk s ((g.opA c w).val 0) ((g.opB c w).val 0) with
    | some t => .trap t
    | none =>
      let names := namesLine s c.space ((g.opA c w).val 0) ((g.opB c w).val 0)
      let s1 := match c.unit with
        | .vector _ => { s with
            teams := s.teams.map (fun t => { t with
              cores := t.cores.map (fun x => if x.unit = c.unit then
                { x with l1 := { x.l1 with lines := x.l1.lines.filter (fun l => !names l.line) } } else x) }) }
        | u => s.dropPeers c.hub (fun p => p.peer == peerNumber u && names p.line)
      let s2 := if xScope w < 2 then s1 else { s1 with
        readOnly := s1.readOnly.map (fun p => if p.hub = c.hub then
          { p with lines := p.lines.filter (fun l => !names l.line) } else p) }
      .done (if xScope w < 3 then s2
        else s2.modHub c.hub (fun h => { h with rdc := h.rdc.filter (fun e => !names e.line) })))

/-- R116: whether a code line overlaps a range of the team's space. -/
def codeOverlaps (c : Ctx) (a size : Dword) (l : CodeLine) : Bool :=
  size != 0 && l.asn == c.team.asn && decide (l.va.toNat < a.toNat + size.toNat ∧ a.toNat < l.va.toNat + 64)

/-- R116, R450: whether a code line is one that IINV names: of the team's space, and in a page that may be read. -/
def namesCode (s : State) (c : Ctx) (a size : Dword) (l : CodeLine) : Bool :=
  size == BitVec.allOnes 64 ||
  (codeOverlaps c a size l &&
    (match translate s c.space (if l.va.toNat < a.toNat then a else l.va) .read with
     | .ok _ => true
     | .bad _ => false))

/-- R116: IINV. -/
def execIinv (w : MainWord) (s : State) : Host.Outcome State Fault Refusal :=
  let g := maintSig 0x285 3 w
  runMain s g w (fun s c =>
    if c.active = 0 then .done s
    else
      let a := (g.opA c w).val 0
      let size := (g.opB c w).val 0
      let lines := (s.cores.flatMap (fun x => x.icache)).filter (codeOverlaps c a size)
      match if size = BitVec.allOnes 64 then none else c.walksAsk s (lines.map (fun l => max l.va.toNat a.toNat)) with
      | some t => .trap t
      | none => .done { s with
        cores := s.cores.map (fun x => if c.reaches (xScope w) x.unit then
          { x with icache := x.icache.filter (fun l => !namesCode s c a size l) } else x) })

/-- R117: IFENCE waits until earlier WBs are complete, as IINV is when it has issued; what the group has fetched is then
discarded. -/
def execIfence (w : MainWord) (s : State) : Host.Outcome State Fault Refusal :=
  let g : Sig := { op := 0x286, mOk := w.m == 0 }
  runMain s g w (fun s c =>
    let s1 := if s.maintaining c.unit c.tid c.gid then s.drain c.unit c.tid c.gid else s
    if s1.maintaining c.unit c.tid c.gid then .wait s1 .transaction
    else .done (s1.modGroup c.tid c.gid (fun x => { x with fetched := [], maintenance := [] })))

end Sys2Proof.Machine
end

