-- ==== Sys2Proof/Machine/ScratchOps.lean ====
section
/-! DEFINITION. A team's scratchpad on a core: bounds (R108, R223), paired buffers (R127), presence (R123), poison (R110,
R227), and the scratchpad side of the memory instructions (R119). -/

namespace Sys2Proof.Machine

/-- Whether an access lies wholly within the allocation (R108, R223). -/
def Scratchpad.inside (p : Scratchpad) (a n : Nat) : Bool := decide (a + n ≤ p.size)

/-- R127: a declared slot redirects an access inside its range to its visible half. -/
def redirect (pairs : List (Option PairSlot)) (a : Nat) : Nat :=
  match pairs.find? (fun x => x.any (fun q => decide (q.base ≤ a ∧ a < q.base + q.size))) with
  | some (some q) => if q.side then a + q.size else a
  | _ => a

/-- R127: the shadow address of a copy's destination inside a declared range. -/
def shadowOf (pairs : List (Option PairSlot)) (a : Nat) : Nat :=
  match pairs.find? (fun x => x.any (fun q => decide (q.base ≤ a ∧ a < q.base + q.size))) with
  | some (some q) => if q.side then a else a + q.size
  | _ => a

/-- The first absent line that a range touches (R119). -/
def Scratchpad.absentIn (p : Scratchpad) (a n : Nat) : Option Nat :=
  (List.range ((a % 128 + n + 127) / 128)).findSome? (fun i => if p.absent.contains (a / 128 + i) then some (a / 128 + i) else none)

/-- The origin of the first poisoned word that a range touches, 0 when none is (R227). -/
def Scratchpad.originIn (p : Scratchpad) (a n : Nat) : Byte :=
  match (List.range ((a % 4 + n + 3) / 4)).find? (fun i => p.poison.contains (a / 4 + i)) with
  | some i => p.origins.read ((a / 4 + i) / 32)
  | none => 0

def Scratchpad.readBytes (p : Scratchpad) (a n : Nat) : List Byte := p.bytes.readBytes a n

/-- The words that a range covers whole. -/
def wholeWords (a n : Nat) : List Nat :=
  (List.range (n / 4 + 1)).filterMap (fun i =>
    let w := (a + 3) / 4 + i
    if 4 * w + 4 ≤ a + n then some w else none)

/-- R110: a store of unpoisoned bytes; a word that it covers whole is unpoisoned after it. -/
def Scratchpad.write (p : Scratchpad) (a : Nat) (bs : List Byte) : Scratchpad :=
  let ws := wholeWords a bs.length
  { p with bytes := p.bytes.writeBytes a bs, poison := if p.poison = [] then [] else p.poison.filter (fun w => !ws.contains w) }

/-- R123, R227: the words that a range touches become poisoned, and their lines take the origin. -/
def Scratchpad.poisonRange (p : Scratchpad) (a n : Nat) (origin : Byte) : Scratchpad :=
  let ws := (List.range ((a % 4 + n + 3) / 4)).map (fun i => a / 4 + i)
  if n = 0 then p
  else
    { p with
      poison := p.poison ++ ws.filter (fun w => !p.poison.contains w)
      origins := ((ws.map (fun w => w / 32)).eraseDups).foldl (fun m l => m.write l origin) p.origins }

/-- The lines of a range. -/
def linesOf (a n : Nat) : List Nat := if n = 0 then [] else (List.range ((a % 128 + n + 127) / 128)).map (fun i => a / 128 + i)

/-- A range cut at lines: a pair's bounds are multiples of 128, so each part lies in one half (R126, R127). -/
def lineParts (a n : Nat) : List (Nat × Nat) :=
  (linesOf a n).map (fun l => (max a (128 * l), min (a + n) (128 * l + 128) - max a (128 * l)))

/-- R127: a range read, its origin, its first absent line, and a range written, each line redirected. -/
def Scratchpad.readThrough (p : Scratchpad) (pairs : List (Option PairSlot)) (a n : Nat) : List Byte :=
  (lineParts a n).flatMap (fun q => p.readBytes (redirect pairs q.1) q.2)
def Scratchpad.originThrough (p : Scratchpad) (pairs : List (Option PairSlot)) (a n : Nat) : Byte :=
  (((lineParts a n).map (fun q => p.originIn (redirect pairs q.1) q.2)).find? (fun o => o != 0)).getD 0
def Scratchpad.absentThrough (p : Scratchpad) (pairs : List (Option PairSlot)) (a n : Nat) : Option Nat :=
  (lineParts a n).findSome? (fun q => p.absentIn (redirect pairs q.1) q.2)
def Scratchpad.writeThrough (p : Scratchpad) (pairs : List (Option PairSlot)) (a : Nat) (bs : List Byte) : Scratchpad :=
  (lineParts a bs.length).foldl (fun p q => p.write (redirect pairs q.1) ((bs.drop (q.1 - a)).take q.2)) p

/-- R123: presence bits of lines are cleared, or set. -/
def Scratchpad.clearPresence (p : Scratchpad) (ls : List Nat) : Scratchpad :=
  { p with absent := p.absent ++ ls.filter (fun l => !p.absent.contains l) }
def Scratchpad.setPresence (p : Scratchpad) (l : Nat) : Scratchpad := { p with absent := p.absent.filter (fun x => x != l) }

/-- The issuing group's scratchpad. -/
def Ctx.scratch (c : Ctx) : Scratchpad := c.share.scratch

/-- Changes the scratchpad of a team on one of its cores. -/
def State.modScratch (s : State) (tid ix : Nat) (f : Scratchpad → Scratchpad) : State :=
  s.modTeam tid (fun t => t.modShare ix (fun c => { c with scratch := f c.scratch }))

/-- The scratchpad of a team on one of its cores, as a state holds it. -/
def State.scratchOf (s : State) (tid ix : Nat) : Scratchpad :=
  (((s.team? tid).bind (fun t => t.share? ix)).map (fun c => c.scratch)).getD (Scratchpad.clear 0)

/-- R108: a lane's scratchpad address: 32 bits of base and offset. -/
def scratchAddress (a : Opnd) (offset : Dword) (l : Nat) : Nat := (loWord (a.val l + offset)).toNat

/-- R108, R372: the checks of a lane's scratchpad access. -/
def checkScratch (p : Scratchpad) (n : Nat) (l a : Nat) : Option LaneFault :=
  if a % n ≠ 0 then some { lane := l, cause := 0x25, rank := 1, val := BitVec.ofNat 64 a, val2 := 0 }
  else if !p.inside a n then some { lane := l, cause := 0x24, rank := 2, val := BitVec.ofNat 64 a, val2 := 0 }
  else none

/-- The first absent line that the accesses of lanes meet (R119). -/
def Ctx.absentLine (c : Ctx) (addrs : List Nat) (n : Nat) : Option Nat :=
  addrs.findSome? (fun a => c.scratch.absentIn (redirect c.team.pairs a) n)

/-- A lane's read of the scratchpad. -/
def Ctx.readScratch (c : Ctx) (a n : Nat) (l : Nat) : LaneValue :=
  let x := redirect c.team.pairs a
  { lane := l, bytes := c.scratch.readBytes x n, origin := c.scratch.originIn x n }

/-- A scratchpad access's wait: an absent line (R119). -/
def Ctx.present (c : Ctx) (s : State) (addrs : List Nat) (n : Nat) (k : Res) : Res :=
  match c.absentLine addrs n with
  | some l => .wait s (.absentLine l)
  | none => k

/-- An operand that names a scratchpad address: n32 of any class (R119). -/
def scratchUse : FieldUse := .s tN32

end Sys2Proof.Machine
end

