-- ==== Sys2Proof/Machine/Scratch.lean ====
section
/-! DEFINITION. Scratchpad loads and stores, and constant-bank loads (R119, R120). -/

namespace Sys2Proof.Machine

/-- R119: LDS. -/
def execLds (w : MainWord) (s : State) : Host.Outcome State Fault Refusal :=
  let g : Sig := { op := 0x290, inS := false, form := .byDest, d := .dst (widthTy w.m).width anyCode, a := scratchUse,
                   c := offsetUse, memory := true, mOk := decide (w.m.toNat < 7), xMask := 0x03F,
                   fieldsOk := decide (xScope w < 2) && (xOrder w == 0 || xOrder w == 1 || xOrder w == 4) }
  runMain s g w (fun s c =>
    let scalar := g.scalarForm c.vector w
    let n := widthBytes w.m
    let a := g.opA c w
    let shape := loadShape w.a 0
    let lanes := c.accessLanes scalar
    let clean := cleanLanes a lanes
    let at_ := scratchAddress a (memOffset w n)
    match (if scalar then none else destShapeCheck c w.d (widthTy w.m).width
        (({ shape := shape, val := fun _ => 0, poison := fun _ => false } : RVal).written c)) with
    | some t => .trap t
    | none =>
      match c.laneTrap scalar (clean.filterMap (fun l => checkScratch c.scratch n l (at_ l))) with
      | some t => .trap t
      | none =>
        if lanes = [] then .done s
        else c.present s (clean.map at_) n
          ((s.before c (xOrder w) (xScope w)).andThen (fun s1 =>
            let vs := clean.map (fun l => c.readScratch (at_ l) n l)
            let s2 := if xOrder w = 0 then s1 else s1.acquirePart c (xScope w) []
            .done (s2.modGroup c.tid c.gid (fun x =>
              loadResult c s.tick x scalar w (widthTy w.m) shape vs (fun l => BitVec.ofNat 64 (at_ l)))))))

/-- R119: STS. -/
def execSts (w : MainWord) (s : State) : Host.Outcome State Fault Refusal :=
  let g : Sig := { op := 0x291, inS := false, form := .bySources, a := scratchUse, b := .s (widthTy w.m), c := offsetUse,
                   memory := true, mOk := decide (w.m.toNat < 7), xMask := 0x03F,
                   fieldsOk := decide (xScope w < 2) && (xOrder w == 0 || xOrder w == 2 || xOrder w == 4) }
  runMain s g w (fun s c =>
    let scalar := g.scalarForm c.vector w
    let n := widthBytes w.m
    let a := g.opA c w
    let d := storeData g c w n
    let lanes := c.accessLanes scalar
    let at_ := scratchAddress a (memOffset w n)
    match c.laneTrap scalar ((cleanLanes a lanes).filterMap (fun l => checkScratch c.scratch n l (at_ l))) with
    | some t => .trap t
    | none =>
      match c.poisonTrap s 0x0C [(w.a, 1, a), (w.b, 2, d.opnd)] with
      | some t => .trap t
      | none =>
        if lanes = [] then .done s
        else if c.awaitsCommit then .wait s .commit
        else c.present s (lanes.map at_) n
          ((s.before c (storeOrder (xOrder w)) (xScope w)).andThen (fun s1 =>
            let put := fun (p : Scratchpad) =>
              lanes.foldl (fun p l => p.write (redirect c.team.pairs (at_ l)) (d.bytes n l)) p
            (s1.modScratch c.tid c.group.coreIx put).after c (xOrder w) (xScope w))))

/-- R120: a lane's read of a constant bank; beyond 16 KiB it is 0, unpoisoned. -/
def readConst (t : Team) (bank offset n l : Nat) : LaneValue :=
  let words := t.consts.getD bank []
  let bad := t.constPoison.getD bank []
  let ix := (List.range (n / 4)).map (fun i => offset / 4 + i)
  let word := fun i => if i < 4096 then words.getD i 0 else (0 : Word)
  { lane := l, bytes := ix.flatMap (fun i => toBytes 4 (word i).toNat),
    origin := if ix.any (fun i => decide (i < 4096) && bad.contains i) then 0x50 else 0 }

/-- R120: LDK. -/
def execLdk (w : MainWord) (s : State) : Host.Outcome State Fault Refusal :=
  let n := widthBytes w.m
  let g : Sig := { op := 0x292, inS := false, form := .byDest, d := .dst (widthTy w.m).width anyCode, a := .form 0x03,
                   b := .s tN32, c := offsetUse, memory := true, mOk := w.m == 4 || w.m == 5 || w.m == 6 }
  runMain s g w (fun s c =>
    let scalar := g.scalarForm c.vector w
    let b := g.opB c w
    let shape : Shape := if isUniform w.b || decide (b.shape = .uniform) then .uniform else .general
    let lanes := c.accessLanes scalar
    let clean := cleanLanes b lanes
    let at_ := scratchAddress b (memOffset w n)
    match (if scalar then none else destShapeCheck c w.d (widthTy w.m).width
        (({ shape := shape, val := fun _ => 0, poison := fun _ => false } : RVal).written c)) with
    | some t => .trap t
    | none =>
      let bad := clean.filterMap (fun l => if at_ l % n ≠ 0 then
        some { lane := l, cause := 0x25, rank := 1, val := BitVec.ofNat 64 (at_ l), val2 := 0 : LaneFault } else none)
      match c.laneTrap scalar bad with
      | some t => .trap t
      | none =>
        if lanes = [] then .done s
        else
          let vs := clean.map (fun l => readConst c.team (bits w.a 1 0) (at_ l) n l)
          .done (s.modGroup c.tid c.gid (fun x =>
            loadResult c s.tick x scalar w (widthTy w.m) shape vs (fun l => BitVec.ofNat 64 (at_ l)))))

end Sys2Proof.Machine
end

