-- ==== Sys2Proof/Machine/Atomic.lean ====
section
/-! DEFINITION. Atomics in memory and in scratchpad (R129 to R131, R447), load-reserved and store-conditional (R132,
R133). -/

namespace Sys2Proof.Machine

/-- What a lane's atomic does to a word: the new value when it stores, and whether that value depends on the old one. -/
structure AtomStep where
  /-- The operation for a staged record: M, or 0x10 for CAS (R405). -/
  op : Nat
  operand : Nat → List Byte
  new : Nat → Nat → Option Nat
  /-- The new value does not come from the old one (R447). -/
  fresh : Bool

/-- An atomic instruction's fields. -/
structure AtomForm where
  sig : Sig
  space : Bool
  width : Nat
  offset : Dword
  step : Sig → Ctx → MainWord → AtomStep
  /-- The value operands with their codes and fields, for their poison. -/
  ops : Ctx → List (Byte × Nat × Opnd)

/-- The form of an atomic: for each active lane (R129, R322). DESIGN CHOICE (log 65): once with an s or ts destination, for which
R129 states no form. -/
def atomForm (w : MainWord) : FormRule := if isScalarReg w.d then .byDest else .perLane

/-- The address operand of an atomic: global, or scratchpad (R108, R129). -/
def atomAddress (scratch : Bool) : FieldUse := if scratch then scratchUse else addressUse

/-- R317: an RMW of a group invalidates the line in its partition. -/
def State.dropL1 (s : State) (c : Ctx) (line : Nat) : State :=
  match c.unit with
  | .vector _ => s.modL1 c.tid c.group.coreIx (fun l => l.drop line)
  | _ => s

/-- The order of the acquire part of an RMW. -/
def acquiresAt (order : Nat) : Bool := order == 1 || order == 3 || order == 4

/-- R131: one lane's RMW at the home, in this package at once, in another by a request (R426). One that fails is reported at a fence, and
its result is poisoned (R135, log 16). -/
def State.rmwLane (s : State) (c : Ctx) (order scope n : Nat) (st : AtomStep) (a : LaneAccess) : State × LaneValue :=
  let r : RmwWord := { key := a.x.key, size := n, lane := a.lane, op := st.op, operand := st.operand a.lane }
  let w := s.writer c scope (decide (2 ≤ order)) true a.x.dur
  let line := lineOfKey a.x.key
  let saw := fun (s : State) (t : Dword) => s.modGroup c.tid c.gid (fun g => g.sawStamp t)
  if !localHome a.x.home then
    let q := s.ask c.hub line (.rmw r { durable := a.x.dur, release := if 2 ≤ order then some scope else none, published := w.published,
                                        holder := w.holder, made := a.made c })
    let x := q.2.getD { data := [], origins := [], wts := 0, lease := 0, failed := 0 }
    (saw q.1 x.wts, { lane := a.lane, bytes := x.data.take 8, origin := if x.failed ≠ 0 then x.failed else x.origins.headD 0 })
  else match s.linkError c.hub (lineOfKey a.x.key) with
  | some e =>
    let f := s.requestFailure c.hub line e
    (s.modGroup c.tid c.gid (fun g => { g with
        failures := g.failures ++ [{ copy := false, place := 0, cause := e, val := f.1, val2 := f.2 }] }),
      { lane := a.lane, bytes := toBytes 8 (Config.freeReading s.tick (2000 + a.lane)).toNat, origin := e })
  | none =>
    let value : LaneValue := { lane := a.lane, bytes := s.homeBytes a.x.key n, origin := s.poisonIn a.x.key n }
    let s1 := if acquiresAt order || a.x.home != peerOf c.hub then saw s (s.wtsOf line) else s
    (s1.rmwAtHome r w, value)

/-- R325, R328: what an RMW at the homes of lines waits for first: the core's own stores to them, performed as far as they can be. -/
def State.linesReady (s : State) (c : Ctx) (lines : List Nat) : State := lines.foldl (fun s l => s.drainLine c.unit l) s

/-- Whether the lines of an RMW are free of earlier stores of the core. -/
def State.linesFree (s : State) (c : Ctx) (lines : List Nat) : Bool := lines.all (fun l => !s.holdsLine c.unit l)

/-- The keys of the durable words of an atomic (R350). -/
def wordKeys (n : Nat) (as : List LaneAccess) : List Nat :=
  (as.filter (fun a => a.x.dur)).flatMap (fun a => (List.range n).map (fun i => a.x.key + i))

/-- An RMW of the lanes on memory (R129, R323); at device pages it follows the group's writes on their way (R114). -/
def finishAtomic (s : State) (c : Ctx) (w : MainWord) (f : AtomForm) (st : AtomStep) (as : List LaneAccess) : Res :=
  let n := f.width / 8
  let lines := (as.map (fun a => lineOfKey a.x.key)).eraseDups
  let s1 := s.linesReady c lines
  if !s1.linesFree c lines || !s1.roomForKeys (wordKeys n as) || (as.any (fun a => a.x.pol == 0) && s1.ownWrites c.tid c.gid) then
    .wait s1 .transaction
  else (if acquiresAt (xOrder w) then s1.acquireReady c (xScope w) (as.map (fun a => a.x.key)) else .ready s1).andThen (fun s1 =>
    let r := as.foldl (fun (acc : State × List LaneValue) a =>
      let x := (acc.1.dropL1 c (lineOfKey a.x.key)).rmwLane c (xOrder w) (xScope w) n st a
      (x.1, acc.2 ++ [x.2])) (s1.touchLanes c .rmw 0 as, [])
    let s2 := if acquiresAt (xOrder w) then r.1.acquirePart c (xScope w) (as.map (fun a => a.x.key)) else r.1
    let scalar := f.sig.scalarForm c.vector w
    let s3 := s2.modGroup c.tid c.gid (fun g =>
      loadResult c s.tick g scalar w (.int f.width false) .general r.2 (fun l =>
        ((as.find? (fun a => a.lane == l)).map (fun a => a.va)).getD 0))
    s3.after c (xOrder w) (xScope w))

/-- R400: the copy of a line that a team's staged RMWs are applied to, fetched at the line's first staged RMW. -/
def State.lineCopy (s : State) (c : Ctx) (line : Nat) : State × List Byte :=
  match ((s.team? c.tid).bind (fun t => t.lineCopies.find? (fun x => x.1 == line))) with
  | some x => (s, x.2)
  | none =>
    let r := if localHome (keyHome (line * 128)) then (s, s.homeLine line)
      else
        let q := s.ask c.hub line (.read false)
        (q.1, (q.2.map (fun a => a.data)).getD [])
    (r.1.modTeam c.tid (fun t => { t with lineCopies := t.lineCopies ++ [(line, r.2)] }), r.2)

/-- R400: the atomics of a staged team, applied to what the team reads. -/
def stageAtomic (s : State) (c : Ctx) (w : MainWord) (f : AtomForm) (st : AtomStep) (as : List LaneAccess) : State :=
  let n := f.width / 8
  as.foldl (fun s a =>
    let team := (s.team? c.tid).getD c.team
    let copy := s.lineCopy c (lineOfKey a.x.key)
    let old := (List.range n).map (fun i => stagedByte team.staged (a.x.key + i) (copy.2.getD (a.x.key % 128 + i) 0))
    let new := match st.new a.lane (ofBytes old) with | some v => toBytes n v | none => old
    copy.1.stage c.tid
      { gid := c.gid, instr := s.tick, kernel := c.kernel, kind := 2, op := st.op, address := a.x.key, va := a.va, bytes := new,
        operand := st.operand a.lane, scope := xScope w, release := decide (2 ≤ xOrder w), durable := a.x.dur, mailReg := 0,
        mailKey := 0 }) s

/-- R447: an RMW of one lane in scratchpad. -/
def scratchAtomLane (p : Scratchpad) (pairs : List (Option PairSlot)) (n : Nat) (f : Nat → Option Nat) (fresh : Bool)
    (l a : Nat) : Scratchpad × LaneValue :=
  let x := redirect pairs a
  let v : LaneValue := { lane := l, bytes := p.readBytes x n, origin := p.originIn x n }
  match f (ofBytes v.bytes) with
  | none => (p, v)
  | some new =>
    let q := p.write x (toBytes n new)
    (if v.origin ≠ 0 ∧ fresh = false then { q with poison := p.poison } else q, v)

/-- An RMW of the lanes on scratchpad (R129, R447). -/
def finishScratchAtomic (s : State) (c : Ctx) (w : MainWord) (f : AtomForm) (st : AtomStep) (lanes : List Nat)
    (addr : Nat → Nat) : Res :=
  let n := f.width / 8
  let r := lanes.foldl (fun (acc : Scratchpad × List LaneValue) l =>
    let x := scratchAtomLane acc.1 c.team.pairs n (st.new l) st.fresh l (addr l)
    (x.1, acc.2 ++ [x.2])) (s.scratchOf c.tid c.group.coreIx, [])
  let s1 := s.modScratch c.tid c.group.coreIx (fun _ => r.1)
  let s2 := if acquiresAt (xOrder w) then s1.acquirePart c (xScope w) [] else s1
  let scalar := f.sig.scalarForm c.vector w
  let s3 := s2.modGroup c.tid c.gid (fun g =>
    loadResult c s.tick g scalar w (.int f.width false) .general r.2 (fun l => BitVec.ofNat 64 (addr l)))
  s3.after c (xOrder w) (xScope w)

/-- The body of ATOM and CAS. -/
def atomBody (w : MainWord) (f : AtomForm) (s : State) (c : Ctx) : Res :=
  let scalar := f.sig.scalarForm c.vector w
  let n := f.width / 8
  let a := f.sig.opA c w
  let lanes := c.accessLanes scalar
  let clean := cleanLanes a lanes
  let spad := scratchAddress a f.offset
  let va := fun l => a.val l + f.offset
  if !f.space && c.team.staging && w.d != 0xE0 then .trap (c.whole 0x28 0 0)
  else match (if scalar then none else destShapeCheck c w.d f.width .general) with
  | some t => .trap t
  | none =>
    let r := if f.space then ([], clean.filterMap (fun l => checkScratch c.scratch n l (spad l)))
      else checkLanes s c.space { kind := .rmw, bytes := n, atomic := true, own := false } va clean
    match c.laneTrap scalar r.2 with
    | some t => .trap t
    | none =>
      match c.poisonTrap s 0x0C ((w.a, 1, a) :: f.ops c) with
      | some t => .trap t
      | none =>
        if lanes = [] then .done s
        else if c.awaitsCommit then .wait s .commit
        else
          let st := f.step f.sig c w
          if f.space then
            c.present s (lanes.map spad) n
              ((s.before c (xOrder w) (xScope w)).andThen (fun s1 => finishScratchAtomic s1 c w f st lanes spad))
          else (s.before c (xOrder w) (xScope w)).andThen (fun s1 =>
            if c.stages then .done (stageAtomic s1 c w f st r.1) else finishAtomic s1 c w f st r.1)

/-- R129: ATOM. -/
def execAtom (w : MainWord) (s : State) : Host.Outcome State Fault Refusal :=
  let type := bits w.x 10 9
  let space := w.x.getLsbD 11
  let width := atomWidth type
  let g : Sig := { op := 0x300, form := atomForm w, d := .dstAny width, a := atomAddress space,
                   b := .s (.int width false), c := offsetUse, memory := true, mOk := atomTyped w.m.toNat type,
                   xMask := 0xE3F, fieldsOk := decide (xOrder w < 5) && decide (xScope w < if space then 2 else 7) }
  let step := fun (g : Sig) (c : Ctx) (w : MainWord) =>
    let b := g.opB c w
    ({ op := w.m.toNat, operand := fun l => toBytes (width / 8) (b.val l).toNat
       new := fun l old => some (atomNew w.m.toNat width old (b.val l).toNat)
       fresh := w.m == 8 } : AtomStep)
  let f : AtomForm := { sig := g, space := space, width := width, offset := memOffset w (width / 8), step := step,
                        ops := fun c => [(w.b, 2, g.opB c w)] }
  runMain s g w (atomBody w f)

/-- R130: CAS. -/
def execCas (w : MainWord) (s : State) : Host.Outcome State Fault Refusal :=
  let type := bits w.x 10 9
  let space := w.x.getLsbD 11
  let width := atomWidth type
  let g : Sig := { op := 0x301, form := atomForm w, d := .dstAny width, a := atomAddress space,
                   b := .s (.int width false), c := .s (.int width false), mOk := w.m == 0, xMask := 0xE3F,
                   fieldsOk := decide (type < 2) && decide (xOrder w < 5) && decide (xScope w < if space then 2 else 7) }
  let step := fun (g : Sig) (c : Ctx) (w : MainWord) =>
    let b := g.opB c w
    let n := g.opC c w
    ({ op := 0x10, operand := fun l => toBytes (width / 8) (b.val l).toNat ++ toBytes (width / 8) (n.val l).toNat
       new := fun l old => if old = (b.val l).toNat then some (n.val l).toNat else none
       fresh := true } : AtomStep)
  let f : AtomForm := { sig := g, space := space, width := width, offset := 0, step := step,
                        ops := fun c => [(w.b, 2, g.opB c w), (w.c, 3, g.opC c w)] }
  runMain s g w (atomBody w f)

/-! ## Reservations -/

/-- The home's table holds 4,096 reservations (R133). -/
def reservationCapacity : Nat := 4096

/-- R132: places a reservation for a lane, in place of the lane's old one; a full table loses its oldest. -/
def State.reserve (s : State) (c : Ctx) (n : Nat) (a : LaneAccess) : State :=
  let mine := fun (r : Reservation) => r.team == c.tid && r.gid == c.gid && r.lane == a.lane
  let drop := fun (h : Hub) => { h with reservations := h.reservations.filter (fun r => !mine r) }
  let s1 := (s.modHub .h0 drop).modHub .h1 drop
  s1.modHub (homeHub a.x.home) (fun h =>
    let kept := if reservationCapacity ≤ h.reservations.length then h.reservations.tail else h.reservations
    { h with reservations := kept ++ [{ team := c.tid, gid := c.gid, lane := a.lane, address := a.x.key, width := n, cycle := s.cycle }] })

/-- R132: LDR. -/
def execLdr (w : MainWord) (s : State) : Host.Outcome State Fault Refusal :=
  let g := loadSig 0x302 w true (xOrder w == 0 || xOrder w == 1 || xOrder w == 4)
  runMain s g w (fun s c =>
    let scalar := g.scalarForm c.vector w
    let n := widthBytes w.m
    let a := g.opA c w
    let va := effectiveAddress a w n
    let shape := loadShape w.a (xHint w)
    let lanes := c.accessLanes scalar
    if c.team.staging then .trap (c.whole 0x28 0 0)
    else match (if scalar then none else destShapeCheck c w.d (widthTy w.m).width
        (({ shape := shape, val := fun _ => 0, poison := fun _ => false } : RVal).written c)) with
    | some t => .trap t
    | none =>
      let r := checkLanes s c.space { kind := .read, bytes := n, atomic := true, own := true } va (cleanLanes a lanes)
      match c.laneTrap scalar r.2 with
      | some t => .trap t
      | none =>
        if lanes = [] then .done s
        else (s.before c (xOrder w) (xScope w)).andThen (fun s1 =>
          let lines := (r.1.map (fun x => lineOfKey x.x.key)).eraseDups
          let s2 := s1.linesReady c lines
          if !s2.linesFree c lines then .wait s2 .transaction
          else finishLoad s2 c g w shape va r.1 true (fun s =>
            (r.1.filter (fun x => (s.linkError c.hub (lineOfKey x.x.key)).isNone)).foldl (fun s x => s.reserve c n x) s)))

/-- R132, R133: whether a lane holds its reservation for exactly an address and width, and it has not expired. -/
def State.reserved (s : State) (c : Ctx) (n : Nat) (a : LaneAccess) : Bool :=
  (s.hub (homeHub a.x.home)).reservations.any (fun r => r.team == c.tid && r.gid == c.gid && r.lane == a.lane &&
    r.address == a.x.key && r.width == n && decide ((s.cycle - r.cycle).toNat < 4096))

/-- R132, R133: one lane's STC at the home; its reservation ends either way. One that cannot reach its home stores nothing, and completes
with error (R135). -/
def State.storeConditional (s : State) (c : Ctx) (scope order n : Nat) (p : LaneAccess × List Byte) : State × Bool :=
  let a := p.1
  let drop := fun (h : Hub) => { h with
    reservations := h.reservations.filter (fun r => !(r.team == c.tid && r.gid == c.gid && r.lane == a.lane)) }
  if (s.linkError c.hub (lineOfKey a.x.key)).isSome then
    let f := s.newTxn c.tid c.gid c.hub (lineOfKey a.x.key) (.write (cellsFrom a.x.key p.2) { WriteHow.hub a.x.dur with made := a.made c })
    ((f.modHub .h0 drop).modHub .h1 drop, false)
  else if s.reserved c n a then
    let wr := s.writer c scope (decide (order ≠ 0)) false a.x.dur
    ((((s.dropL1 c (lineOfKey a.x.key)).homeWrite a.x.key p.2 wr).modHub .h0 drop).modHub .h1 drop, true)
  else ((s.modHub .h0 drop).modHub .h1 drop, false)

/-- R132: STC. -/
def execStc (w : MainWord) (s : State) : Host.Outcome State Fault Refusal :=
  let g := storeSig 0x303 .byDest (.dstAny 32) w true 6
  runMain s g w (fun s c =>
    let scalar := g.scalarForm c.vector w
    let n := widthBytes w.m
    let a := g.opA c w
    let d := storeData g c w n
    let lanes := c.accessLanes scalar
    if c.team.staging then .trap (c.whole 0x28 0 0)
    else match (if scalar then none else destShapeCheck c w.d 32 .general) with
    | some t => .trap t
    | none =>
      let r := checkLanes s c.space { kind := .write, bytes := n, atomic := true, own := true } (effectiveAddress a w n)
        (cleanLanes a lanes)
      match c.laneTrap scalar r.2 with
      | some t => .trap t
      | none =>
        match c.poisonTrap s 0x0C [(w.a, 1, a), (w.b, 2, d.opnd)] with
        | some t => .trap t
        | none =>
          if lanes = [] then .done s
          else (s.before c (storeOrder (xOrder w)) (xScope w)).andThen (fun s1 =>
            let as := r.1.map (fun x => (x, d.bytes n x.lane))
            let s2 := s1.linesReady c (storeLines as)
            if !s2.linesFree c (storeLines as) || !s2.roomForKeys (durableKeys as) ||
                (as.any (fun p => effectivePolicy p.1.x.pol (xHint w) == 0) && s2.ownWrites c.tid c.gid) then .wait s2 .transaction
            else
              let q := as.foldl (fun (acc : State × List (Nat × Bool)) p =>
                let x := acc.1.storeConditional c (xScope w) (xOrder w) n p
                (x.1, acc.2 ++ [(p.1.lane, x.2)])) (s2.touchLanes c .write (xHint w) r.1, [])
              let status := fun l => if q.2.any (fun x => x.1 == l && x.2) then (0 : Dword) else 1
              let s3 := q.1.modGroup c.tid c.gid (fun x =>
                writeDest c x scalar w.d 32 { shape := .general, val := status, poison := fun _ => false })
              if q.2.any (fun x => x.2) then s3.after c (xOrder w) (xScope w) else .done s3))

end Sys2Proof.Machine
end

