-- ==== Sys2Proof/Machine/BarrierOps.lean ====
section
/-! DEFINITION. Named barriers: arrivals, generations and commit barriers (R138, R139, R398, R399, R406), and the sort that
a REORD makes (R103, R104). -/

namespace Sys2Proof.Machine

def Barrier.zero : Barrier := { expected := 1, arrivals := 0, gen := 0, reord := [], arrived := [], copyArrived := false }

def Team.barrier (t : Team) (n : Nat) : Barrier := t.barriers.getD n Barrier.zero

/-- R398: whether a completed generation is a commit barrier of the team. -/
def Team.commits (t : Team) (b : Barrier) : Bool :=
  t.staging && b.expected == t.groups.length && b.arrived.length == t.groups.length &&
  decide (b.arrived.eraseDups.length = b.arrived.length) && !b.copyArrived

/-- R399: after a generation of a barrier that commits nothing, the groups that waited for it go on. -/
def Team.clearArrivals (t : Team) (n : Nat) : Team :=
  { t with groups := t.groups.map (fun g => { g with arrivedAt := g.arrivedAt.filter (fun a => a.1 != n) }) }

/-- R401, R406: a completed generation. A plain one passes; a commit barrier commits first. -/
def State.completeBarrier (s : State) (tid n : Nat) : State :=
  match s.team? tid with
  | none => s
  | some t =>
    if t.commits (t.barrier n) then s.queueCommit tid n
    else s.modTeam tid (fun x => (x.modBarrier n Barrier.open).clearArrivals n)

/-! ## REORD -/

/-- A datum of a sort: where it comes from, its key, and what it carries. -/
structure Datum where
  gid : Nat
  lane : Nat
  key : Nat
deriving DecidableEq, Repr

/-- Stable insertion by key, after equal keys. -/
def insertDatum (d : Datum) : List Datum → List Datum
  | [] => [d]
  | e :: es => if d.key < e.key then d :: e :: es else e :: insertDatum d es

/-- R103: the stable sort by key. -/
def sortData (ds : List Datum) : List Datum := ds.foldl (fun acc d => insertDatum d acc) []

/-- Whether a register is marked by a mask. -/
def marked (lowMask highMask : Dword) (n : Nat) : Bool := if n < 64 then lowMask.getLsbD n else highMask.getLsbD (n - 64)

/-- R104: a group that holds an armed mailbox keeps its data. -/
def Group.holds (g : Group) : Bool := g.mailboxes.any (fun m => m.armed)

/-- The live slots of groups in (gid, lane) order. -/
def liveSlots (gs : List Group) : List (Nat × Nat) := gs.flatMap (fun g => (maskLanes g.regs.live).map (fun l => (g.gid, l)))

/-- The group of a number in a list. -/
def groupIn (gs : List Group) (gid : Nat) : Option Group := gs.find? (fun g => g.gid == gid)

/-- The data with the slots that they move to (R103). -/
def movesOf (gs : List Group) (key : Nat) : List (Datum × (Nat × Nat)) :=
  let movers := gs.filter (fun g => !g.holds)
  let data := movers.flatMap (fun g => (maskLanes g.regs.live).map (fun l =>
    { gid := g.gid, lane := l, key := ((g.regs.v key).lane l).toNat % 65536 : Datum }))
  (sortData data).zip (liveSlots movers)

/-- A general register after a sort: the words and poison bits that come to its slots. -/
def movedReg (gs : List Group) (moves : List (Datum × (Nat × Nat))) (g : Group) (n : Nat) : VReg :=
  let old := g.regs.v n
  let source := fun (l : Nat) => (moves.find? (fun m => m.2 == (g.gid, l))).bind (fun m =>
    (groupIn gs m.1.gid).map (fun h => (h.regs.v n, m.1.lane)))
  { store := .general (lanes64.map (fun l => match source l with
      | some (r, k) => r.lane k
      | none => old.lane l))
    poison := maskOf (fun l => match source l with
      | some (r, k) => laneBit r.poison k
      | none => laneBit old.poison l) }

/-- Predicate masks after a sort. -/
def movedMask (gs : List Group) (moves : List (Datum × (Nat × Nat))) (g : Group) (f : Group → Dword) : Dword :=
  maskOf (fun l => match (moves.find? (fun m => m.2 == (g.gid, l))).bind (fun m => (groupIn gs m.1.gid).map (fun h => laneBit (f h) m.1.lane)) with
    | some b => b
    | none => laneBit (f g) l)

/-- R395: the record that a group without one takes with the first poisoned datum that moves into it. -/
def movedOrigin (gs : List Group) (moves : List (Datum × (Nat × Nat))) (g : Group) (regs : List Nat) (preds : Bool) : PoisonOrigin :=
  if g.regs.porig.valid then g.regs.porig
  else
    match (moves.filter (fun m => m.2.1 == g.gid && m.1.gid != g.gid)).findSome? (fun m => (groupIn gs m.1.gid).bind (fun h =>
        if regs.any (fun n => laneBit (h.regs.v n).poison m.1.lane) || (preds && h.regs.predPoison.any (fun p => laneBit p m.1.lane)) then some h.regs.porig else none)) with
    | some r => r
    | none => g.regs.porig

/-- R103: one participant after the move. -/
def reordGroup (gs : List Group) (moves : List (Datum × (Nat × Nat))) (a : ReordArrival) (g : Group) : Group :=
  let regs := (List.range g.regs.vregs.length).filter (marked a.lowMask a.highMask)
  let g1 := if g.holds then g.regs
    else
      let r1 := regs.foldl (fun (r : GroupRegs) n => r.setV n (movedReg gs moves g n)) g.regs
      let r2 := { r1 with porig := movedOrigin gs moves g regs a.preds }
      if !a.preds then r2
      else { r2 with
        preds := (List.range 7).map (fun i => movedMask gs moves g (fun h => h.regs.preds.getD i 0))
        predPoison := (List.range 7).map (fun i => movedMask gs moves g (fun h => h.regs.predPoison.getD i 0)) }
  let tids := fun (l : Nat) => match moves.find? (fun m => m.2 == (g.gid, l)) with
    | some m => BitVec.ofNat 32 (64 * m.1.gid + m.1.lane)
    | none => BitVec.ofNat 32 (64 * g.gid + l)
  let r := g1.v a.dest.toNat
  { g with
    regs := if isV a.dest then
        g1.setV a.dest.toNat { store := .general (lanes64.map (fun l => if laneBit g.regs.live l then tids l else r.lane l))
                               poison := r.poison &&& ~~~g.regs.live }
      else g1 }

/-- The participants of a REORD, ascending by gid. -/
def Team.participants (t : Team) (b : Barrier) : List Group := t.groups.filter (fun g => b.reord.any (fun a => a.gid == g.gid))

/-- The waiting entry of a participant at a barrier. -/
def Group.reordWait (g : Group) (n : Nat) : Option EntryWait :=
  g.waits.find? (fun w => decide (w.kind = .reorder n) && w.kernel == g.kernel)

/-- R104: every participant takes collective divergence, one that is away in a handler when it issues its REORD again; the
arrivals by REORD end. -/
def State.failReord (s : State) (tid n : Nat) : State :=
  match s.team? tid with
  | none => s
  | some t =>
    let b := t.barrier n
    let s1 := s.modTeam tid (fun x => (x.modBarrier n (fun b => { b with
      arrivals := b.arrivals - b.reord.length, reord := [], arrived := b.arrived.filter (fun i => !b.reord.any (fun a => a.gid == i)) })))
    (t.participants b).foldl (fun s g =>
      let s2 := s.modGroup tid g.gid (fun x => { x with reordAt := none, arrivedAt := x.arrivedAt.filter (fun a => a.1 != n) })
      match g.reordWait n with
      | some w =>
        let m := g.entryLanes w.entry
        s2.takeTrap tid g.gid m { cause := 0x09, pc := w.entry.pc, lanes := m, val := m, val2 := g.regs.live }
      | none => s2.modGroup tid g.gid (fun x => { x with reordFailed := some n })) s1

/-- What a completed count of a core-scope REORD comes to (R104). -/
inductive ReordOutcome where
  /-- Some participant is away in a handler, and the move waits for it. -/
  | pending
  /-- The participants differ, or stand on more than one core. -/
  | diverged
  | moved (s : State)

/-- R398, R399: a commit at a REORD captures its participants' registers after the move, each group at the instruction after its arrival;
the one that issues now goes on where fall says. -/
def Team.captureAll (t : Team) (n : Nat) (issuer : Option Nat) (fall : Nat → Option LanePos) : Team :=
  { t with groups := t.groups.map (fun g =>
      if g.arrivedAt.any (fun a => a.1 == n) then
        { g with arrivedAt := (n, (if some g.gid = issuer then g.place fall else g).regs) :: g.arrivedAt.filter (fun a => a.1 != n) }
      else g) }

/-- R103, R104: the count of a barrier with REORD arrivals is complete; issuer is a participant that issues now, and fall where it goes
on. -/
def State.reordOutcome (s : State) (t : Team) (n : Nat) (issuer : Option Nat) (fall : Nat → Option LanePos) : ReordOutcome :=
  let b := t.barrier n
  let gs := t.participants b
  if gs.any (fun g => some g.gid != issuer && (g.reordWait n).isNone) then .pending
  else match b.reord with
    | [] => .diverged
    | a :: rest =>
      if rest.any (fun x => decide ({ x with gid := a.gid } ≠ a)) || gs.any (fun g => g.coreIx != ((gs.head?.map (fun g => g.coreIx)).getD 0)) then
        .diverged
      else
        let moves := movesOf gs a.key
        let after := fun (g : Group) =>
          if b.reord.any (fun x => x.gid == g.gid) then
            let g1 := { reordGroup gs moves a g with reordAt := none }
            match g.reordWait n with
            | some w =>
              let m := g.entryLanes w.entry
              (g1.unwait w.entry).place (fun l => if laneBit m l then some { w.entry with pc := w.fall } else none)
            | none => g1
          else g
        let s1 := s.modTeam t.id (fun x => { x with groups := x.groups.map after })
        if t.commits b then .moved ((s1.modTeam t.id (fun x => (x.modBarrier n (fun y => { y with reord := [] })).captureAll n issuer fall)).queueCommit t.id n)
        else .moved (s1.modTeam t.id (fun x => (x.modBarrier n Barrier.open).clearArrivals n))

/-- A completed count: of REORD arrivals, or of a plain generation. -/
def State.countComplete (s : State) (tid n : Nat) : State :=
  match s.team? tid with
  | none => s
  | some t =>
    if (t.barrier n).reord = [] then s.completeBarrier tid n
    else match s.reordOutcome t n none (fun _ => none) with
      | .pending => s
      | .diverged => s.failReord tid n
      | .moved s1 => s1

/-- R138, R399: one arrival of a group, recorded with the current generation, or of a copy. lanes and fall say where the
arriving entry goes on, for the registers that a commit captures. -/
def State.arriveAt (s : State) (tid n : Nat) (gid : Option Nat) (regs : Option GroupRegs) : State :=
  match s.team? tid with
  | none => s
  | some t =>
    let b := t.barrier n
    let b1 := { b with arrivals := b.arrivals + 1, arrived := b.arrived ++ gid.toList,
                       copyArrived := b.copyArrived || gid.isNone }
    let record := fun (g : Group) =>
      let g1 := { g with arrGen := g.arrGen.set n (some b.gen) }
      if t.staging && b.expected == t.groups.length then { g1 with arrivedAt := g1.arrivedAt ++ [(n, regs.getD g.regs)] } else g1
    let t1 := t.modBarrier n (fun _ => b1)
    let t2 := match gid with
      | some i => t1.modGroup i record
      | none => t1
    let s1 := s.setTeam t2
    if b1.expected ≤ b1.arrivals then s1.countComplete tid n else s1

end Sys2Proof.Machine
end

