-- ==== Sys2Proof/Machine/Barriers.lean ====
section
/-! DEFINITION. The barrier instructions (R138, R139). -/

namespace Sys2Proof.Machine

/-- The number of the barrier that C names. -/
def barNumber (w : MainWord) : Nat := bits w.c 5 0

/-- The signature of a barrier instruction: C[5:0] is the barrier, 48 to 63 being reserved. -/
def barSig (op : BitVec 10) (d a : FieldUse) (w : MainWord) : Sig :=
  { op := op, inS := false, d := d, a := a, c := .form 0x3F, mOk := w.m == 0, fieldsOk := decide (barNumber w < 48) }

/-- Whether a core is marked harvestable: a team resident on it has HARV.on in force (R139, R258). -/
def State.harvestable (s : State) (u : CoreUnit) : Bool :=
  s.teams.any (fun t => decide (t.hlim ≠ 0) && t.cores.any (fun c => decide (c.unit = u)))

/-- R139: the misuses of a barrier number. -/
def barMisuse (s : State) (c : Ctx) (n : Nat) : Bool :=
  decide (c.team.desc.barriers ≤ n) || (c.group.harvest && decide (n < 40)) ||
  (!c.group.harvest && decide (40 ≤ n) && s.harvestable c.unit)

/-- R139: barrier misuse. -/
def Ctx.misuse (c : Ctx) (n : Nat) : Res := .trap (c.whole 0x10 (BitVec.ofNat 64 n) 0)

/-- R138: BARI. -/
def execBari (w : MainWord) (s : State) : Host.Outcome State Fault Refusal :=
  let g := barSig 0x310 .unused (.src tN32 isUniform) w
  runMain s g w (fun s c =>
    let n := barNumber w
    let a := (loWord ((g.opA c w).val (lowestLane c.active))).toNat
    if c.active = 0 then .done s
    else if barMisuse s c n || decide ((c.team.barrier n).arrivals ≠ 0) || a == 0 || decide (1024 < a) then c.misuse n
    else .done (s.modTeam c.tid (fun t => t.modBarrier n (fun b => { b with expected := a, arrivals := 0 }))))

/-- The registers of the issuing group once its entry has moved on (R399). -/
def Ctx.arrivedRegs (c : Ctx) (w : MainWord) : GroupRegs := (c.group.place (fallThrough c w)).regs

/-- R138: the release and the arrival of BARA, which waits while the generation before it is committed (R401); with REORD arrivals pending everyone takes 0x09 (R104). -/
def barArrive (s : State) (c : Ctx) (w : MainWord) (k : State → Res) : Res :=
  let n := barNumber w
  if c.team.opening n then .wait s .commit
  else (s.release c 1 false).andThen (fun s1 =>
    if (c.team.barrier n).reord = [] then k (s1.arriveAt c.tid n (some c.gid) (some (c.arrivedRegs w)))
    else .fails (s1.failReord c.tid n) (c.whole 0x09 c.entry c.live))

/-- R138: BARA. -/
def execBara (w : MainWord) (s : State) : Host.Outcome State Fault Refusal :=
  let g := barSig 0x311 .unused .unused w
  runMain s g w (fun s c =>
    if c.active = 0 then .done s
    else if barMisuse s c (barNumber w) then c.misuse (barNumber w)
    else barArrive s c w .done)

/-- R138: the wait of BARW: a group that never arrived passes at once, one whose generation has moved acquires. -/
def barWait (s : State) (c : Ctx) (n : Nat) : Res :=
  match s.team? c.tid with
  | none => .gone s
  | some t =>
    match ((t.group? c.gid).bind (fun g => (g.arrGen[n]?).getD none)) with
    | none => .done s
    | some gen =>
      if gen = (t.barrier n).gen then .wait s (.barrier n gen)
      else .done (s.acquire c.tid c.gid c.group.coreIx 1 c.unit false)

/-- R138: BARW. -/
def execBarw (w : MainWord) (s : State) : Host.Outcome State Fault Refusal :=
  let g := barSig 0x312 .unused .unused w
  runMain s g w (fun s c =>
    if c.active = 0 then .done s
    else if barMisuse s c (barNumber w) then c.misuse (barNumber w)
    else barWait s c (barNumber w))

/-- R138: BARS, BARA then BARW. -/
def execBars (w : MainWord) (s : State) : Host.Outcome State Fault Refusal :=
  let g := barSig 0x313 .unused .unused w
  runMain s g w (fun s c =>
    if c.active = 0 then .done s
    else if barMisuse s c (barNumber w) then c.misuse (barNumber w)
    else barArrive s c w (fun s1 => barWait s1 c (barNumber w)))

/-- R138: BARQ. -/
def execBarq (w : MainWord) (s : State) : Host.Outcome State Fault Refusal :=
  let g := barSig 0x314 (.dst 64 statusCode) .unused w
  runMain s g w (fun s c =>
    let b := c.team.barrier (barNumber w)
    if c.active = 0 then .done s
    else if barMisuse s c (barNumber w) then c.misuse (barNumber w)
    else
      let v := BitVec.ofNat 64 (b.arrivals % 65536 + b.expected % 65536 * 2 ^ 16 + b.gen.toNat * 2 ^ 32)
      .done (c.put s (writeScalar c.group w.d v (decide (c.guardPoison ≠ 0)))))

end Sys2Proof.Machine
end

