-- ==== Sys2Proof/Machine/CopyOps.lean ====
section
/-! DEFINITION. The copy engine (R121 to R125, R127, R448): the pieces of a copy, what becomes of each, and how they land. -/

namespace Sys2Proof.Machine

/-! ## Geometry -/

/-- R123: the pieces of a row that lie in one scratchpad line each. -/
def rowPieces (base w row : Nat) : List (Nat × Nat × Nat) := (linePieces base w).map (fun p => (row, p.1, p.2))

/-- R122: the scratchpad address of a byte of a row, and the global one. -/
def Copy.scratchAt (c : Copy) (row off : Nat) : Nat := c.scratchBase + c.scratchPitch * row + off
def Copy.globalAt (c : Copy) (index off : Nat) : Dword :=
  c.globalBase + c.globalPitch * BitVec.ofNat 64 index + BitVec.ofNat 64 off

/-- R121, R122: all pieces of a copy. -/
def Copy.pieces (c : Copy) : List (Nat × Nat × Nat) :=
  (List.range c.rows).flatMap (fun r => rowPieces (c.scratchAt r 0) c.rowBytes r)

/-- R127: where a copy's destination byte lies. -/
def Copy.dest (c : Copy) (row off : Nat) : Nat := shadowOf c.pairs (c.scratchAt row off)

/-- R123, R127: the scratchpad lines whose presence a copy into scratchpad clears and sets again. -/
def Copy.presenceLines (c : Copy) (ps : List (Nat × Nat × Nat)) : List Nat :=
  if c.dir = .outward then []
  else (ps.filterMap (fun p => if c.dest p.1 p.2.1 = c.scratchAt p.1 p.2.1 then some (c.scratchAt p.1 p.2.1 / 128) else none)).eraseDups

/-- R127: whether a copy writes the shadow of a slot. -/
def Copy.intoShadow (c : Copy) (q : PairSlot) : Bool :=
  decide (c.dir ≠ .outward) && c.pairs.any (fun x => x.any (fun y => y.base == q.base && y.size == q.size)) &&
  c.pieces.any (fun p => let a := c.scratchAt p.1 p.2.1; decide (q.base ≤ a ∧ a < q.base + q.size))

/-! ## Reading rows -/

/-- What a row's index is (R122). -/
inductive RowIx where
  | known (n : Nat)
  | absent
  | poisoned (n : Nat) (origin : Byte)

/-- R122: the index of a row: its number, or the entry of the list, read once. -/
def Copy.index (c : Copy) (p : Scratchpad) (pairs : List (Option PairSlot)) (row : Nat) : RowIx :=
  match c.indexList with
  | none => .known row
  | some b =>
    match c.indices.find? (fun x => x.1 == row) with
    | some x => .known x.2
    | none =>
      let a := redirect pairs (b + 4 * row)
      if (p.absentIn a 4).isSome then .absent
      else
        let n := ofBytes (p.readBytes a 4)
        if p.originIn a 4 = 0 then .known n else .poisoned n (p.originIn a 4)

/-- The address space in which a copy of a group is checked (R380). -/
def Copy.space (t : Team) (u : CoreUnit) (c : Copy) : Space :=
  { asn := t.asn, ptroot := t.ptroot, hub := t.hub, tenant := t.tenant, kernel := decide (c.level = .kernel),
    masterHub := unitHub u, pos := unitChiplet u, tlb := some u, engine := true }

/-- R385: one access of a copy to a line; the queue register space takes only accesses of 8 bytes (R236). -/
def checkCopy (s : State) (sp : Space) (k : AccessKind) (va : Dword) : XRes :=
  match translate s sp va k with
  | .ok x => if (s.queueRegister x.key).isSome then .bad { cause := 0x25, rank := 1 } else .ok x
  | .bad f => .bad f

/-- The parts of a global range that lie in one line each, with their checks. -/
def copyParts (s : State) (sp : Space) (k : AccessKind) (va : Dword) (n : Nat) : List (Nat × Nat × XRes) :=
  (linePieces va.toNat n).map (fun p => (p.1, p.2, checkCopy s sp k (va + BitVec.ofNat 64 p.1)))

/-- R385: the first part that stops the engine: not present, or write denied on a write. -/
def stoppingPart (va : Dword) (write : Bool) (ps : List (Nat × Nat × XRes)) : Option (XFault × Dword) :=
  ps.findSome? (fun p => match p.2.2 with
    | .bad f => if f.cause = 0x20 ∨ (f.cause = 0x22 ∧ write = true) then some (f, va + BitVec.ofNat 64 p.1) else none
    | .ok _ => none)

/-! ## The fate of a piece -/

/-- What becomes of a piece now. -/
inductive PieceFate where
  /-- It waits: for an absent line it reads (R123), or for the leader's read (R404). -/
  | blocked
  /-- It meets a translation fault (R125). -/
  | stops (f : XFault) (va : Dword)
  /-- Some of its bytes cannot be written (R448). -/
  | fails
  | lands
  /-- A follower's read that differs from its leader's (R404). -/
  | mismatch
deriving DecidableEq, Repr

/-- Where a copy's group stands. -/
structure CopyAt where
  team : Team
  group : Group
  unit : CoreUnit
  copy : Copy

/-- Finds a copy. -/
def State.copyAt (s : State) (tid id : Nat) : Option CopyAt :=
  match s.team? tid with
  | none => none
  | some t =>
    match t.copies.find? (fun c => c.id == id) with
    | none => none
    | some c =>
      match t.group? c.gid with
      | none => none
      | some g => (t.coreOf g).map (fun u => { team := t, group := g, unit := u, copy := c })

/-- R231, R232: a discarded scratchpad whose absent lines are those that have landed in the new one. -/
def Scratchpad.filledFrom (old new : Scratchpad) : Scratchpad :=
  (old.absent.filter (fun l => !new.absent.contains l)).foldl (fun q l =>
    (List.range 32).foldl (fun q i =>
      let a := 128 * l + 4 * i
      let w := q.write a (new.readBytes a 4)
      if new.originIn a 4 = 0 then w else w.poisonRange a 4 (new.originIn a 4)) (q.setPresence l)) old

/-- The scratchpad that a copy reads: its team's, or the one that was discarded after its issue (R232). -/
def Copy.reads (c : Copy) (now : Scratchpad) : Scratchpad :=
  match c.source with
  | none => now
  | some old => old.filledFrom now

/-- The scratchpad of a copy's group. -/
def CopyAt.scratch (x : CopyAt) : Scratchpad :=
  x.copy.reads (((x.team.share? x.group.coreIx).map (fun c => c.scratch)).getD (Scratchpad.clear 0))

/-- Whether a 16-byte chunk of the scratchpad source holds a poisoned word (R448). -/
def CopyAt.badChunk (x : CopyAt) (row off : Nat) : Byte :=
  x.scratch.originIn (redirect x.team.pairs (x.copy.scratchAt row off)) 16

/-- The read that a leader's copy fed to its follower's for a part of a row (R404). -/
def CopyAt.fed (x : CopyAt) (row off : Nat) : Option FedRead :=
  x.team.feed.find? (fun f => decide (f.copy = some (x.copy.ordinal, row, off)) && f.gid == x.copy.gid)

/-- Whether a fed read is of an address and a length. -/
def FedRead.of (f : FedRead) (va : Dword) (n : Nat) : Bool :=
  match f.words with
  | [w] => decide (w.address = va) && w.bytes.length == n
  | _ => false

/-- R448: whether a part of an outward piece is refused. -/
def State.partRefused (s : State) (x : CopyAt) (q : Nat × Nat × XRes) : Bool :=
  match q.2.2 with
  | .bad _ => true
  | .ok y => (s.linkError (unitHub x.unit) (lineOfKey y.key)).isSome

/-- R316, R351: the core's path readied for an outward piece's stores; none while they must wait. -/
def State.pieceRoom (s : State) (x : CopyAt) (parts : List (Nat × Nat × XRes)) : Option State :=
  if x.team.staging then some s
  else
    let good := parts.filterMap (fun q => match q.2.2 with
      | .ok y => some (y, q.2.1)
      | .bad _ => none)
    let keys := fun (gs : List (Xlat × Nat)) => (gs.filter (fun g => g.1.dur)).flatMap (fun g => (List.range g.2).map (fun i => g.1.key + i))
    if !s.roomForKeys (keys (good.filter (fun g => effectivePolicy g.1.pol x.copy.hint == 0))) then none
    else s.pathFor x.unit x.team.id x.copy.gid ((good.map (fun g => lineOfKey g.1.key)).eraseDups) (keys good)

/-- R123, R125, R448: what becomes of a piece. -/
def State.pieceFate (s : State) (x : CopyAt) (p : Nat × Nat × Nat) : PieceFate :=
  let c := x.copy
  match c.index x.scratch x.team.pairs p.1 with
  | .absent => .blocked
  | .poisoned _ _ => if c.dir = .outward then .fails else .lands
  | .known ix =>
    let va := c.globalAt ix p.2.1
    match c.dir with
    | .inward =>
      let parts := copyParts s (c.space x.team x.unit) .read va p.2.2
      match stoppingPart va false parts with
      | some f => .stops f.1 f.2
      | none =>
        let fed := parts.map (fun q => (x.fed p.1 (p.2.1 + q.1)).map (fun f => f.of (va + BitVec.ofNat 64 q.1) q.2.1))
        if !x.team.follower then .lands
        else if fed.contains (some false) then .mismatch
        else if fed.contains none then .blocked
        else .lands
    | .within =>
      if (x.scratch.absentThrough x.team.pairs (loWord va).toNat p.2.2).isSome then .blocked else .lands
    | .outward =>
      if (x.scratch.absentIn (redirect x.team.pairs (c.scratchAt p.1 p.2.1)) p.2.2).isSome then .blocked
      else
        let parts := copyParts s (c.space x.team x.unit) .write va p.2.2
        match stoppingPart va true parts with
        | some f => .stops f.1 f.2
        | none =>
          let poisoned := (List.range (p.2.2 / 16)).any (fun i => x.badChunk p.1 (p.2.1 + 16 * i) != 0)
          if (s.pieceRoom x parts).isNone then .blocked
          else if parts.any (s.partRefused x) || poisoned then .fails else .lands

/-! ## Landing -/

/-- Bytes that nothing states: what lands where a source could not be read (R123). -/
def freeBytes (tick n : Nat) : List Byte := (List.range n).map (fun i => (Config.freeReading tick (3000 + i)).setWidth 8)

/-- Bytes with the origin of their poison. -/
abbrev Landed := List Byte × Byte

/-- R124: one part of an inward piece at a place of a row, read as a relaxed load of the group. -/
def State.readPart (s : State) (x : CopyAt) (va : Dword) (row off : Nat) (q : Nat × Nat × XRes) : State × Landed :=
  let a := va + BitVec.ofNat 64 q.1
  match q.2.2 with
  | .bad f => (s, freeBytes s.tick q.2.1, BitVec.ofNat 8 f.cause)
  | .ok y =>
    match (if x.team.follower then x.fed row (off + q.1) else none) with
    | some f =>
      let w := f.words.headD { address := a, bytes := [], origin := 0 }
      (s.modTeam x.team.id (fun t => { t with feed := t.feed.erase f }), w.bytes, w.origin)
    | none =>
      let h := unitHub x.unit
      let s1 := (s.touch (x.copy.space x.team x.unit) a .read y).countMigration h x.team.asn a y
      match s.localError h (lineOfKey y.key) with
      | some e => (s1, freeBytes s.tick q.2.1, e)
      | none =>
        let r := s1.groupLoad x.team.id x.copy.gid x.group.coreIx x.unit y.key q.2.1
          { policy := effectivePolicy y.pol x.copy.hint, hint := x.copy.hint, mode := y.mode, durable := y.dur, acquire := false, atHome := false }
        let origin := r.1.readOrigin x.team h y.key q.2.1
        let s2 := match x.team.twin with
          | some f => if x.team.leader then r.1.modTeam f (fun t => { t with
              feed := t.feed ++ [{ gid := x.copy.gid, copy := some (x.copy.ordinal, row, off + q.1)
                                   words := [{ address := a, bytes := r.2, origin := origin }] }] }) else r.1
          | none => r.1
        (s2, r.2, origin)

/-- Bytes land in a scratchpad, poisoned when they carry an origin (R123). -/
def Scratchpad.land (p : Scratchpad) (a : Nat) (b : Landed) : Scratchpad :=
  let p1 := p.write a b.1
  if b.2 = 0 then p1 else p1.poisonRange a b.1.length b.2

/-- R123: a piece has landed: it is no longer outstanding, and its line is present once no other piece is. -/
def State.pieceDone (s : State) (x : CopyAt) (p : Nat × Nat × Nat) : State :=
  let c := x.copy
  let left := c.left.erase p
  let note := match c.indexList with
    | none => c.indices
    | some _ => match c.index x.scratch x.team.pairs p.1 with
      | .known n => if c.indices.any (fun y => y.1 == p.1) then c.indices else (p.1, n) :: c.indices
      | _ => c.indices
  let s1 := s.modTeam x.team.id (fun t => { t with
    copies := updateWhere (fun y => y.id == c.id) (fun y => { y with left := left, indices := note }) t.copies })
  let done := (c.presenceLines [p]).filter (fun l => !(c.presenceLines left).contains l)
  s1.modScratch x.team.id x.group.coreIx (fun q => done.foldl (fun q l => q.setPresence l) q)

/-- R123: an inward or inner piece lands; of a row whose index is poisoned, as poison of its origin (DESIGN CHOICE, log 77). -/
def State.landPiece (s : State) (x : CopyAt) (p : Nat × Nat × Nat) : State :=
  let c := x.copy
  let dst := c.dest p.1 p.2.1
  let put := fun (s : State) (a : Nat) (b : Landed) => s.modScratch x.team.id x.group.coreIx (fun q => q.land a b)
  match c.index x.scratch x.team.pairs p.1 with
  | .absent => s
  | .poisoned _ o => (put s dst (freeBytes s.tick p.2.2, o)).pieceDone x p
  | .known ix =>
    let va := c.globalAt ix p.2.1
    match c.dir with
    | .inward =>
      ((copyParts s (c.space x.team x.unit) .read va p.2.2).foldl (fun s q =>
        let r := s.readPart x va p.1 p.2.1 q
        put r.1 (dst + q.1) r.2) s).pieceDone x p
    | .within =>
      let src := fun (i : Nat) => redirect x.team.pairs ((loWord va).toNat + 4 * i)
      if !x.scratch.inside (loWord va).toNat p.2.2 then (put s dst (freeBytes s.tick p.2.2, 0x24)).pieceDone x p
      else
        ((List.range (p.2.2 / 4)).foldl (fun s i =>
          put s (dst + 4 * i) (x.scratch.readBytes (src i) 4, x.scratch.originIn (src i) 4)) s).pieceDone x p
    | .outward => s

/-- The place of a byte of a piece among the bytes of the team's copies. -/
def Copy.placeOf (c : Copy) (p : Nat × Nat × Nat) (off : Nat) : Nat := (c.id * 2 ^ 32 + p.1) * 2 ^ 32 + p.2.1 + off

/-- R124, R400: the 16-byte chunks of one part of an outward piece, with their offsets in it, written as a relaxed store of the
group to their line, or staged one by one (R405). -/
def State.writePart (s : State) (x : CopyAt) (va : Dword) (y : Xlat) (place : Nat) (chunks : List (Nat × List Byte)) : State :=
  let c := x.copy
  if x.team.staging then
    chunks.foldl (fun s b =>
      s.stage x.team.id { gid := c.gid, instr := s.tick, kernel := false, kind := 3, op := 0, address := y.key + b.1, va := va + BitVec.ofNat 64 b.1, bytes := b.2,
                          operand := [], scope := 0, release := false, durable := y.dur, mailReg := 0, mailKey := 0 }) s
  else if chunks = [] then s
  else
    (s.groupStore x.team.id c.gid x.group.coreIx x.unit (lineOfKey y.key) (chunks.flatMap (fun b => cellsFrom (y.key + b.1) b.2))
      { policy := effectivePolicy y.pol c.hint, mode := y.mode, durable := y.dur
        made := { source := .copy place, va := va - BitVec.ofNat 64 (y.key % 128), kernel := false } }).modL1
      x.team.id x.group.coreIx (fun l => l.drop (lineOfKey y.key))

/-- A failure of a copy that is held (R448). -/
def copyFailure (place : Nat) (cause : Byte) (val val2 : Dword) : HeldFailure :=
  { copy := true, place := place, cause := cause, val := val, val2 := val2 }

/-- R448: one part of an outward piece: its chunks that can be written are, and the failures are told. -/
def State.outPart (s : State) (x : CopyAt) (p : Nat × Nat × Nat) (va : Dword) (q : Nat × Nat × XRes) : State × List HeldFailure :=
  let c := x.copy
  let a := va + BitVec.ofNat 64 q.1
  match q.2.2 with
  | .bad f => (s, [copyFailure (c.placeOf p q.1) (BitVec.ofNat 8 f.cause) (f.val.getD a) f.val2])
  | .ok y =>
    match s.linkError (unitHub x.unit) (lineOfKey y.key) with
    | some e =>
      let v := s.requestFailure (unitHub x.unit) (lineOfKey y.key) e
      (s, [copyFailure (c.placeOf p q.1) e v.1 v.2])
    | none =>
      let offsets := (List.range (q.2.1 / 16)).map (fun i => 16 * i)
      let origin := fun (o : Nat) => x.badChunk p.1 (p.2.1 + q.1 + o)
      let s1 := (s.touch (c.space x.team x.unit) a .write y).countMigration (unitHub x.unit) x.team.asn a y
      (s1.writePart x a y (c.placeOf p q.1) ((offsets.filter (fun o => origin o == 0)).map (fun o =>
          (o, x.scratch.readBytes (redirect x.team.pairs (c.scratchAt p.1 (p.2.1 + q.1 + o))) 16))),
        (offsets.filter (fun o => origin o != 0)).map (fun o =>
          copyFailure (c.placeOf p (q.1 + o)) 0x0C ((origin o).setWidth 64) (a + BitVec.ofNat 64 o)))

/-- R448: an outward piece: its bytes that can be written are, and the failures are held; a row whose index is poisoned is not written,
and 0x0C is held (DESIGN CHOICE, log 77). -/
def State.writePiece (s : State) (x : CopyAt) (p : Nat × Nat × Nat) : State :=
  let c := x.copy
  match c.index x.scratch x.team.pairs p.1 with
  | .absent => s
  | .poisoned ix o =>
    (s.pieceDone x p).holdFailure x.team.id c.gid (copyFailure (c.placeOf p 0) 0x0C (o.setWidth 64) (c.globalAt ix p.2.1))
  | .known ix =>
    let va := c.globalAt ix p.2.1
    let parts := copyParts s (c.space x.team x.unit) .write va p.2.2
    let r := parts.foldl (fun (acc : State × List HeldFailure) q =>
      let y := acc.1.outPart x p va q
      (y.1, acc.2 ++ y.2)) ((s.pieceRoom x parts).getD s, [])
    r.2.foldl (fun s f => s.holdFailure x.team.id c.gid f) (r.1.pieceDone x p)

/-- R125: the pieces before a stopped copy's cursor; all that are left of one that is not stopped. -/
def Copy.before (c : Copy) : List (Nat × Nat × Nat) :=
  if c.stopped then c.left.takeWhile (fun p => p != c.cursor) else c.left

/-- R125, R386: the rest of a declined copy, from its cursor on: read lines land poisoned with origin 0x2A, writes are not made. -/
def State.declineCopy (s : State) (x : CopyAt) : State :=
  let c := x.copy
  let rest := c.left.drop c.before.length
  let s1 := if c.dir = .outward then s
    else rest.foldl (fun s p => s.modScratch x.team.id x.group.coreIx (fun q =>
      q.land (c.dest p.1 p.2.1) (freeBytes s.tick p.2.2, 0x2A))) s
  let done := (c.presenceLines rest).filter (fun l => !(c.presenceLines c.before).contains l)
  let s2 := s1.modScratch x.team.id x.group.coreIx (fun q => done.foldl (fun q l => q.setPresence l) q)
  s2.modTeam x.team.id (fun t => { t with
    copies := updateWhere (fun y => y.id == c.id) (fun y => { y with left := c.before, stopped := false, tag := none }) t.copies })

/-- R125: the pieces that may land now: those before the first that meets a translation fault, and before the cursor of a copy
that has stopped (R358). -/
def State.openPieces (s : State) (x : CopyAt) : List (Nat × Nat × Nat) :=
  x.copy.before.takeWhile (fun p => match s.pieceFate x p with
    | .stops _ _ => false
    | _ => true)

/-- The pieces of a copy with a fate that may come now. -/
def State.piecesWith (s : State) (x : CopyAt) (f : PieceFate → Bool) : List (Nat × Nat × Nat) :=
  (s.openPieces x).filter (fun p => f (s.pieceFate x p))

/-- R125: the piece at which a copy stops: the first in its order that meets a translation fault, with the fault and the address. -/
def State.stoppingPiece (s : State) (x : CopyAt) : Option ((Nat × Nat × Nat) × XFault × Dword) :=
  if x.copy.stopped then none
  else x.copy.left.findSome? (fun p => match s.pieceFate x p with
    | .stops f va => some (p, f, va)
    | _ => none)

/-- R121: the pieces that may land do so in any order (log 1). -/
def CopyAt.pick (x : CopyAt) (ps : List (Nat × Nat × Nat)) : Option (Nat × Nat × Nat) :=
  match ps with
  | [] => none
  | [p] => some p
  | ps => ps[Config.freeChoice ((x.team.id * 2 ^ 32 + x.copy.id) * 2 ^ 32 + x.copy.left.length + 1000000) % ps.length]?

/-- R124: whether a finished copy may arrive at its barrier, a release at team scope of everything it wrote. -/
def State.copyReleased (s : State) (x : CopyAt) : Bool :=
  let held := s.holdsStores x.unit x.team.id x.copy.gid ||
    s.txns.any (fun y => y.team == x.team.id && y.gid == x.copy.gid)
  x.copy.left.isEmpty && (x.copy.dir != .outward || x.team.narrow 1 || !held)

/-- Adds a copy: the presence bits of its destination lines are cleared at issue (R123). -/
def State.startCopy (s : State) (c : Ctx) (x : Copy) : State :=
  let y := { x with id := c.team.nextCopy, ordinal := c.group.copiesIssued, left := x.pieces }
  let s1 := s.modTeam c.tid (fun t => { t.modGroup c.gid (fun g => { g with copiesIssued := g.copiesIssued + 1 }) with
    copies := t.copies ++ [y], nextCopy := t.nextCopy + 1 })
  s1.modScratch c.tid c.group.coreIx (fun p => p.clearPresence (y.presenceLines y.left))

end Sys2Proof.Machine
end

