-- ==== Sys2Proof/Machine/Copy.lean ====
section
/-! DEFINITION. CPY, CPYW and PUBL (R121 to R128), and what the copy engine does after issue (R123 to R125, R448). -/

namespace Sys2Proof.Machine

/-! ## Issue -/

/-- R121: the direction of a copy. -/
def copyDir (w : MainWord) : CopyDir :=
  match bits w.m 1 0 with
  | 0 => .inward
  | 1 => .outward
  | _ => .within

/-- R121: the completion barrier of field D. -/
def copyBarrier (w : MainWord) : Option Nat := if w.d.getLsbD 6 then some (bits w.d 5 0) else none

/-- R139: a completion barrier that the group may not use. -/
def Ctx.copyMisuse (c : Ctx) (s : State) (w : MainWord) : Option TrapInfo :=
  match copyBarrier w with
  | some n => if barMisuse s c n then some (c.whole 0x10 (BitVec.ofNat 64 n) 0) else none
  | none => none

/-- R121: copies that the group, and its core, may still start. -/
def State.copyFull (s : State) (c : Ctx) : Bool :=
  decide (16 ≤ (c.team.copies.filter (fun x => x.gid == c.gid)).length) ||
  decide (64 ≤ (s.teams.flatMap (fun t => t.copies.filter (fun x =>
    match t.group? x.gid with
    | some g => decide (t.coreOf g = some c.unit)
    | none => false))).length)

/-- A 64-bit value told as a misaligned one (R121). -/
def Ctx.misaligned (c : Ctx) (v : Dword) : Option TrapInfo := some (c.active_ 0x25 v 0)

/-- The first of some traps. -/
def firstTrap (ts : List (Option TrapInfo)) : Option TrapInfo := ts.findSome? id

/-- R121: a value that must be a multiple of 16. -/
def Ctx.by16 (c : Ctx) (v : Dword) : Option TrapInfo := if v.toNat % 16 ≠ 0 then c.misaligned v else none

/-- R108, R223: a scratchpad range outside the allocation. -/
def Ctx.scratchBound (c : Ctx) (a n : Nat) : Option TrapInfo :=
  if c.scratch.inside a n then none else some (c.active_ 0x24 (BitVec.ofNat 64 (max a c.scratch.size)) 0)

/-- What issue makes of a copy that has passed its checks: nothing without an active lane, an arrival at once when it has
no bytes, else a start when there is room. -/
def issueCopy (s : State) (c : Ctx) (w : MainWord) (x : Copy) : Res :=
  if c.active = 0 then .done s
  else if c.awaitsCommit then .wait s .commit
  else if s.copyFull c then .wait s .copyCapacity
  else if x.rows * x.rowBytes = 0 then
    match copyBarrier w with
    | some n => .done (s.arriveAt c.tid n none none)
    | none => .done s
  else .done (s.startCopy c x)

/-- A copy of an issuing group, before its sides are known. -/
def Ctx.copy (c : Ctx) (w : MainWord) : Copy :=
  { id := 0, gid := c.gid, ordinal := 0, dir := copyDir w, rows := 1, rowBytes := 0, globalBase := 0, globalPitch := 0, scratchBase := 0,
    scratchPitch := 0, indexList := none, indices := [], hint := xHint w, barrier := copyBarrier w, pairs := c.team.pairs,
    left := [], stopped := false, cursor := (0, 0, 0), tag := none, stopCause := 0, stopWalk := 0, stopVa := 0,
    level := if c.kernel then .kernel else .task, source := none }

/-- R121: the codes of CPY's count. -/
def countCode (x : Byte) : Bool := isScalarReg x || isConst x || x == 0xF8

/-- R121: CPY. A .sp source beyond the allocation is no fault: its lines land poisoned (R123). -/
def execCpy (w : MainWord) (s : State) : Host.Outcome State Fault Refusal :=
  let within := bits w.m 1 0 == 2
  let g : Sig := { op := 0x293, inS := false, d := .form 0x7F,
                   a := .src (if within then tN32 else tN64) isUniform, b := .src tN32 isUniform, c := .src tN32 countCode,
                   mOk := decide (w.m.toNat < 3), xMask := 0x1C0, fieldsOk := decide (xHint w < 6) }
  runMain s g w (fun s c =>
    let a := g.opA c w
    let b := g.opB c w
    let n := g.opC c w
    let count := (n.val 0).toNat
    let x0 := c.copy w
    let x := { x0 with rowBytes := count, globalBase := if within then b.val 0 else a.val 0
                       scratchBase := if within then (a.val 0).toNat else (b.val 0).toNat }
    let bounds := if count = 0 then [] else
      [c.scratchBound x.scratchBase count]
    match firstTrap ([c.copyMisuse s w, c.by16 (a.val 0), c.by16 (b.val 0), c.by16 (n.val 0),
        if 2 ^ 24 < count then c.misaligned (n.val 0) else none] ++ bounds) with
    | some t => if c.active = 0 then .done s else .trap t
    | none =>
      match c.poisonTrap s 0x0C [(w.a, 1, a), (w.b, 2, b), (w.c, 3, n)] with
      | some t => .trap t
      | none => issueCopy s c w x)

/-- R122: the code of CPYW's first descriptor register. -/
def windowCode (x : Byte) : Bool := isS x && x.toNat % 4 == 0

/-- R122: CPYW. DESIGN CHOICE (log 77): a width or a row count of 0 is told as 0x25 with s4n+3, a misaligned index list as 0x25, and one
that reaches beyond the allocation as 0x24. -/
def execCpyw (w : MainWord) (s : State) : Host.Outcome State Fault Refusal :=
  let idx := bits w.m 3 2 == 1
  let g : Sig := { op := 0x294, inS := false, d := .form 0x7F, a := .src tN64 windowCode,
                   b := .src tN32 (fun x => if idx then isUniform x else x == 0xE0)
                   mOk := decide (w.m.toNat < 8) && bits w.m 1 0 != 3, xMask := 0x1C0, fieldsOk := decide (xHint w < 6) }
  runMain s g w (fun s c =>
    let r := fun (i : Nat) => c.group.regs.s (w.a.toNat - 0x80 + i)
    let b := g.opB c w
    let within := bits w.m 1 0 == 2
    let base := if within then zextDword 32 (r 0).value else (r 0).value
    let p := bits (r 1).value 31 0
    let q := bits (r 1).value 63 32
    let h := (r 2).value
    let wb := bits (r 3).value 23 0
    let n := bits (r 3).value 47 24
    let list := (b.val 0).toNat
    let x0 := c.copy w
    let x := { x0 with rows := n, rowBytes := wb, globalBase := base, globalPitch := h, scratchBase := p, scratchPitch := q
                       indexList := if idx then some list else none }
    let desc : Opnd := { Opnd.const 0 with poison := fun _ => (r 0).poison || (r 1).poison || (r 2).poison || (r 3).poison }
    let rowsIn := fun (f : Nat → Nat) => firstTrap ((List.range n).map (fun i => c.scratchBound (f i) wb))
    match firstTrap [c.copyMisuse s w,
        if bits (r 3).value 63 48 ≠ 0 then some (c.whole 0x02 (mainBits 0x294 w) 1) else none,
        c.by16 base, c.by16 (BitVec.ofNat 64 p), c.by16 h, c.by16 (BitVec.ofNat 64 q), c.by16 (BitVec.ofNat 64 wb),
        if wb = 0 ∨ n = 0 then c.misaligned (r 3).value else none,
        if idx && list % 4 != 0 then c.misaligned (b.val 0) else none,
        rowsIn (fun i => x.scratchAt i 0),
        if idx then c.scratchBound list (4 * n) else none] with
    | some t => if c.active = 0 then .done s else .trap t
    | none =>
      match c.poisonTrap s 0x0C [(w.a, 1, desc), (w.b, 2, b)] with
      | some t => .trap t
      | none => issueCopy s c w x)

/-! ## Paired buffers -/

/-- R126: the slot that C names. -/
def pairSlotOf (w : MainWord) : Nat := bits w.c 2 0

/-- R126: the declared slot of a number. -/
def Team.pair (t : Team) (n : Nat) : Option PairSlot := (t.pairs[n]?).getD none

def Team.setPair (t : Team) (n : Nat) (q : Option PairSlot) : Team :=
  { t with pairs := ((List.range 8).map (fun i => if i = n then q else t.pair i)) }

/-- R128: whether a declaration overlaps another slot. -/
def Team.pairOverlap (t : Team) (n base size : Nat) : Bool :=
  (List.range 8).any (fun i => i != n && (t.pair i).any (fun q =>
    decide (base < q.base + 2 * q.size ∧ q.base < base + 2 * size)))

/-- R126, R128: PUBL.decl. DESIGN CHOICE (log 77): a size that is no multiple of 128 is told as 0x24. -/
def execPublDecl (w : MainWord) (s : State) : Host.Outcome State Fault Refusal :=
  let g : Sig := { op := 0x295, inS := false, a := .src tN32 isUniform, b := .src tN32 isUniform, c := .form 0x07,
                   mOk := w.m == 0 }
  runMain s g w (fun s c =>
    let a := ((g.opA c w).val 0).toNat
    let b := ((g.opB c w).val 0).toNat
    let n := pairSlotOf w
    if c.active = 0 then .done s
    else if a % 128 ≠ 0 ∨ b % 128 ≠ 0 ∨ b = 0 ∨ c.scratch.inside a (2 * b) = false ∨ c.team.pairOverlap n a b = true then
      .trap (c.active_ 0x24 (BitVec.ofNat 64 a) 0)
    else if (c.team.pair n).any (fun q => c.team.copies.any (fun x => x.intoShadow q)) then .wait s .copies
    else .done (s.modTeam c.tid (fun t => t.setPair n (some { base := a, size := b, side := false }))))

/-- R128: misuse of a slot that is not declared. -/
def Ctx.slotMisuse (c : Ctx) (n : Nat) : TrapInfo := c.whole 0x10 (BitVec.ofNat 64 n) 0

/-- R127, R313: PUBL.swap waits for the group's copies into the shadow and for its earlier WBs. -/
def execPublSwap (w : MainWord) (s : State) : Host.Outcome State Fault Refusal :=
  let g : Sig := { op := 0x295, inS := false, c := .form 0x07, mOk := w.m == 1 }
  runMain s g w (fun s c =>
    let n := pairSlotOf w
    if c.active = 0 then .done s
    else match c.team.pair n with
      | none => .trap (c.slotMisuse n)
      | some q =>
        let s1 := if s.maintaining c.unit c.tid c.gid then s.drain c.unit c.tid c.gid else s
        if c.team.copies.any (fun x => x.gid == c.gid && x.intoShadow q) then .wait s .copies
        else if s1.maintaining c.unit c.tid c.gid then .wait s1 .transaction
        else .done (s1.modTeam c.tid (fun t => t.setPair n (some { q with side := !q.side }))))

/-- R126: PUBL.free. -/
def execPublFree (w : MainWord) (s : State) : Host.Outcome State Fault Refusal :=
  let g : Sig := { op := 0x295, inS := false, c := .form 0x07, mOk := w.m == 2 }
  runMain s g w (fun s c =>
    let n := pairSlotOf w
    if c.active = 0 then .done s
    else match c.team.pair n with
      | none => .trap (c.slotMisuse n)
      | some _ => .done (s.modTeam c.tid (fun t => t.setPair n none)))

/-! ## After issue -/

/-- R123: COPY_LINE_LANDED; a follower whose copy reads other than its leader's did is a mismatch (R404). -/
def execCopyLineLanded (team copy : Nat) (s : State) : Host.Outcome State Fault Refusal :=
  match s.copyAt team copy with
  | none => .next s
  | some x =>
    match x.pick (s.piecesWith x (fun f => decide (f = .lands ∨ f = .mismatch))) with
    | none => .next s
    | some p =>
      if s.pieceFate x p = .mismatch then .next (s.pairMismatch team)
      else .next (s.closeEvent (.copyLineLanded team copy) (if x.copy.dir = .outward then s.writePiece x p else s.landPiece x p))

/-- R448: COPY_WRITE_FAILURE. -/
def execCopyWriteFailure (team copy : Nat) (s : State) : Host.Outcome State Fault Refusal :=
  match s.copyAt team copy with
  | none => .next s
  | some x =>
    match x.pick (s.piecesWith x (fun f => decide (f = .fails))) with
    | none => .next s
    | some p => .next (s.writePiece x p)

/-- R125: COPY_TRANSLATION_FAULT: the copy stops, and its page request comes due. -/
def execCopyTranslationFault (team copy : Nat) (s : State) : Host.Outcome State Fault Refusal :=
  match s.copyAt team copy with
  | none => .next s
  | some x =>
    match s.stoppingPiece x with
    | some (p, f, va) =>
      .next ((s.modTeam team (fun t => { t with
        copies := updateWhere (fun y => y.id == copy) (fun y => { y with
          stopped := true, cursor := p, tag := none, stopCause := BitVec.ofNat 8 f.cause, stopWalk := f.val2.setWidth 8, stopVa := va }) t.copies })).due
        (.pageRequest (.copy team copy)))
    | none => .next s

/-- R232: whether a team's copies may land and arrive: it stands on its cores, not parked, spilled, or on its way back. -/
def Team.onCores (t : Team) : Bool :=
  match t.life with
  | .running | .saving | .rollingBack => true
  | _ => false

/-- R124: COPY_COMPLETION: the copy ends, and its barrier receives an arrival. -/
def execCopyCompletion (team copy : Nat) (s : State) : Host.Outcome State Fault Refusal :=
  match s.copyAt team copy with
  | none => .next s
  | some x =>
    if !x.copy.left.isEmpty || !x.team.onCores || x.copy.barrier.any x.team.opening then .next s
    else
      let s1 := if x.copy.dir = .outward then s.releaseDrain x.team x.copy.gid 1 x.unit else s
      if !s1.copyReleased x then .next s1
      else
        let s2 := s1.modTeam team (fun t => { t with copies := t.copies.filter (fun y => y.id != copy) })
        match x.copy.barrier with
        | some n => .next (s2.arriveAt team n none none)
        | none => .next s2

/-- R123 to R125: the steps that stand open for the copies of a team; of one that was taken off its cores, only what it writes goes on,
and every arrival is made on resume (R232). -/
def State.openCopies (s : State) : List Instr :=
  s.teams.flatMap (fun t => (t.copies.filter (fun c => t.onCores || decide (c.dir = .outward))).flatMap (fun c =>
    match s.copyAt t.id c.id with
    | none => []
    | some x =>
      if c.left.isEmpty then if t.onCores then [Instr.copyCompletion t.id c.id] else []
      else
        (if (s.piecesWith x (fun f => decide (f = .lands ∨ f = .mismatch))).isEmpty then [] else [Instr.copyLineLanded t.id c.id]) ++
        (if (s.piecesWith x (fun f => decide (f = .fails))).isEmpty then [] else [Instr.copyWriteFailure t.id c.id]) ++
        (if (s.stoppingPiece x).isNone then [] else [Instr.copyTranslationFault t.id c.id])))

end Sys2Proof.Machine
end

