-- ==== Sys2Proof/Machine/Control.lean ====
section
/-! DEFINITION. Control flow: branches, calls and returns, exit and yield, and hardware loops (R57 to R69), with the
retirement of a group (R215). -/

namespace Sys2Proof.Machine

/-- R58, R42: NOP, a control instruction: a poisoned guard traps. -/
def execNop (w : MainWord) (s : State) : Host.Outcome State Fault Refusal :=
  let g : Sig := { op := 0x340, mOk := w.m == 0 }
  runMain s g w (fun s c => match c.poisonTrap s 0x0D [] with
    | some t => .trap t
    | none => .done s)

/-- R21: the target of a branch in branch form. -/
def branchTarget (c : Ctx) (w : MainWord) : Dword := c.pos.pc + ((imm20 w).signExtend 64 <<< 2)

/-- R59, R62: active lanes go where the target says, inactive lanes of the entry to the fall-through address at fp. -/
def splitLanes (c : Ctx) (w : MainWord) (target : Nat → LanePos) (l : Nat) : Option LanePos :=
  if laneBit c.active l then some (target l)
  else if laneBit c.entry l then some { c.pos with pc := fallPc c w, pri := w.b }
  else none

/-- The target of a transfer of an S-profile work item, when it is taken (R69). -/
def takenTarget (c : Ctx) (target : Nat → LanePos) : Option Dword :=
  if laneBit c.active 0 then some (target 0).pc else none

/-- Completes a control transfer. -/
def transfer (s : State) (c : Ctx) (w : MainWord) (target : Nat → LanePos) : Res :=
  .moved s (splitLanes c w target) c.active (takenTarget c target)

/-- A transfer, unless its guard or one of its operands is poisoned (R42). -/
def transferUnless (s : State) (c : Ctx) (ops : List (Byte × Nat × Opnd)) (k : Res) : Res :=
  match c.poisonTrap s 0x0D ops with
  | some t => .trap t
  | none => k

/-- R59: BRA. -/
def execBra (w : MainWord) (s : State) : Host.Outcome State Fault Refusal :=
  let g : Sig := { op := 0x341, d := .form 0xFF, b := .form 0xFF, mOk := w.m == 0, branch := true }
  runMain s g w (fun s c =>
    transferUnless s c [] (transfer s c w (fun _ => { c.pos with pc := branchTarget c w, pri := w.d })))

/-- R60: BRX. -/
def execBrx (w : MainWord) (s : State) : Host.Outcome State Fault Refusal :=
  let g : Sig := { op := 0x342, d := .form 0xFF, a := .src tN64 isAddress, b := .form 0xFF, mOk := w.m == 0 }
  runMain s g w (fun s c =>
    let a := g.opA c w
    transferUnless s c [(w.a, 1, a)] (transfer s c w (fun l => { c.pos with pc := a.val l, pri := w.d })))

/-- R61: a link word. -/
def linkWord (ret : Dword) (rp : Byte) : Dword := BitVec.ofNat 64 (bits ret 56 2 + rp.toNat * 2 ^ 55)

/-- R61: the return address of a link word. -/
def linkAddress (lw : Dword) : Dword := sextDword 57 (BitVec.ofNat 64 (bits lw 54 0 * 4))

/-- R61: the return priority of a link word. -/
def linkPriority (lw : Dword) : Byte := BitVec.ofNat 8 (bits lw 62 55)

/-- R62: a call to lane targets, writing the link word to a register code. -/
def callTo (s : State) (c : Ctx) (w : MainWord) (link : Byte) (ops : List (Byte × Nat × Opnd)) (target : Nat → Dword) : Res :=
  if c.active ≠ 0 ∧ c.pos.depth = 255 then .trap (c.whole 0x0E (target (lowestLane c.active)) 0)
  else
    let r : RVal := { shape := .uniform, val := fun _ => linkWord (fallPc c w) w.b, poison := fun _ => false }
    match destShapeCheck c link 64 (r.written c) with
    | some t => .trap t
    | none => match c.poisonTrap s 0x0D ops with
      | some t => .trap t
      | none =>
        let s1 := if c.active = 0 then s else c.put s (writeDest c c.group (!isV link) link 64 r)
        transfer s1 c w (fun l => { pc := target l, pri := w.d, depth := c.pos.depth + 1 })

/-- R62: CALL. -/
def execCall (w : MainWord) (s : State) : Host.Outcome State Fault Refusal :=
  let g : Sig := { op := 0x343, d := .form 0xFF, a := .dstAny 64, b := .form 0xFF, mOk := w.m == 0, branch := true }
  runMain s g w (fun s c => callTo s c w w.a [] (fun _ => branchTarget c w))

/-- R62: CALLX. -/
def execCallx (w : MainWord) (s : State) : Host.Outcome State Fault Refusal :=
  let g : Sig := { op := 0x344, d := .form 0xFF, a := .src tN64 isAddress, b := .form 0xFF, c := .dstAny 64,
                   mOk := w.m == 0 }
  runMain s g w (fun s c =>
    let a := g.opA c w
    callTo s c w w.c [(w.a, 1, a)] a.val)

/-- R63: RET. -/
def execRet (w : MainWord) (s : State) : Host.Outcome State Fault Refusal :=
  let g : Sig := { op := 0x345, a := .s tN64, b := .form 0xFF, mOk := w.m == 0, imm := true }
  runMain s g w (fun s c =>
    let a := g.opA c w
    if c.active ≠ 0 ∧ c.pos.depth = 0 then .trap (c.whole 0x0F (a.val (lowestLane c.active)) 0)
    else transferUnless s c [(w.a, 1, a)]
      (transfer s c w (fun l => { pc := linkAddress (a.val l), pri := linkPriority (a.val l), depth := c.pos.depth - 1 })))

/-- R215: a group retires: its tile set, mailboxes, name and reservations end. -/
def State.retireGroup (s : State) (tid gid : Nat) : State :=
  let quit := fun (h : Hub) => { h with
    names := updateWhere (fun n => n.team == tid && n.gid == gid) (fun n => { n with ended := true }) h.names }
  let s1 := (s.loseReservations tid gid).modGroup tid gid (fun g => { g with
    retired := true, waits := [], ages := [], mailboxes := [], async := [], regs := { g.regs with live := 0, tiles := none } })
  let s2 := s1.modTeam tid (fun t => { t with
    cluster := t.cluster.map (fun c => { c with exited := true }) })
  (s2.modHub .h0 quit).modHub .h1 quit

/-- A group whose last live lane has gone retires (R65). -/
def State.settleLive (s : State) (tid gid : Nat) : State :=
  match s.group? tid gid with
  | some g => if g.regs.live = 0 then s.retireGroup tid gid else s
  | none => s

/-- R251: a group that handles cause 0x70 ends its residence; with the last group of the team the hub's save comes due. -/
def State.endResidence (s : State) (tid gid : Nat) : State :=
  let s1 := (s.loseReservations tid gid).modGroup tid gid (fun g => { g with
    saved := true, preemptedAt := none, handling := none, waits := [], async := g.async.filter AsyncCause.isEngine
    regs := { g.regs with tiles := none } })
  let s2 := s1.undue (.saveBudgetExpiry tid gid)
  match s2.team? tid with
  | none => s2
  | some t =>
    if t.groups.all (fun g => g.saved || g.retired) then
      (s2.modTeam tid (fun t => { t with life := .saving })).due (.teamSaveComplete tid)
    else s2

/-- R65: EXIT; the core's loop state is cleared in the S profile (R69). A scalar core that handles cause 0x70 ends its
residence: its work item is saved, not retired (R391). -/
def execExit (w : MainWord) (s : State) : Host.Outcome State Fault Refusal :=
  let g : Sig := { op := 0x346, mOk := w.m == 0 }
  runMain s g w (fun s c =>
    match c.poisonTrap s 0x0D [] with
    | some t => .trap t
    | none =>
      let leave := fun (x : Group) => { x with
        regs := { x.regs with live := x.regs.live &&& ~~~c.active }
        ldep := if c.active ≠ 0 ∧ x.profile = .S then 0 else x.ldep }
      let s1 := s.modGroup c.tid c.gid leave
      let s2 := s1.advance c (fun l => if laneBit c.active l then none else fallThrough c w l) 0 none
      .gone (if c.active ≠ 0 ∧ c.team.cls = .scalar ∧ c.group.handling.isSome ∧ c.kernel then s.endResidence c.tid c.gid
        else s2.settleLive c.tid c.gid))

/-- R66: YIELD. -/
def execYield (w : MainWord) (s : State) : Host.Outcome State Fault Refusal :=
  let g : Sig := { op := 0x347, b := .form 0xFF, mOk := w.m == 0 }
  runMain s g w (fun s c =>
    match c.poisonTrap s 0x0D [] with
    | some t => .trap t
    | none =>
      let s1 := s.modGroup c.tid c.gid (fun x => { x with
        yieldUntil := if c.active = 0 then x.yieldUntil else s.cycle + (if c.vector then 8 else 32) })
      .moved s1 (fun l => if laneBit c.active l then some { c.pos with pc := fallPc c w, pri := w.b } else fallThrough c w l)
        0 none)

/-- R67: the fault of a LOOP whose body or nesting is out of bounds, or executed with loops suspended (R69). -/
def loopBad (g : Group) (start stop : Dword) : Bool :=
  decide (g.ldep = 3) || decide (stop.toNat ≤ start.toNat) || decide (2048 < stop.toNat - start.toNat) ||
  (g.trap.lsus && decide (g.ldep ≠ 0)) ||
  (decide (g.ldep ≠ 0) && (match g.loops[g.ldep - 1]? with
    | some v => decide (v.lend.toNat < stop.toNat)
    | none => false))

/-- R67: the codes that a LOOP count may have. -/
def loopCount (code : Byte) : Bool := isScalarReg code || code == 0xE0 || code == 0xF8

/-- R67: LOOP. A handler that begins a loop with LDEP 0 has its ends checked again (R69). -/
def execLoop (w : MainWord) (s : State) : Host.Outcome State Fault Refusal :=
  let g : Sig := { op := 0x348, inV := false, a := .src tN32 loopCount, mOk := w.m == 0, branch := true }
  runMain s g w (fun s c =>
    let start := fallPc c w
    let stop := branchTarget c w
    match c.poisonTrap s 0x0D [] with
    | some t => if loopBad c.group start stop then .trap (c.whole 0x07 (BitVec.ofNat 64 c.group.ldep) stop) else .trap t
    | none =>
      if c.active = 0 then .done s
      else if loopBad c.group start stop then .trap (c.whole 0x07 (BitVec.ofNat 64 c.group.ldep) stop)
      else
        let n := loWord ((g.opA c w).val 0)
        if n = 0 then .moved s (fun l => if laneBit c.entry l then some { c.pos with pc := stop } else none) 0 none
        else
          let push := fun (x : Group) => { x with
            loops := x.loops.set x.ldep { cnt := n, sta := start, lend := stop }, ldep := x.ldep + 1
            trap := { x.trap with lsus := false } }
          .done (s.modGroup c.tid c.gid push))

end Sys2Proof.Machine
end

