-- ==== Sys2Proof/Machine/System.lean ====
section
/-! DEFINITION. TRAP and SYSC, ERET, TLBI and WAITE (R173 to R175, R178, R179, R384). -/

namespace Sys2Proof.Machine

/-! ## Traps and return -/

/-- R174: the active lanes trap with a cause, TEPC being the fall-through address and TVAL the operand. -/
def trapCall (cause : Nat) (a : Opnd) (w : MainWord) (s : State) (c : Ctx) : Res :=
  if c.active = 0 then .done s
  else .call c.active { cause := cause, pc := fallPc c w, lanes := c.active, val := a.val (lowestLane c.active) }

/-- R174: TRAP. -/
def execTrap (w : MainWord) (s : State) : Host.Outcome State Fault Refusal :=
  let g : Sig := { op := 0x380, a := uniformSource, mOk := w.m == 0, imm := true }
  runMain s g w (fun s c => trapCall 0x0A (g.opA c w) w s c)

/-- R174: SYSC. -/
def execSysc (w : MainWord) (s : State) : Host.Outcome State Fault Refusal :=
  let g : Sig := { op := 0x381, a := uniformSource, mOk := w.m == 0, imm := true }
  runMain s g w (fun s c => trapCall 0x0B (g.opA c w) w s c)

/-- R308: the engines of a resumed team go on with the ERET that leaves its control core's handler. -/
def Team.thaw (t : Team) : Team :=
  if t.preempting then t else { t with cluster := t.cluster.map (fun c => { c with frozen := false }) }

/-- R175, R369: ERET. -/
def execEret (w : MainWord) (s : State) : Host.Outcome State Fault Refusal :=
  let g : Sig := { op := 0x382, privileged := true, mOk := w.m == 0, fieldsOk := w.pred == 0 && !w.neg }
  runMain s g w (fun s c =>
    if c.entry ≠ c.group.current then .trap (c.whole 0x09 c.entry c.live)
    else
      let s1 := s.modGroup c.tid c.gid (fun x => (x.eret c.entry).counted c.group c.pos s.tick)
      let s2 := if c.group.trap.plvl = .task then s1.modTeam c.tid Team.thaw else s1
      .gone (s2.settleLive c.tid c.gid))

/-! ## Translation maintenance -/

/-- R178: whether a cached translation is removed. -/
def tlbRemoved (kind : Nat) (asn : Half) (va : Dword) (e : TlbEntry) : Bool :=
  let covers := e.page == va.toNat >>> (12 + 9 * e.level)
  match kind with
  | 0 => true
  | 1 => e.asn == asn && !pteG e.pte
  | 2 => e.asn == asn && covers
  | _ => covers

/-- R178, R383: whether a cached pointer entry is removed: its G is ignored (R378). -/
def pointerRemoved (kind : Nat) (asn : Half) (va : Dword) (e : TlbEntry) : Bool :=
  if kind = 1 then e.asn == asn else tlbRemoved kind asn va e

/-- R178: whether a core lies in the scope of a TLBI. -/
def Ctx.tlbReaches (c : Ctx) (scope : Nat) (u : CoreUnit) : Bool :=
  match scope with
  | 0 => decide (u = c.unit)
  | 1 => c.team.cores.any (fun x => decide (x.unit = u))
  | 2 => decide (unitHub u = c.hub)
  | _ => true

/-- R178: the accesses in scope that used a translation have completed: stores and requests still on their way are
waited for, whichever translation they used. -/
def State.accessesDone (s : State) (c : Ctx) (scope : Nat) : Bool :=
  let inScope := fun (tid gid : Nat) => match (s.group? tid gid), (s.team? tid) with
    | some g, some t => (t.coreOf g).any (c.tlbReaches scope)
    | _, _ => false
  !s.cores.any (fun x => c.tlbReaches scope x.unit && !x.combining.isEmpty) &&
  !s.txns.any (fun x => inScope x.team x.gid)

/-- R178, R384: the removal, after the release and the accesses in scope. -/
def State.removeTlb (s : State) (c : Ctx) (scope kind : Nat) (asn : Half) (va : Dword) : State :=
  { s with cores := s.cores.map (fun x => if c.tlbReaches scope x.unit then
      { x with tlb := x.tlb.filter (fun e => !tlbRemoved kind asn va e)
               walker := x.walker.filter (fun e => !pointerRemoved kind asn va e) } else x) }

/-- R178: a package that does not answer: one in recovery is waited for, one that failed is reported. -/
def State.podAnswer (s : State) (scope : Nat) : Option (Option Nat) :=
  if scope ≠ 4 then none
  else if s.packages.any (fun p => decide (p.state = .recovering)) then some none
  else (s.packages.find? (fun p => decide (p.state = .failed))).map (fun p => some p.package)

/-- R178, R384: TLBI. -/
def execTlbi (w : MainWord) (s : State) : Host.Outcome State Fault Refusal :=
  let g : Sig := { op := 0x385, privileged := true, a := uniformSource, b := uniformSource,
                   mOk := decide (w.m.toNat < 4), xMask := 0x007, fieldsOk := decide (xScope w < 5) }
  runMain s g w (fun s c =>
    if c.active = 0 then .done s
    else
      let l := lowestLane c.active
      let scope := xScope w
      match s.settleStores c scope true with
      | (s1, some _) => .wait s1 (.completes true)
      | (s1, none) =>
        let s2 := (s1.cores.filter (fun x => c.tlbReaches scope x.unit)).foldl (fun s x => s.drainCore x.unit) s1
        if !s2.accessesDone c scope then .wait s2 (.completes true)
        else
          let s3 := s2.removeTlb c scope w.m.toNat (((g.opB c w).val l).setWidth 16) ((g.opA c w).val l)
          match s3.podAnswer scope with
          | some none => .wait s3 (.completes true)
          | some (some p) => .fails s3 (c.whole 0x60 (BitVec.ofNat 64 (2 * p)) 0)
          | none => (s3.reportFailures c true).andThen .done)

/-! ## Waiting on memory -/

/-- R179: the conditions of WAITE, unsigned. -/
def waiteMet (cond word b : Nat) : Bool :=
  match cond with
  | 0 => word == b
  | 1 => word != b
  | 2 => decide (b ≤ word)
  | _ => decide (word < b)

/-- R179: the start of a WAITE: kept while it is parked, fresh otherwise. -/
def waiteStart (c : Ctx) (now : Dword) : Dword := c.group.startOf c.pos now

/-- R179: a WAITE completes with a status, which carries the poison that reached it. -/
def waiteDone (s : State) (c : Ctx) (w : MainWord) (v : Dword) (poison : Bool) : Res :=
  .done (s.modGroup c.tid c.gid (fun x => writeScalar (x.unwait c.pos) w.d v (poison || decide (c.guardPoison ≠ 0))))

/-- R179: what a read of the word decides. -/
def waiteDecide (s : State) (c : Ctx) (w : MainWord) (a b t : Opnd) (v : LaneValue) (key : Nat) : Res :=
  let l := lowestLane c.active
  let start := waiteStart c s.cycle
  let poison := decide (v.origin ≠ 0) || b.poison l || t.poison l
  let s1 := if v.origin = 0 then s
    else s.modGroup c.tid c.gid (fun x => x.event v.origin.toNat w.d.toNat l 3 c.pos.pc (a.val l))
  let parked := fun (s : State) => Res.wait (s.modGroup c.tid c.gid (fun x => x.unwait c.pos)) (.memoryWord (a.val l) start s.cycle)
  if waiteMet (bits w.m 1 0) (ofBytes v.bytes) (b.val l).toNat then
    if xOrder w = 1 then
      match s1.acquireReady c (xScope w) [key] with
      | .ready s2 => waiteDone (s2.acquirePart c (xScope w) [key]) c w 0 poison
      | .wait s2 _ => parked s2
      | .fails s2 t => .fails s2 t
    else waiteDone s1 c w 0 poison
  else if t.val l ≠ BitVec.allOnes 64 ∧ (t.val l).toNat ≤ (s.cycle - start).toNat then waiteDone s1 c w 1 poison
  else parked s

/-- R179: WAITE. An address that carries poison makes no access, and the status is poisoned (R110). -/
def execWaite (w : MainWord) (s : State) : Host.Outcome State Fault Refusal :=
  let g : Sig := { op := 0x386, d := .dst 64 statusCode, a := uniformAddress, b := uniformSource, c := uniformSource,
                   mOk := decide (w.m.toNat < 4), xMask := 0x03F, fieldsOk := decide (xScope w < 6 ∧ xOrder w < 2) }
  runMain s g w (fun s c =>
    if c.active = 0 then .done s
    else
      let a := g.opA c w
      let l := lowestLane c.active
      if a.poison l then waiteDone s c w (Config.freeReading s.tick 1000) true
      else
        let r := checkLanes s c.space { kind := .read, bytes := 8, atomic := false, own := false } a.val [l]
        match c.laneTrap true r.2, r.1 with
        | some t, _ => .trap t
        | none, [] => .done s
        | none, x :: _ =>
          let s1 := s.touchLanes c .read 0 [x]
          match s1.readLanes c (fun y => y.how (xOrder w) 0 false) 8 [x] with
          | .later => .wait s .twin
          | .mismatch => .gone (s.pairMismatch c.tid)
          | .ok _ [] => .done s
          | .ok s2 (v :: _) => waiteDecide s2 c w a (g.opB c w) (g.opC c w) v x.x.key)

end Sys2Proof.Machine
end

