-- ==== Sys2Proof/Machine/Block.lean ====
section
/-! DEFINITION. The arithmetic of block formats: the choice of a scale (R90), scaling and conversion of elements (R91)
and their decoding (R92), by the formats of R89; the vector helpers and the kiln share it. -/

namespace Sys2Proof.Machine

/-- R89: whether a format code is one of the six. -/
def blockFmtOk (k : Nat) : Bool := decide (k < 6)

/-- R89: fb4. -/
def isFb4 (k : Nat) : Bool := k == 5

/-- R89: the element format. -/
def blockElem (k : Nat) : Fmt :=
  match k with
  | 1 => .e3m2
  | 2 => .e2m3
  | 3 => .e4m3
  | 4 => .e5m2
  | _ => .e2m1

/-- R89: emax. -/
def blockEmax (k : Nat) : Int :=
  match k with
  | 1 => 4
  | 3 => 8
  | 4 => 15
  | _ => 2

/-- R89: elements of a block. -/
def blockSize (k : Nat) : Nat := if isFb4 k then 8 else 32

/-- R91: elements packed in a word, and their width. -/
def perWord (k : Nat) : Nat := if (blockElem k).width = 4 then 8 else 4

/-- The absolute value of a finite value. -/
def FVal.magnitude : FVal → FVal
  | .fin d => .fin { d with neg := false }
  | x => x

/-- The largest magnitude of finite values, 0 for none. -/
def maxMagnitude (vs : List FVal) : FVal :=
  vs.foldl (fun m v => if m.cmp v.magnitude < 0 then v.magnitude else m) (.fin { neg := false, mag := 0, exp := 0 })

/-- R90: a band scale that is a positive finite normal f32 value. -/
def bandOk (band : Nat) : Bool :=
  match Fmt.f32.value band with
  | .fin d => !d.neg && decide (0 < bits (BitVec.ofNat 32 band) 30 23)
  | _ => false

/-- R90: 6 * band * value(code) is at least m. -/
def scaleReaches (m band : Dy) (code : Nat) : Bool :=
  match Fmt.e3m5.value code with
  | .fin v => decide (FVal.cmp (.fin m) (.fin ((v.mul band).mul { neg := false, mag := 6, exp := 0 })) ≤ 0)
  | _ => false

/-- R90: the scale code of a block with these elements. -/
def blockScale (k : Nat) (band : Nat) (vs : List FVal) : FRes :=
  if vs.any (fun v => v.isNan || v.isInf) then { code := 0xFF, flags := flagNV }
  else match maxMagnitude vs with
    | .fin m =>
      if m.mag = 0 then { code := 0, flags := 0 }
      else if !isFb4 k then
        { code := (max 0 (min 254 (floorLog2 m.mag 1 m.exp - blockEmax k + 127))).toNat, flags := 0 }
      else if !bandOk band then { code := 0, flags := flagNV }
      else match Fmt.f32.value band with
        | .fin b => match (List.range 256).find? (scaleReaches m b) with
          | some code => { code := code, flags := 0 }
          | none => { code := 0xFF, flags := flagOF }
        | _ => { code := 0, flags := flagNV }
    | _ => { code := 0xFF, flags := flagNV }

/-- R272: a block scale times its band scale: code 0 makes its block zero, whatever the band; else a band that is no finite
value is itself. -/
def fb4Scale (code : Nat) (band : FVal) : FVal :=
  match Fmt.e3m5.value (code % 256), band with
  | .fin a, .fin b => .fin (a.mul b)
  | .fin a, x => if a.mag = 0 then .fin { neg := x.neg?, mag := 0, exp := 0 } else x
  | _, x => x

/-- R91, R92: the scale a code stands for. -/
def scaleValue (k : Nat) (code band : Nat) : FVal := if isFb4 k then fb4Scale code (Fmt.f32.value band) else e8m0Value code

/-- R91: an element as packed: a / s, rounded once with saturation. A scale that is infinite or NaN by its band gives
what R76's quotient would be (log 20). -/
def packElement (k : Nat) (x : FVal) (code band : Nat) : FRes :=
  let f := blockElem k
  if !isFb4 k && code % 256 == 0xFF then { code := if f.specials = .finite then 0 else f.nanCode, flags := 0 }
  else match scaleValue k code band with
    | .nan _ => nanFate (.float f) false
    | .inf n => match x with
      | .fin d => { code := f.signBit (d.neg != n), flags := 0 }
      | .inf _ => nanFate (.float f) true
      | .nan g => nanFate (.float f) g
    | .fin sc =>
      if sc.mag = 0 then { code := 0, flags := 0 }
      else match x with
        | .nan g => nanFate (.float f) g
        | .inf n => infFate (.float f) true (n != sc.neg)
        | .fin d =>
          if d.mag = 0 then finFate (.float f) .rne true (d.neg != sc.neg) 0 1 0
          else finFate (.float f) .rne true (d.neg != sc.neg) d.mag sc.mag (d.exp - sc.exp)

/-- R92: an element decoded: element times scale, rounded once into a format. -/
def unpackElement (k : Nat) (dst : Fmt) (e : Nat) (code band : Nat) : FRes :=
  if !isFb4 k && code % 256 == 0xFF then { code := dst.nanCode, flags := 0 }
  else dst.mul .rne ((blockElem k).value e) (scaleValue k code band)

end Sys2Proof.Machine
end

