-- ==== Sys2Proof/Machine/Integer.lean ====
section
/-! DEFINITION. The integer, bit, predicate, selection, move and address instructions (R40 to R55). -/

namespace Sys2Proof.Machine

/-- The type that M names (R13). -/
def mTy (w : MainWord) : OTy := intTy w.m.toNat

/-- R40, R43: the fields of an integer instruction; C is read or reserved, and imm20 may stand where C is not read. -/
def intSig (op : BitVec 10) (w : MainWord) (readsB readsC : Bool) : Sig :=
  { op := op, form := .byDest, d := .dstAny (mTy w).width, a := .s (mTy w),
    b := if readsB then .s (mTy w) else .unused, c := if readsC then .s (mTy w) else .unused,
    mOk := decide (w.m.toNat < 8), imm := !readsC }

/-- No affine row of R41. -/
def noAffine (_ : Ctx) : Option (Word × Word) := none

/-- A two-source operation on bits. -/
def intBinary (g : Sig) (w : MainWord) (affine : Opnd → Opnd → Option (Word × Word)) (f : Dword → Dword → Dword)
    (s : State) (c : Ctx) : Res :=
  let a := g.opA c w
  let b := g.opB c w
  elementwise g w (mTy w) (fun _ => [a, b]) (fun _ => if (mTy w).width = 32 then affine a b else none)
    (fun _ l => f (a.val l) (b.val l)) s c

/-- A one-source operation on bits. -/
def intUnary (g : Sig) (w : MainWord) (f : Dword → Dword) (s : State) (c : Ctx) : Res :=
  let a := g.opA c w
  elementwise g w (mTy w) (fun _ => [a]) noAffine (fun _ l => f (a.val l)) s c

/-- A three-source operation on bits. -/
def intTernary (g : Sig) (w : MainWord) (f : Dword → Dword → Dword → Dword) (s : State) (c : Ctx) : Res :=
  let a := g.opA c w
  let b := g.opB c w
  let k := g.opC c w
  elementwise g w (mTy w) (fun _ => [a, b, k]) noAffine (fun _ l => f (a.val l) (b.val l) (k.val l)) s c

/-- A two-source operation with no affine row. -/
def never (_ _ : Opnd) : Option (Word × Word) := none

/-! ## Arithmetic -/

/-- R41: IADD and ISUB keep affine operands affine. -/
def affineSum (minus : Bool) (a b : Opnd) : Option (Word × Word) :=
  if a.linear && b.linear then
    some (if minus then (a.base - b.base, a.stride - b.stride) else (a.base + b.base, a.stride + b.stride))
  else none

/-- R41: IMUL of an affine operand by a uniform one. -/
def affineProduct (a b : Opnd) : Option (Word × Word) :=
  if a.shape = .affine ∧ b.shape = .uniform then some (a.base * b.base, a.stride * b.base)
  else if b.shape = .affine ∧ a.shape = .uniform then some (b.base * a.base, b.stride * a.base)
  else none

/-- R41: SHL of an affine operand by a uniform count below 32. -/
def affineShift (a b : Opnd) : Option (Word × Word) :=
  if a.shape = .affine ∧ b.shape = .uniform ∧ b.base.toNat < 32 then
    some (a.base <<< b.base.toNat, a.stride <<< b.base.toNat)
  else none

/-- R43: IADD. -/
def execIadd (w : MainWord) (s : State) : Host.Outcome State Fault Refusal :=
  let g := intSig 0x001 w true false
  runMain s g w (intBinary g w (affineSum false) (fun a b => a + b))

/-- R43: ISUB. -/
def execIsub (w : MainWord) (s : State) : Host.Outcome State Fault Refusal :=
  let g := intSig 0x002 w true false
  runMain s g w (intBinary g w (affineSum true) (fun a b => a - b))

/-- R43: IMUL. -/
def execImul (w : MainWord) (s : State) : Host.Outcome State Fault Refusal :=
  let g := intSig 0x003 w true false
  runMain s g w (intBinary g w affineProduct (fun a b => a * b))

/-- R43: the high half of the exact product of values read at the type. -/
def mulHigh (ty : OTy) (a b : Dword) : Dword := dword ((ty.toInt a * ty.toInt b) / (2 ^ ty.width : Nat))

/-- R43: IMULH. -/
def execImulh (w : MainWord) (s : State) : Host.Outcome State Fault Refusal :=
  let g := intSig 0x004 w true false
  runMain s g w (intBinary g w never (mulHigh (mTy w)))

/-- R43: IMAD. -/
def execImad (w : MainWord) (s : State) : Host.Outcome State Fault Refusal :=
  let g := intSig 0x005 w true true
  runMain s g w (intTernary g w (fun a b k => a * b + k))

/-- R44: the quotient, truncated; all ones for a zero divisor. -/
def quotient (ty : OTy) (a b : Dword) : Dword :=
  if ty.toInt b = 0 then BitVec.allOnes 64 else dword ((ty.toInt a).tdiv (ty.toInt b))

/-- R44: the remainder, with the sign of the dividend; the dividend for a zero divisor. -/
def remainder (ty : OTy) (a b : Dword) : Dword :=
  if ty.toInt b = 0 then a else dword ((ty.toInt a).tmod (ty.toInt b))

/-- R44: IDIV. -/
def execIdiv (w : MainWord) (s : State) : Host.Outcome State Fault Refusal :=
  let g := intSig 0x006 w true false
  runMain s g w (intBinary g w never (quotient (mTy w)))

/-- R44: IREM. -/
def execIrem (w : MainWord) (s : State) : Host.Outcome State Fault Refusal :=
  let g := intSig 0x007 w true false
  runMain s g w (intBinary g w never (remainder (mTy w)))

/-- R43: the smaller of two values read at the type. -/
def smaller (ty : OTy) (a b : Dword) : Dword := if ty.toInt b < ty.toInt a then b else a

/-- R43: the larger of two values read at the type. -/
def larger (ty : OTy) (a b : Dword) : Dword := if ty.toInt a < ty.toInt b then b else a

/-- R43: IMIN. -/
def execImin (w : MainWord) (s : State) : Host.Outcome State Fault Refusal :=
  let g := intSig 0x008 w true false
  runMain s g w (intBinary g w never (smaller (mTy w)))

/-- R43: IMAX. -/
def execImax (w : MainWord) (s : State) : Host.Outcome State Fault Refusal :=
  let g := intSig 0x009 w true false
  runMain s g w (intBinary g w never (larger (mTy w)))

/-- R43: IABS; an unsigned type is a reserved field. -/
def execIabs (w : MainWord) (s : State) : Host.Outcome State Fault Refusal :=
  let g := { intSig 0x00A w false false with fieldsOk := w.m.toNat % 2 == 0 }
  runMain s g w (intUnary g w (fun a => dword ((mTy w).toInt a).natAbs))

/-! ## Bits -/

/-- R45: AND. -/
def execAnd (w : MainWord) (s : State) : Host.Outcome State Fault Refusal :=
  let g := intSig 0x010 w true false
  runMain s g w (intBinary g w never (fun a b => a &&& b))

/-- R45: OR. -/
def execOr (w : MainWord) (s : State) : Host.Outcome State Fault Refusal :=
  let g := intSig 0x011 w true false
  runMain s g w (intBinary g w never (fun a b => a ||| b))

/-- R45: XOR. -/
def execXor (w : MainWord) (s : State) : Host.Outcome State Fault Refusal :=
  let g := intSig 0x012 w true false
  runMain s g w (intBinary g w never (fun a b => a ^^^ b))

/-- R45: ANDN. -/
def execAndn (w : MainWord) (s : State) : Host.Outcome State Fault Refusal :=
  let g := intSig 0x013 w true false
  runMain s g w (intBinary g w never (fun a b => a &&& ~~~b))

/-- R46: bit n of a table, spread over a word where it is set. -/
def tableTerm (table : BitVec 12) (n : Nat) (x : Dword) : Dword := if table.getLsbD n then x else 0

/-- R46: the three-input function of a table: a is the low index bit, c the high one. -/
def bitMix (table : BitVec 12) (a b k : Dword) : Dword :=
  tableTerm table 0 (~~~a &&& ~~~b &&& ~~~k) ||| tableTerm table 1 (a &&& ~~~b &&& ~~~k) |||
  tableTerm table 2 (~~~a &&& b &&& ~~~k) ||| tableTerm table 3 (a &&& b &&& ~~~k) |||
  tableTerm table 4 (~~~a &&& ~~~b &&& k) ||| tableTerm table 5 (a &&& ~~~b &&& k) |||
  tableTerm table 6 (~~~a &&& b &&& k) ||| tableTerm table 7 (a &&& b &&& k)

/-- R46: BMIX. -/
def execBmix (w : MainWord) (s : State) : Host.Outcome State Fault Refusal :=
  let g := { intSig 0x014 w true true with xMask := 0x0FF }
  runMain s g w (intTernary g w (bitMix w.x))

/-- R47: SHL. -/
def shiftLeft (width : Nat) (a k : Dword) : Dword := if k.toNat < width then a <<< k.toNat else 0

/-- R47: SHR, of a value whose bits above the width are 0. -/
def shiftRight (width : Nat) (a k : Dword) : Dword := if k.toNat < width then a >>> k.toNat else 0

/-- R47: SAR, whatever the type's signedness. -/
def shiftArith (width : Nat) (a k : Dword) : Dword := dword (signed width a.toNat / (2 ^ min k.toNat (width - 1) : Nat))

/-- R47: ROTL. -/
def rotateLeft (width : Nat) (a k : Dword) : Dword :=
  let n := k.toNat % width
  (a <<< n) ||| (a >>> (width - n))

/-- R47: SHL. -/
def execShl (w : MainWord) (s : State) : Host.Outcome State Fault Refusal :=
  let g := intSig 0x015 w true false
  runMain s g w (intBinary g w affineShift (shiftLeft (mTy w).width))

/-- R47: SHR. -/
def execShr (w : MainWord) (s : State) : Host.Outcome State Fault Refusal :=
  let g := intSig 0x016 w true false
  runMain s g w (intBinary g w never (shiftRight (mTy w).width))

/-- R47: SAR. -/
def execSar (w : MainWord) (s : State) : Host.Outcome State Fault Refusal :=
  let g := intSig 0x017 w true false
  runMain s g w (intBinary g w never (shiftArith (mTy w).width))

/-- R47: ROTL. -/
def execRotl (w : MainWord) (s : State) : Host.Outcome State Fault Refusal :=
  let g := intSig 0x018 w true false
  runMain s g w (intBinary g w never (rotateLeft (mTy w).width))

/-- R48: the one bits among the low n. -/
def popCount (x : Dword) : Nat → Nat
  | 0 => 0
  | n + 1 => popCount x n + (if x.getLsbD n then 1 else 0)

/-- R48: the zeros above the highest one bit among the low n. -/
def leadingZeros (x : Dword) : Nat → Nat
  | 0 => 0
  | n + 1 => if x.getLsbD n then 0 else leadingZeros x n + 1

/-- R48: the zeros below the lowest one bit, from bit i on, among n bits. -/
def trailingZeros (x : Dword) (i : Nat) : Nat → Nat
  | 0 => 0
  | n + 1 => if x.getLsbD i then 0 else trailingZeros x (i + 1) n + 1

/-- R48: the low n bits reversed. -/
def bitReverse (x : Dword) : Nat → Nat → Dword
  | _, 0 => 0
  | width, n + 1 => bitReverse x width n ||| (if x.getLsbD n then BitVec.twoPow 64 (width - 1 - n) else 0)

/-- R48: POPC. -/
def execPopc (w : MainWord) (s : State) : Host.Outcome State Fault Refusal :=
  let g := intSig 0x019 w false false
  runMain s g w (intUnary g w (fun a => BitVec.ofNat 64 (popCount a (mTy w).width)))

/-- R48: CLZ. -/
def execClz (w : MainWord) (s : State) : Host.Outcome State Fault Refusal :=
  let g := intSig 0x01A w false false
  runMain s g w (intUnary g w (fun a => BitVec.ofNat 64 (leadingZeros a (mTy w).width)))

/-- R48: CTZ. -/
def execCtz (w : MainWord) (s : State) : Host.Outcome State Fault Refusal :=
  let g := intSig 0x01B w false false
  runMain s g w (intUnary g w (fun a => BitVec.ofNat 64 (trailingZeros a 0 (mTy w).width)))

/-- R48: BREV. -/
def execBrev (w : MainWord) (s : State) : Host.Outcome State Fault Refusal :=
  let g := intSig 0x01C w false false
  runMain s g w (intUnary g w (fun a => bitReverse a (mTy w).width (mTy w).width))

/-- Whether a type is signed. -/
def OTy.isSigned : OTy → Bool
  | .int _ s => s
  | .float _ => false

/-- R49: the extracted field. -/
def extractField (ty : OTy) (a control : Dword) : Dword :=
  let pos := bits control 6 0
  let len := bits control 14 8
  let f := (ty.toInt a / (2 ^ pos : Nat)) % (2 ^ len : Nat)
  if len = 0 then 0 else if ty.isSigned then dword (signed len f.toNat) else dword f

/-- R49: the mask of the inserted field. -/
def insertMask (control : Dword) : Dword :=
  dword (((2 ^ bits control 14 8 - 1) * 2 ^ bits control 6 0 : Nat) : Int)

/-- R49: the inserted field. -/
def insertField (a control k : Dword) : Dword :=
  let mask := insertMask control
  (a &&& ~~~mask) ||| ((k <<< bits control 6 0) &&& mask)

/-- R49: BFX; the control is read at 32 bits. -/
def execBfx (w : MainWord) (s : State) : Host.Outcome State Fault Refusal :=
  let g := { intSig 0x01D w true false with b := .s tN32 }
  runMain s g w (intBinary g w never (extractField (mTy w)))

/-- R49: BFI; the control is read at 32 bits. -/
def execBfi (w : MainWord) (s : State) : Host.Outcome State Fault Refusal :=
  let g := { intSig 0x01E w true true with b := .s tN32 }
  runMain s g w (intTernary g w insertField)

/-! ## Predicates, selection and moves -/

/-- R50: a condition on two values read at the type. -/
def intCompare (cond : Nat) (a b : Int) : Bool :=
  match cond with
  | 0 => decide (a = b)
  | 1 => decide (a ≠ b)
  | 2 => decide (a < b)
  | 3 => decide (a ≤ b)
  | 4 => decide (b < a)
  | _ => decide (b ≤ a)

/-- R50: combines a comparison with a predicate. -/
def combinePred (comb : Nat) (t p : Bool) : Bool :=
  match comb with
  | 0 => t
  | 1 => t && p
  | 2 => t || p
  | _ => xor t p

/-- R50: delivers a comparison, combined as C says, to the predicate of D. -/
def comparePred (s : State) (c : Ctx) (w : MainWord) (t : Nat → Bool) (poison : Nat → Bool) : Res :=
  let comb := bits w.c 4 3
  let pc := bits w.c 7 5
  let p := c.group.regs.p pc
  let pp := c.group.regs.pPoison pc
  deliverPred s c (bits w.d 2 0) (fun l => combinePred comb (t l) (laneBit p l))
    (fun l => poison l || (comb != 0 && laneBit pp l))

/-- R50: a comparison's form fields are in range. -/
def compareFields (w : MainWord) : Bool := decide (bits w.c 2 0 < 6) && (bits w.c 4 3 != 0 || bits w.c 7 5 == 0)

/-- R50: ICMP. -/
def execIcmp (w : MainWord) (s : State) : Host.Outcome State Fault Refusal :=
  let g : Sig := { op := 0x020, form := .perLane, d := .form 0x07, a := .s (mTy w), b := .s (mTy w), c := .form 0xFF,
                   mOk := decide (w.m.toNat < 8), fieldsOk := compareFields w }
  runMain s g w (fun s c =>
    let a := g.opA c w
    let b := g.opB c w
    comparePred s c w (fun l => intCompare (bits w.c 2 0) ((mTy w).toInt (a.val l)) ((mTy w).toInt (b.val l)))
      (anyPoison [a, b]))

/-- R51: PLOG. -/
def execPlog (w : MainWord) (s : State) : Host.Outcome State Fault Refusal :=
  let g : Sig := { op := 0x021, form := .perLane, d := .form 0x07, a := .form 0x07, b := .form 0x07, c := .form 0x07,
                   mOk := w.m == 0, xMask := 0x0FF }
  runMain s g w (fun s c =>
    let p := fun (x : Byte) => c.group.regs.p (bits x 2 0)
    let q := fun (x : Byte) => c.group.regs.pPoison (bits x 2 0)
    let one := fun (m : Dword) (l : Nat) => if laneBit m l then 1 else 0
    deliverPred s c (bits w.d 2 0)
      (fun l => w.x.getLsbD (4 * one (p w.a) l + 2 * one (p w.b) l + one (p w.c) l))
      (laneBit (q w.a ||| q w.b ||| q w.c)))

/-- R52: SEL. -/
def execSel (w : MainWord) (s : State) : Host.Outcome State Fault Refusal :=
  let g : Sig := { op := 0x022, form := .byDest, d := .dstAny (mTy w).width, a := .s (mTy w), b := .s (mTy w),
                   c := .form 0x07, mOk := decide (w.m.toNat < 8) }
  runMain s g w (fun s c =>
    let a := g.opA c w
    let b := g.opB c w
    let p := c.group.regs.p (bits w.c 2 0)
    let pp := c.group.regs.pPoison (bits w.c 2 0)
    let same := decide (c.active &&& p = 0) || decide (c.active &&& ~~~p = 0)
    let uniform := decide (a.shape = .uniform) && decide (b.shape = .uniform) && same
    deliver s c g w (mTy w).width
      { shape := if uniform then .uniform else .general,
        val := fun l => extendTo (mTy w) (if laneBit p l then a.val l else b.val l),
        poison := fun l => (if laneBit p l then a.poison l else b.poison l) || laneBit pp l })

/-- R53: the types of MOV. -/
def movTy (m : Nat) : OTy := if m = 8 then .float .f32 else if m = 9 then .float .f64 else intTy m

/-- R53: MOV. -/
def execMov (w : MainWord) (s : State) : Host.Outcome State Fault Refusal :=
  let ty := movTy w.m.toNat
  let g : Sig := { op := 0x023, form := .byDest, d := .dstAny ty.width,
                   a := .src ty (fun code => !(w.m == 8 || w.m == 9) || code != 0xFC), mOk := decide (w.m.toNat < 10),
                   imm := true }
  runMain s g w (fun s c =>
    let a := g.opA c w
    elementwise g w ty (fun _ => [a])
      (fun _ => if ty.width = 32 ∧ a.shape = .affine then some (a.base, a.stride) else none) (fun _ l => a.val l) s c)

/-- R54: in the V profile a predicate goes to a v register or zero. -/
def pmovDest (vector : Bool) (code : Byte) : Bool := !vector || !isScalarReg code

/-- R54: a bit as 0 or 1. -/
def bitWord (b : Bool) : Dword := if b then 1 else 0

/-- R54: PMOV from a predicate. DESIGN CHOICE (log 65): a predicate is no uniform source, so that the result is general. -/
def execPmovFromPred (w : MainWord) (s : State) : Host.Outcome State Fault Refusal :=
  let g : Sig := { op := 0x024, form := .perLane, d := .dst 32 (pmovDest s.vectorIssuer), a := .form 0x07, mOk := true }
  runMain s g w (fun s c =>
    let p := c.group.regs.p (bits w.a 2 0)
    let pp := c.group.regs.pPoison (bits w.a 2 0)
    deliver s c g w 32 { shape := .general, val := fun l => bitWord (laneBit p l), poison := laneBit pp })

/-- R54: PMOV to a predicate. DESIGN CHOICE (log 65): imm20, which would fill X, is an illegal operand, here and in PMOV.set. -/
def execPmovToPred (w : MainWord) (s : State) : Host.Outcome State Fault Refusal :=
  let g : Sig := { op := 0x024, form := .perLane, d := .form 0x07, a := .s tN32, mOk := true }
  runMain s g w (fun s c =>
    let a := g.opA c w
    deliverPred s c (bits w.d 2 0) (fun l => decide (a.val l ≠ 0)) a.poison)

/-- R54: the eight predicates of a lane, pn in bit n. -/
def packPreds (g : GroupRegs) (lane : Nat) : Dword :=
  (List.range 8).foldl (fun x n => if laneBit (g.p n) lane then x ||| BitVec.twoPow 64 n else x) 0

/-- R54: PMOV.get; its result is general as PMOV's from a predicate (log 65). -/
def execPmovGet (w : MainWord) (s : State) : Host.Outcome State Fault Refusal :=
  let g : Sig := { op := 0x024, form := .perLane, d := .dst 32 (pmovDest s.vectorIssuer), mOk := true }
  runMain s g w (fun s c =>
    deliver s c g w 32
      { shape := .general, val := packPreds c.group.regs,
        poison := fun l => (List.range 8).any (fun n => laneBit (c.group.regs.pPoison n) l) })

/-- R54: PMOV.set. -/
def execPmovSet (w : MainWord) (s : State) : Host.Outcome State Fault Refusal :=
  let g : Sig := { op := 0x024, form := .perLane, a := .s tN32, mOk := true }
  runMain s g w (fun s c =>
    let a := g.opA c w
    let set := fun (r : GroupRegs) (n : Nat) =>
      r.setP n c.active (maskOf (fun l => (a.val l).getLsbD n)) (maskOf a.poison ||| c.guardPoison)
    .done (c.put s { c.group with regs := [1, 2, 3, 4, 5, 6, 7].foldl set c.group.regs }))

/-- R55: LEA. DESIGN CHOICE (log 65): the base may be any source legal at 64 bits but imm20, and D may be zero. -/
def execLea (w : MainWord) (s : State) : Host.Outcome State Fault Refusal :=
  let g : Sig := { op := 0x025, form := .byDest, d := .dstAny 64, a := .s tN64, b := .s (mTy w), c := .form 0x07,
                   mOk := decide (w.m.toNat < 4) }
  runMain s g w (fun s c =>
    let a := g.opA c w
    let b := g.opB c w
    elementwise g w tN64 (fun _ => [a, b]) noAffine
      (fun _ l => a.val l + (dword ((mTy w).toInt (b.val l)) <<< bits w.c 2 0)) s c)

end Sys2Proof.Machine
end

