-- ==== Sys2Proof/Machine/SpecialFn.lean ====
section
/-! DEFINITION. The special functions of R87: their special cases exactly, and elsewhere a free value held to the
error bound of R88. The exact mathematical value is enclosed by a fixed-point reference with 320 fraction bits, whose
error is far below the smallest ulp; a candidate outside the bound is replaced by the rounded reference (log 14). -/

namespace Sys2Proof.Machine

/-- Fixed point: an integer stands for itself times 2^-320. -/
def fxOne : Int := (2 ^ 320 : Nat)

/-- The fixed-point product, rounded down. -/
def fxMul (a b : Int) : Int := a * b / fxOne

/-- The fixed-point quotient, rounded down. -/
def fxDiv (a b : Int) : Int := a * fxOne / b

/-- n terms of a series whose term k + 1 is term k times x over the step of k. -/
def fxSeries (x : Int) (step : Nat → Int) : Nat → Nat → Int → Int
  | 0, _, _ => 0
  | n + 1, k, term => term + fxSeries x step n (k + 1) (fxMul term x / step k)

/-- e^x for small x. -/
def fxExp (x : Int) : Int := fxSeries x (fun k => (k : Int) + 1) 90 0 fxOne

/-- sin x for |x| at most 2. -/
def fxSin (x : Int) : Int := fxSeries (-(fxMul x x)) (fun k => (2 * (k : Int) + 2) * (2 * k + 3)) 60 0 x

/-- n terms of the series of atanh, each z^(2k+1)/(2k+1). -/
def fxAtanhFrom (z2 : Int) (alternate : Bool) : Nat → Nat → Int → Int
  | 0, _, _ => 0
  | n + 1, k, p =>
    let t := p / (2 * (k : Int) + 1)
    (if alternate && k % 2 == 1 then -t else t) + fxAtanhFrom z2 alternate n (k + 1) (fxMul p z2)

/-- atanh z for |z| at most 1/3. -/
def fxAtanh (z : Int) : Int := fxAtanhFrom (fxMul z z) false 110 0 z

/-- arctan z for small z. -/
def fxAtan (z : Int) : Int := fxAtanhFrom (fxMul z z) true 150 0 z

/-- ln 2. -/
def fxLn2 : Int := 2 * fxAtanh (fxOne / 3)

/-- Pi, by Machin's formula. -/
def fxPi : Int := 16 * fxAtan (fxOne / 5) - 4 * fxAtan (fxOne / 239)

/-- The ulp of a magnitude y = n/d * 2^e in f32, as its exponent (R280). -/
def ulpExp (n d : Nat) (e : Int) : Int := if n = 0 then -149 else max (floorLog2 n d e) (-126) - 23

/-- Whether a finite f32 code lies within a bound of a reference n * 2^e: so many ulps, or 2 to an absolute exponent. -/
def withinBound (code : Nat) (ref : Dy) (ulps : Int) (absolute : Option Int) : Bool :=
  match Fmt.f32.value code with
  | .fin r =>
    let e := min (min r.exp ref.exp) (-400)
    let diff : Nat := (r.at e - ref.at e).natAbs
    let slack : Nat := scaleUp 1 (ref.exp + 12 - e)
    let u := ulpExp ref.mag 1 ref.exp
    decide (diff ≤ ulps.toNat * scaleUp 1 (u - e) + slack) ||
    (match absolute with | some a => decide (diff ≤ scaleUp 1 (a - e) + slack) | none => false)
  | _ => false

/-- A fixed-point number as an exact value. -/
def fxDy (x : Int) : Dy := { neg := decide (x < 0), mag := x.natAbs, exp := -320 }

/-- A result held to the bound: the free candidate where it meets it, else the rounded reference. -/
def bounded (f : SpecialFn) (x : Nat) (ref : Dy) (ulps : Int) (absolute : Option Int) : Nat :=
  let cand := (Config.special f (BitVec.ofNat 32 x)).toNat
  if withinBound cand ref ulps absolute then cand else (Fmt.f32.roundDy .rne ref).code

/-- A quotient 1/d * 2^e as a long exact value with its low bits kept. -/
def recipDy (d : Dy) : Dy := { neg := d.neg, mag := 2 ^ 400 / d.mag, exp := -400 - d.exp }

/-- Whether a finite value is an integer. -/
def Dy.isInt (d : Dy) : Bool := decide (0 ≤ d.exp) || decide (d.mag % 2 ^ (-d.exp).toNat = 0)

/-- The integer part of the magnitude. -/
def Dy.intPart (d : Dy) : Nat := if 0 ≤ d.exp then d.mag <<< d.exp.toNat else d.mag >>> (-d.exp).toNat

/-- Twice a value. -/
def Dy.double (d : Dy) : Dy := { d with exp := d.exp + 1 }

/-- sin(pi a) for a in half-turns given in fixed point, 0 to below 2, by reduction to a quarter turn. -/
def fxSinPi (a : Int) : Int :=
  let (neg, b) := if a ≥ fxOne then (true, a - fxOne) else (false, a)
  let c := if 2 * b > fxOne then fxOne - b else b
  let s := fxSin (fxMul fxPi c)
  if neg then -s else s

/-- A value modulo 2 in fixed point, 0 to below 2: exact for every input (R87). -/
def Dy.mod2 (d : Dy) : Int := (if 0 ≤ d.exp then ((d.mag <<< d.exp.toNat : Nat) : Int) * fxOne else d.at (-320)) % (2 * fxOne)

/-- A finite code with a sign. -/
def f32Signed (neg : Bool) (code : Nat) : Nat := Fmt.f32.signBit neg + code

def f32Inf : Nat := 0x7F800000
def f32Nan : Nat := 0x7FC00000
def f32One : Nat := 0x3F800000

/-- R88: the reciprocal of |a| of 2^126 and more is a zero, or a subnormal within 1 ulp: the free candidate where it is one of
these, else the zero of the argument's sign (log 14). -/
def tinyRecip (x : Nat) (d : Dy) : Nat :=
  let cand := (Config.special .rcp (BitVec.ofNat 32 x)).toNat
  let subnormal := decide (0 < cand % 2 ^ 31 ∧ cand % 2 ^ 31 < 2 ^ 23)
  if cand % 2 ^ 31 = 0 ∨ (subnormal && withinBound cand (recipDy d) 1 none) = true then cand else f32Signed d.neg 0

/-- R88, R280: the reciprocal of 2^-128 is 2^128, whose ulp is 2^105: the two largest finite values are within 1 ulp, and no other
value is. -/
def hugeRecip (x : Nat) (d : Dy) : Nat :=
  let cand := (Config.special .rcp (BitVec.ofNat 32 x)).toNat
  if withinBound cand (recipDy d) 1 none then cand else f32Signed d.neg 0x7F7FFFFF

/-- R88: FRCP. A finite argument whose reciprocal no f32 value comes near, more than 2^128, gives the free candidate itself: the
manual states no result there (log 14). -/
def frcpFin (x : Nat) (d : Dy) : FRes :=
  let size := floorLog2 d.mag 1 d.exp
  if d.mag = 0 then { code := f32Signed d.neg f32Inf, flags := flagDZ }
  else if 126 ≤ size then { code := tinyRecip x d, flags := 0 }
  else if x % 2 ^ 31 = 0x00200000 then { code := hugeRecip x d, flags := 0 }
  else if 128 ≤ floorLog2 (recipDy d).mag 1 (recipDy d).exp then
    { code := (Config.special .rcp (BitVec.ofNat 32 x)).toNat, flags := 0 }
  else { code := bounded .rcp x (recipDy d) 1 none, flags := 0 }

/-- R88: FRSQ. -/
def frsqFin (x : Nat) (d : Dy) : FRes :=
  if d.mag = 0 then { code := f32Signed d.neg f32Inf, flags := flagDZ }
  else if d.neg then { code := f32Nan, flags := flagNV }
  else
    let (m, e) := sqrtDy d.mag d.exp
    { code := bounded .rsq x (recipDy { neg := false, mag := m, exp := e }) 1 none, flags := 0 }

/-- Compares a value with an integer. -/
def Dy.cmpInt (d : Dy) (n : Int) : Int := (d.at (min d.exp 0) - n * scaleUp 1 (-(min d.exp 0))).sign

/-- R88: FEXP2; exact where the argument is an integer and the result is representable. -/
def fexp2Fin (x : Nat) (d : Dy) : FRes :=
  let big := d.cmpInt 128
  let small := d.cmpInt (-150)
  if big ≥ 0 then { code := f32Inf, flags := flagOF }
  else if small < 0 then { code := 0, flags := 0 }
  else
    let k : Int := d.at (-320) / fxOne
    let fr := d.at (-320) - k * fxOne
    if fr = 0 ∧ -149 ≤ k then { code := (Fmt.f32.roundDy .rne { neg := false, mag := 1, exp := k }).code, flags := 0 }
    else
      let r := fxExp (fxMul fr fxLn2)
      { code := bounded .exp2 x { neg := false, mag := r.natAbs, exp := k - 320 } 2 none, flags := 0 }

/-- R88: FLOG2; exact for powers of two. -/
def flog2Fin (x : Nat) (d : Dy) : FRes :=
  if d.mag = 0 then { code := f32Signed true f32Inf, flags := flagDZ }
  else if d.neg then { code := f32Nan, flags := flagNV }
  else
    let k := floorLog2 d.mag 1 d.exp
    let m : Int := { d with exp := d.exp - k : Dy }.at (-320)
    let whole := { neg := decide (k < 0), mag := k.natAbs, exp := 0 : Dy }
    if m = fxOne then { code := (Fmt.f32.roundDy .rne { whole with neg := decide (k < 0) }).code, flags := 0 }
    else
      let lg := fxDiv (2 * fxAtanh (fxDiv (m - fxOne) (m + fxOne))) fxLn2 + k * fxOne
      let near := decide (k = -1) || decide (k = 0)
      { code := bounded .log2 x (fxDy lg) 2 (if near then some (-22) else none), flags := 0 }

/-- The absolute part of the bound of FSIN and FCOS, where the result is small (R88). -/
def smallSine (r : Int) : Option Int := if r.natAbs < 2 ^ 298 then some (-24) else none

/-- R88: FSIN of half-turns. -/
def fsinFin (x : Nat) (d : Dy) : FRes :=
  if d.mag = 0 then { code := f32Signed d.neg 0, flags := 0 }
  else if d.isInt then { code := f32Signed d.neg 0, flags := 0 }
  else
    let r := fxSinPi { d with neg := false : Dy }.mod2
    let r := if d.neg then -r else r
    { code := bounded .sin x (fxDy r) 2 (smallSine r), flags := 0 }

/-- R88: FCOS of half-turns. -/
def fcosFin (x : Nat) (d : Dy) : FRes :=
  if d.isInt then { code := f32Signed (d.intPart % 2 == 1) f32One, flags := 0 }
  else if d.double.isInt then { code := 0, flags := 0 }
  else
    let r := fxSinPi (({ d with neg := false : Dy }.mod2 + fxOne / 2) % (2 * fxOne))
    { code := bounded .cos x (fxDy r) 2 (smallSine r), flags := 0 }

/-- R88: FTANH; 9.0109 and above gives one. -/
def ftanhFin (x : Nat) (d : Dy) : FRes :=
  if d.mag = 0 then { code := f32Signed d.neg 0, flags := 0 }
  else
    let v := { d with neg := false : Dy }.at (-320)
    if v * 10000 ≥ 90109 * fxOne then { code := f32Signed d.neg f32One, flags := 0 }
    else
      -- e^(2v) as the sixteenth power of e^(v/8)
      let e := fxExp (v / 8)
      let e2 := fxMul e e
      let e4 := fxMul e2 e2
      let e8 := fxMul e4 e4
      let q := fxMul e8 e8
      let t := fxDiv (q - fxOne) (q + fxOne)
      { code := bounded .tanh x (fxDy (if d.neg then -t else t)) 2 none, flags := 0 }

/-- R88: an infinite argument. -/
def specialInf (f : SpecialFn) (neg : Bool) : FRes :=
  match f with
  | .rcp => { code := f32Signed neg 0, flags := 0 }
  | .rsq => if neg then { code := f32Nan, flags := flagNV } else { code := 0, flags := 0 }
  | .exp2 => { code := if neg then 0 else f32Inf, flags := 0 }
  | .log2 => if neg then { code := f32Nan, flags := flagNV } else { code := f32Inf, flags := 0 }
  | .sin => { code := f32Nan, flags := flagNV }
  | .cos => { code := f32Nan, flags := flagNV }
  | .tanh => { code := f32Signed neg f32One, flags := 0 }

/-- R87, R88: a special function of an f32 code. -/
def specialF32 (f : SpecialFn) (x : Nat) : FRes :=
  match Fmt.f32.value x with
  | .nan s => Fmt.f32.nanOf [.nan s]
  | .inf n => specialInf f n
  | .fin d => match f with
    | .rcp => frcpFin x d
    | .rsq => frsqFin x d
    | .exp2 => fexp2Fin x d
    | .log2 => flog2Fin x d
    | .sin => fsinFin x d
    | .cos => fcosFin x d
    | .tanh => ftanhFin x d

/-- R88, R280: an f16 result is the f32 result of the widened argument, rounded by rne; it raises what the f32
function raises. -/
def specialF16 (f : SpecialFn) (x : Nat) : FRes :=
  let v := Fmt.f16.value (x % 65536)
  let r := specialF32 f (convert (.float .f32) (.float .f16) .rne false (x % 65536)).code
  if v.isNan then Fmt.f16.nanOf [v]
  else { code := (convert (.float .f16) (.float .f32) .rne false r.code).code, flags := r.flags }

end Sys2Proof.Machine
end

