-- ==== Sys2Proof/Machine/FloatOps.lean ====
section
/-! DEFINITION. The floating-point instructions (R72 to R81), the conversions (R82 to R86) and the special functions
(R87, R88). -/

namespace Sys2Proof.Machine

/-- The kind of a destination code in the poison-origin record (R394). -/
def originKind (code : Byte) : Nat := if isV code then 0 else 2

/-- Delivers results that may raise exceptions (R73): flags become sticky, an enabled exception poisons its lane. -/
def deliverFloat (s : State) (c : Ctx) (g : Sig) (w : MainWord) (ty : OTy) (srcs : List Opnd) (res : Nat → FRes) : Res :=
  let scalar := g.scalarForm c.vector w
  let r0 : RVal := { shape := (resultShape srcs none).1, val := fun l => extendTo ty (BitVec.ofNat 64 (res l).code),
                     poison := anyPoison srcs }
  match (if scalar then none else destShapeCheck c w.d ty.width (r0.written c)) with
  | some t => .trap t
  | none =>
    if c.active = 0 then .done s
    else
      let first := lowestLane c.active
      let x := if scalar then raiseFlags c.group c.pos.pc [0] (fun _ => (res first).flags) w.d.toNat (originKind w.d)
        else raiseFlags c.group c.pos.pc (maskLanes c.active) (fun l => (res l).flags) w.d.toNat (originKind w.d)
      .done (c.put s (writeDest c x.1 scalar w.d ty.width { r0 with poison := fun l => anyPoison srcs l || x.2 l }))

/-- The type in M[3:2] and the rounding in M[1:0] (R13). -/
def mFmt (w : MainWord) : Fmt := floatFmt (bits w.m 3 2)
def mRnd (w : MainWord) : Rnd := Rnd.ofCode (bits w.m 1 0)

/-- R76: the fields of an arithmetic instruction; fixed tells that M[1:0] is reserved (R72). -/
def floatSig (op : BitVec 10) (w : MainWord) (readsB readsC fixed : Bool) : Sig :=
  let ty := OTy.float (mFmt w)
  { op := op, form := .byDest, d := .dstAny ty.width, a := .s ty, b := if readsB then .s ty else .unused,
    c := if readsC then .s ty else .unused, mOk := !fixed || bits w.m 1 0 == 0, imm := !readsC }

/-- The value of an operand's lane in a format. -/
def Opnd.fval (o : Opnd) (f : Fmt) (l : Nat) : FVal := f.value (o.val l).toNat

/-- A two-source operation on values. -/
def floatBinary (op : BitVec 10) (w : MainWord) (f : Fmt → Rnd → FVal → FVal → FRes) (s : State) :
    Host.Outcome State Fault Refusal :=
  let g := floatSig op w true false false
  runMain s g w (fun s c =>
    let a := g.opA c w
    let b := g.opB c w
    deliverFloat s c g w (.float (mFmt w)) [a, b] (fun l => f (mFmt w) (mRnd w) (a.fval (mFmt w) l) (b.fval (mFmt w) l)))

/-- R76: FADD. -/
def execFadd (w : MainWord) (s : State) : Host.Outcome State Fault Refusal := floatBinary 0x080 w Fmt.add s

/-- R76: a - b; a NaN operand keeps its own kind. -/
def Fmt.sub (f : Fmt) (mode : Rnd) (x y : FVal) : FRes := f.add mode x y.flip

/-- R76: FSUB. -/
def execFsub (w : MainWord) (s : State) : Host.Outcome State Fault Refusal := floatBinary 0x081 w Fmt.sub s

/-- R76: FMUL. -/
def execFmul (w : MainWord) (s : State) : Host.Outcome State Fault Refusal := floatBinary 0x082 w Fmt.mul s

/-- R76: FDIV. -/
def execFdiv (w : MainWord) (s : State) : Host.Outcome State Fault Refusal := floatBinary 0x088 w Fmt.div s

/-- R76: FFMA. -/
def execFfma (w : MainWord) (s : State) : Host.Outcome State Fault Refusal :=
  let g := floatSig 0x083 w true true false
  let f := mFmt w
  runMain s g w (fun s c =>
    let a := g.opA c w
    let b := g.opB c w
    let k := g.opC c w
    deliverFloat s c g w (.float f) [a, b, k] (fun l => f.fma (mRnd w) (a.fval f l) (b.fval f l) (k.fval f l)))

/-- R76: FSQRT. -/
def execFsqrt (w : MainWord) (s : State) : Host.Outcome State Fault Refusal :=
  let g := floatSig 0x089 w false false false
  let f := mFmt w
  runMain s g w (fun s c =>
    let a := g.opA c w
    deliverFloat s c g w (.float f) [a] (fun l => f.sqrt (mRnd w) (a.fval f l)))

/-- R77: minimumNumber and maximumNumber. -/
def floatMinMax (op : BitVec 10) (isMax : Bool) (w : MainWord) (s : State) : Host.Outcome State Fault Refusal :=
  let g := floatSig op w true false true
  let f := mFmt w
  runMain s g w (fun s c =>
    let a := g.opA c w
    let b := g.opB c w
    deliverFloat s c g w (.float f) [a, b] (fun l => f.minMax isMax (a.val l).toNat (b.val l).toNat))

/-- R77: FMIN. -/
def execFmin (w : MainWord) (s : State) : Host.Outcome State Fault Refusal := floatMinMax 0x084 false w s

/-- R77: FMAX. -/
def execFmax (w : MainWord) (s : State) : Host.Outcome State Fault Refusal := floatMinMax 0x085 true w s

/-- The place of the sign bit of a format. -/
def Fmt.signPlace (f : Fmt) : Nat := f.ebits + f.mbits

/-- R78: the sign bit alone changes. -/
def floatSign (op : BitVec 10) (w : MainWord) (f : Dword → Dword → Dword) (s : State) : Host.Outcome State Fault Refusal :=
  let g := floatSig op w false false true
  runMain s g w (fun s c =>
    let a := g.opA c w
    elementwise g w (.float (mFmt w)) (fun _ => [a]) (fun _ => none)
      (fun _ l => f (a.val l) (BitVec.twoPow 64 (mFmt w).signPlace)) s c)

/-- R78: FABS. -/
def execFabs (w : MainWord) (s : State) : Host.Outcome State Fault Refusal := floatSign 0x086 w (fun a b => a &&& ~~~b) s

/-- R78: FNEG. -/
def execFneg (w : MainWord) (s : State) : Host.Outcome State Fault Refusal := floatSign 0x087 w (fun a b => a ^^^ b) s

/-- R79: FCMP. -/
def execFcmp (w : MainWord) (s : State) : Host.Outcome State Fault Refusal :=
  let f := mFmt w
  let g : Sig := { op := 0x08A, form := .perLane, d := .form 0x07, a := .s (.float f), b := .s (.float f),
                   c := .form 0xFF, mOk := bits w.m 1 0 == 0, fieldsOk := bits w.c 4 3 != 0 || bits w.c 7 5 == 0 }
  runMain s g w (fun s c =>
    let a := g.opA c w
    let b := g.opB c w
    let r := fun l => floatCompare (bits w.c 2 0) (a.fval f l) (b.fval f l)
    let x := raiseFlags c.group c.pos.pc (maskLanes c.active) (fun l => (r l).2) (bits w.d 2 0) 2
    comparePred s { c with group := x.1 } w (fun l => (r l).1) (fun l => anyPoison [a, b] l || x.2 l))

/-- R80: FCLASS. -/
def execFclass (w : MainWord) (s : State) : Host.Outcome State Fault Refusal :=
  let g := { floatSig 0x08B w false false true with d := .dstAny 32 }
  runMain s g w (fun s c =>
    let a := g.opA c w
    elementwise g w tN32 (fun _ => [a]) (fun _ => none)
      (fun _ l => BitVec.ofNat 64 ((mFmt w).classMask (a.val l).toNat)) s c)

/-- Element i of width n of a packed operand. -/
def element (x : Dword) (n i : Nat) : Nat := bits x (n * i + n - 1) (n * i)

/-- R81: the fields of a packed dot product. -/
def dotSig (op : BitVec 10) (c : OTy) (mOk : Bool) : Sig :=
  { op := op, inS := false, form := .byDest, d := .dstAny 32, a := .s tN32, b := .s tN32, c := .s c, mOk := mOk }

/-- R81: FDOT2. -/
def execFdot2 (w : MainWord) (s : State) : Host.Outcome State Fault Refusal :=
  let g := dotSig 0x08C (.float .f32) (decide (w.m.toNat < 2))
  let f := if w.m = 0 then Fmt.f16 else Fmt.bf16
  runMain s g w (fun s c =>
    let a := g.opA c w
    let b := g.opB c w
    let k := g.opC c w
    deliverFloat s c g w (.float .f32) [a, b, k] (fun l =>
      dotRes (k.fval .f32 l) ([0, 1].map (fun i =>
        mulVal (f.value (element (a.val l) 16 i)) (f.value (element (b.val l) 16 i))))))

/-- R81: the formats of FDOT4; none for s8. -/
def dot4Fmt (n : Nat) : Fmt := if n = 0 then .e4m3 else .e5m2

/-- R81: FDOT4. -/
def execFdot4 (w : MainWord) (s : State) : Host.Outcome State Fault Refusal :=
  let fa := bits w.m 1 0
  let fb := bits w.m 3 2
  let isInt := fa == 2
  let ok := decide (fa < 3) && decide (fb < 3) && (fa == 2) == (fb == 2)
  let g := dotSig 0x08D (if isInt then .int 32 true else .float .f32) ok
  runMain s g w (fun s c =>
    let a := g.opA c w
    let b := g.opB c w
    let k := g.opC c w
    let prod := fun (l i : Nat) => signed 8 (element (a.val l) 8 i) * signed 8 (element (b.val l) 8 i)
    if isInt then
      elementwise g w (.int 32 true) (fun _ => [a, b, k]) (fun _ => none)
        (fun _ l => dword (signed 32 (k.val l).toNat + prod l 0 + prod l 1 + prod l 2 + prod l 3)) s c
    else
      deliverFloat s c g w (.float .f32) [a, b, k] (fun l =>
        dotRes (k.fval .f32 l) ([0, 1, 2, 3].map (fun i =>
          mulVal ((dot4Fmt fa).value (element (a.val l) 8 i)) ((dot4Fmt fb).value (element (b.val l) 8 i))))))

/-! ## Conversions -/

/-- How a register holds an element of a format (R82). -/
def ElemFmt.held : ElemFmt → OTy
  | .float f => .float f
  | .e8m0 => .int 8 false
  | .int w s => .int w s

/-- The type at which a register is read for an element of a format: the whole register, and the element in its low
bits (R8, R82). -/
def ElemFmt.read (f : ElemFmt) : OTy :=
  match f with
  | .float x => if x.width = 64 then .float x else tN32
  | .int 64 s => .int 64 s
  | _ => tN32

/-- R83: the formats of X; a reserved code acts as f32 until the reserved-field check refuses it. -/
def cvtFmt (n : Nat) : ElemFmt := (ElemFmt.ofCode n).getD (.float .f32)

/-- R83: the fields of a conversion. -/
def cvtSig (op : BitVec 10) (w : MainWord) (readsB ok : Bool) : Sig :=
  let dst := cvtFmt (bits w.x 4 0)
  { op := op, form := .byDest, d := .dstAny (if dst.width = 64 then 64 else 32), a := .s (cvtFmt (bits w.x 9 5)).read,
    b := if readsB then .s tN32 else .unused, mOk := ok, xMask := 0x3FF,
    fieldsOk := (ElemFmt.ofCode (bits w.x 4 0)).isSome && (ElemFmt.ofCode (bits w.x 9 5)).isSome &&
      decide (bits w.x 4 0 ≠ 9) }

/-- Delivers a converted element in the low bits of its register (R82). -/
def deliverElement (s : State) (c : Ctx) (g : Sig) (w : MainWord) (dst : ElemFmt) (srcs : List Opnd) (res : Nat → FRes) : Res :=
  let ext := fun (r : FRes) => { r with code := (extendTo dst.held (BitVec.ofNat 64 r.code)).toNat : FRes }
  deliverFloat s c g w (if dst.width = 64 then tN64 else .int 32 (match dst with | .int _ b => b | _ => false)) srcs
    (fun l => ext (res l))

/-- R83: CVT. -/
def execCvt (w : MainWord) (s : State) : Host.Outcome State Fault Refusal :=
  let g := cvtSig 0x100 w false (decide (w.m.toNat < 8))
  let dst := cvtFmt (bits w.x 4 0)
  let src := cvtFmt (bits w.x 9 5)
  runMain s g w (fun s c =>
    let a := g.opA c w
    deliverElement s c g w dst [a] (fun l => convert dst src (mRnd w) (w.m.getLsbD 2) (a.val l).toNat))

/-- R85: CVTS. -/
def execCvts (w : MainWord) (s : State) : Host.Outcome State Fault Refusal :=
  let dst := cvtFmt (bits w.x 4 0)
  let src := cvtFmt (bits w.x 9 5)
  let g0 := cvtSig 0x101 w true (w.m == 0 || w.m == 4)
  let g := { g0 with fieldsOk := g0.fieldsOk && !src.isInt && decide (dst.width < src.width) }
  runMain s g w (fun s c =>
    let a := g.opA c w
    let b := g.opB c w
    deliverElement s c g w dst [a, b] (fun l =>
      convertStochastic dst src (w.m.getLsbD 2) (a.val l).toNat (bits (b.val l) 15 0)))

/-- R86: FRND. -/
def execFrnd (w : MainWord) (s : State) : Host.Outcome State Fault Refusal :=
  let g := floatSig 0x102 w false false false
  runMain s g w (fun s c =>
    let a := g.opA c w
    deliverFloat s c g w (.float (mFmt w)) [a] (fun l => (mFmt w).integral (mRnd w) (a.val l).toNat))

/-! ## Special functions -/

/-- R87: a special function of f32 or f16. -/
def specialOp (op : BitVec 10) (fn : SpecialFn) (w : MainWord) (s : State) : Host.Outcome State Fault Refusal :=
  let ty := OTy.float (if bits w.m 3 2 = 2 then .f16 else .f32)
  let g := { floatSig op w false false true with inS := false, mOk := w.m == 0 || w.m == 8, d := .dstAny 32, a := .s ty }
  runMain s g w (fun s c =>
    let a := g.opA c w
    deliverFloat s c g w (.float (mFmt w)) [a] (fun l =>
      if w.m = 0 then specialF32 fn (a.val l).toNat else specialF16 fn (a.val l).toNat))

/-- R87: FRCP. -/
def execFrcp (w : MainWord) (s : State) : Host.Outcome State Fault Refusal := specialOp 0x110 .rcp w s

/-- R87: FRSQ. -/
def execFrsq (w : MainWord) (s : State) : Host.Outcome State Fault Refusal := specialOp 0x111 .rsq w s

/-- R87: FEXP2. -/
def execFexp2 (w : MainWord) (s : State) : Host.Outcome State Fault Refusal := specialOp 0x112 .exp2 w s

/-- R87: FLOG2. -/
def execFlog2 (w : MainWord) (s : State) : Host.Outcome State Fault Refusal := specialOp 0x113 .log2 w s

/-- R87: FSIN. -/
def execFsin (w : MainWord) (s : State) : Host.Outcome State Fault Refusal := specialOp 0x114 .sin w s

/-- R87: FCOS. -/
def execFcos (w : MainWord) (s : State) : Host.Outcome State Fault Refusal := specialOp 0x115 .cos w s

/-- R87: FTANH. -/
def execFtanh (w : MainWord) (s : State) : Host.Outcome State Fault Refusal := specialOp 0x116 .tanh w s

end Sys2Proof.Machine
end

