-- ==== Sys2Proof/Machine/Quant.lean ====
section
/-! DEFINITION. The quantisation helpers QSCL, QPACK and QUNPK, and SHAPE (R89 to R93). -/

namespace Sys2Proof.Machine

/-- The band operand: uniform f32 for fb4, reserved otherwise (R90). DESIGN CHOICE (log 65): uniform is the class of R9, so that a
v register declared uniform is an illegal operand (0x04), here and for R91 and R92. -/
def bandUse (w : MainWord) : FieldUse := if w.m = 5 then .src (.float .f32) isUniform else .unused

/-- Delivers a vector result whose shape is always general, with exceptions raised by the given lanes. -/
def deliverGeneral (s : State) (c : Ctx) (g : Sig) (w : MainWord) (raising : List Nat) (res : Nat → FRes) (poison : Nat → Bool) : Res :=
  let r0 : RVal := { shape := .general, val := fun l => BitVec.ofNat 64 (res l).code, poison := poison }
  match destShapeCheck c w.d 32 .general with
  | some t => .trap t
  | none =>
    if c.active = 0 then .done s
    else
      let x := raiseFlags c.group c.pos.pc raising (fun l => (res l).flags) w.d.toNat (originKind w.d)
      .done (c.put s (writeDest c x.1 (g.scalarForm c.vector w) w.d 32 { r0 with poison := fun l => poison l || x.2 l }))

/-- The lanes of the block of a lane (R89). -/
def blockLanes (k l : Nat) : List Nat := (List.range (blockSize k)).map (fun i => l / blockSize k * blockSize k + i)

/-- R90: QSCL. -/
def execQscl (w : MainWord) (s : State) : Host.Outcome State Fault Refusal :=
  let k := w.m.toNat
  let g : Sig := { op := 0x120, inS := false, form := .perLane, d := .dst 32 isV, a := .s (.float .f32), b := bandUse w,
                   mOk := blockFmtOk k, imm := true }
  runMain s g w (fun s c =>
    let a := g.opA c w
    let band := g.opB c w
    let lanes := fun l => (blockLanes k l).filter (laneBit c.active)
    deliverGeneral s c g w (maskLanes c.active)
      (fun l => blockScale k (band.val l).toNat ((lanes l).map (fun j => a.fval .f32 j)))
      (fun l => (lanes l).any a.poison || band.poison l))

/-- R91: QPACK. -/
def execQpack (w : MainWord) (s : State) : Host.Outcome State Fault Refusal :=
  let k := w.m.toNat
  let n := perWord k
  let g : Sig := { op := 0x121, inS := false, form := .perLane, d := .dst 32 isV, a := .s (.float .f32), b := .s tN32,
                   c := bandUse w, mOk := blockFmtOk k, imm := w.m != 5 }
  runMain s g w (fun s c =>
    let a := g.opA c w
    let b := g.opB c w
    let band := g.opC c w
    let elem := fun (j : Nat) =>
      if laneBit c.active j then packElement k (a.fval .f32 j) (bits (b.val j) 7 0) (band.val j).toNat
      else { code := 0, flags := 0 }
    let parts := fun (l : Nat) => if l < 64 / n then List.range n else []
    let word := fun (l : Nat) =>
      (parts l).foldl (fun (r : FRes) i =>
        { code := r.code + (elem (n * l + i)).code * 2 ^ ((blockElem k).width * i), flags := 0 }) { code := 0, flags := 0 }
    -- every active element raises its exceptions, whether or not the lane of its word is active (R91)
    let flags := fun (l : Nat) => unionFlags (parts l) (fun i => (elem (n * l + i)).flags)
    deliverGeneral s c g w (List.range (64 / n)) (fun l => { word l with flags := flags l })
      (fun l => (parts l).any (fun i => a.poison (n * l + i) || b.poison (n * l + i)) || band.poison l))

/-- R92: QUNPK. -/
def execQunpk (w : MainWord) (s : State) : Host.Outcome State Fault Refusal :=
  let k := w.m.toNat
  let n := perWord k
  let width := (blockElem k).width
  let g : Sig := { op := 0x122, inS := false, form := .perLane, d := .dst 32 isV, a := .s tN32, b := .s tN32,
                   c := bandUse w, mOk := blockFmtOk k, imm := w.m != 5 }
  runMain s g w (fun s c =>
    let a := g.opA c w
    let b := g.opB c w
    let band := g.opC c w
    let word := fun (j : Nat) => if laneBit c.entry j then a.val j else 0
    deliverGeneral s c g w (maskLanes c.active)
      (fun l => unpackElement k .f32 (bits (word (l / n)) (width * (l % n) + width - 1) (width * (l % n)))
        (bits (b.val l) 7 0) (band.val l).toNat)
      (fun l => (laneBit c.entry (l / n) && a.poison (l / n)) || b.poison l || band.poison l))

/-- R93: SHAPE. -/
def execShape (w : MainWord) (s : State) : Host.Outcome State Fault Refusal :=
  let g : Sig := { op := 0x123, inS := false, form := .byDest, d := .dstAny 32, a := .src tN32 isV,
                   mOk := decide (w.m.toNat < 3) }
  let codes : Sig := { g with form := .once }
  runMain s codes w (fun s c =>
    let r := c.group.regs.v w.a.toNat
    let scalar := isScalarReg w.d || w.d == 0xE0
    let val : Dword := match w.m.toNat with
      | 0 => BitVec.ofNat 64 r.shape.code
      | 1 => (r.lane 0).setWidth 64
      | _ => (if r.shape = .uniform then 0 else r.lane 1 - r.lane 0).setWidth 64
    let poison := match w.m.toNat with
      | 0 => false
      | 1 => laneBit r.poison 0
      | _ => laneBit r.poison 0 || laneBit r.poison 1
    let x : RVal := { shape := .uniform, val := fun _ => val, poison := fun _ => poison }
    match (if scalar then none else destShapeCheck c w.d 32 (x.written c)) with
    | some t => .trap t
    | none => if c.active = 0 then .done s else .done (c.put s (writeDest c c.group scalar w.d 32 x)))

end Sys2Proof.Machine
end

