-- ==== Sys2Proof/Machine/Collective.lean ====
section
/-! DEFINITION. The collective data instructions PART and REORD (R100 to R104). -/

namespace Sys2Proof.Machine

/-- R100: a collective instruction issues only when every live lane is an entry lane. -/
def Ctx.divergence (c : Ctx) : Option TrapInfo :=
  if c.entry = c.live then none else some (c.whole 0x09 c.entry c.live)

/-- The result of a list append: lane and position, counts as they grow, and the words to store. -/
structure PartState where
  counts : List Nat
  out : List (Nat × Nat)
  stores : List (Nat × Nat × Nat)

/-- R101: one active lane. -/
def partLane (outcomes : Nat) (bases caps : List Nat) (a b : Opnd) (p : PartState) (l : Nat) : PartState :=
  let o := (a.val l).toNat % 2 ^ 32
  if outcomes ≤ o then { p with out := p.out ++ [(l, 0xFFFFFFFF)] }
  else
    let pos := p.counts.getD o 0
    { counts := p.counts.set o ((pos + 1) % 2 ^ 32), out := p.out ++ [(l, pos)],
      stores := if pos < caps.getD o 0 then
          p.stores ++ [(l, (bases.getD o 0 + 4 * pos) % 2 ^ 32, (b.val l).toNat % 2 ^ 32)]
        else p.stores }

/-- Four n32 words of a scratchpad. -/
def Scratchpad.words4 (p : Scratchpad) (a : Nat) : List Nat := [0, 1, 2, 3].map (fun i => ofBytes (p.readBytes (a + 4 * i) 4))

/-- R101, R102: PART. Poisoned descriptor words poison the results and keep their poison (R110). DESIGN CHOICE (log 65): D names a
v register or zero, any other code being an illegal operand. -/
def execPart (w : MainWord) (s : State) : Host.Outcome State Fault Refusal :=
  let g : Sig := { op := 0x185, inS := false, form := .perLane, d := .dst 32 (fun c => isV c || c == 0xE0), a := .s tN32,
                   b := .s tN32, c := .src tN32 isScalarReg, mOk := decide (w.m.toNat < 4) }
  runMain s g w (fun s c =>
    let a := g.opA c w
    let b := g.opB c w
    let d := g.opC c w
    let desc := (d.val (lowestLane c.active)).toNat % 2 ^ 32
    -- the counts, the bases and the capacities: each lies in one line, so in one half of a pair (R127)
    let part := fun (i : Nat) => redirect c.team.pairs (desc + 16 * i)
    let x := part 0
    let p := c.scratch
    let lanes := maskLanes c.active
    let poisoned := lanes.any (fun l => a.poison l || b.poison l || d.poison l)
    match c.divergence with
    | some t => .trap t
    | none =>
    match destShapeCheck c w.d 32 .general with
    | some t => .trap t
    | none =>
      if lanes = [] then .done s
      else if !d.poison 0 && (decide (desc % 16 ≠ 0) || !p.inside desc 48) then
        .trap (c.someLanes 0x24 c.active (BitVec.ofNat 64 desc) 0)
      else if poisoned then
        let field : Nat := if lanes.any a.poison then 1 else if lanes.any b.poison then 2 else 3
        .trap (c.whole 0x0C c.origin (BitVec.ofNat 64 field))
      else
        match c.absentLine [desc, desc + 16, desc + 32] 16 with
        | some l => .wait s (.absentLine l)
        | none =>
          let r := lanes.foldl (fun t l => partLane (bits w.m 1 0 + 1) (p.words4 (part 1)) (p.words4 (part 2)) a b t l)
            { counts := p.words4 x, out := [], stores := [] }
          match c.laneTrap false (r.stores.filterMap (fun t => checkScratch p 4 t.1 t.2.1)) with
          | some t => .trap t
          | none =>
            if c.awaitsCommit then .wait s .commit
            else c.present s (r.stores.map (fun t => t.2.1)) 4
              (let origin := (([0, 1, 2].map (fun i => p.originIn (part i) 16)).find? (fun o => o != 0)).getD 0
               let kept := p.poison.filter (fun n => decide (x / 4 ≤ n ∧ n < x / 4 + 4))
               let count := fun (q : Scratchpad) =>
                 let q1 := q.write x (r.counts.flatMap (toBytes 4))
                 { q1 with poison := q1.poison ++ kept }
               let put := fun (q : Scratchpad) =>
                 r.stores.foldl (fun q t => q.write (redirect c.team.pairs t.2.1) (toBytes 4 t.2.2)) (count q)
               let s1 := s.modScratch c.tid c.group.coreIx put
               let pos := fun (l : Nat) => ((r.out.find? (fun t => t.1 == l)).map (fun t => t.2)).getD 0
               let rv : RVal := { shape := .general, val := fun l => BitVec.ofNat 64 (pos l), poison := fun _ => decide (origin ≠ 0) }
               .done (s1.modGroup c.tid c.gid (fun y =>
                 let y1 := if origin ≠ 0 then y.event origin.toNat w.d.toNat (lowestLane c.active) 3 c.pos.pc (BitVec.ofNat 64 desc) else y
                 writeDest c y1 false w.d 32 rv))))

/-- R103: the even s register that holds a mask with its successor. -/
def maskPair (c : Byte) : Bool := isS c && c.toNat % 2 == 0

/-- R103, R225: the shape trap of a register that REORD would move or write. -/
def reordShape (c : Ctx) (regs : List Nat) : Option TrapInfo := firstSome (fun n => shapeCheck c n .general) regs

/-- R103, R189: the marked registers of the group that issues a REORD, which reads them; one that holds an armed mailbox keeps
its data (R104). -/
def State.reordReads (s : State) (w : MainWord) : List Nat :=
  match s.issuer with
  | none => []
  | some (_, g, _, _) =>
    let k := w.b.toNat - 0x80
    if g.holds || !maskPair w.b then []
    else (List.range g.regs.vregs.length).filter (marked (g.regs.s k).value (g.regs.s (k + 1)).value)

/-- R103, R104: REORD. DESIGN CHOICE (log 68): an arrival counts beside plain and copy arrivals that came before it. -/
def execReord (w : MainWord) (s : State) : Host.Outcome State Fault Refusal :=
  let core := w.m.getLsbD 0
  let g : Sig := { op := 0x186, inS := false, form := .perLane, d := .dst 32 (fun c => isV c || c == 0xE0),
                   a := .src tN32 isV, b := .src tN64 maskPair, c := .form (if core then 0x3F else 0),
                   mOk := decide (w.m.toNat < 4), fieldsOk := !w.neg && w.pred == 0 && decide (barNumber w < 48)
                   reads := s.reordReads w }
  runMain s g w (fun s c =>
    let n := barNumber w
    let k := w.b.toNat - 0x80
    let arrival : ReordArrival := { gid := c.gid, key := w.a.toNat, lowMask := (c.group.regs.s k).value
                                    highMask := (c.group.regs.s (k + 1)).value, dest := w.d, preds := w.m.getLsbD 1 }
    let regs := (List.range 128).filter (marked arrival.lowMask arrival.highMask)
    match c.divergence with
    | some t => .trap t
    | none =>
      if core && c.group.reordFailed == some n then
        .fails (s.modGroup c.tid c.gid (fun g => { g with reordFailed := none })) (c.whole 0x09 c.entry c.live)
      else if core && barMisuse s c n then c.misuse n
      else match reordShape c (regs ++ if isV w.d then [w.d.toNat] else []) with
      | some t => .trap t
      | none =>
        if c.live &&& (c.group.regs.v w.a.toNat).poison ≠ 0 then .trap (c.whole 0x0D c.origin 1)
        else if !core then
          let gs := [c.group]
          .done (c.put s (reordGroup gs (movesOf gs w.a.toNat) arrival c.group))
        else if c.group.reordAt ≠ some n ∧ c.team.opening n = true then .wait s .commit
        else
          let s1 := if c.group.reordAt = some n then s
            else
              let note := fun (g : Group) => { g with
                reordAt := some n, arrGen := g.arrGen.set n (some (c.team.barrier n).gen)
                arrivedAt := if c.team.staging && (c.team.barrier n).expected == c.team.groups.length then g.arrivedAt ++ [(n, g.regs)]
                  else g.arrivedAt }
              s.setTeam ((c.team.modBarrier n (fun b => { b with arrivals := b.arrivals + 1, reord := b.reord ++ [arrival]
                                                                 arrived := b.arrived ++ [c.gid] })).modGroup c.gid note)
          match s1.team? c.tid with
          | none => .gone s1
          | some t =>
            if (t.barrier n).arrivals < (t.barrier n).expected then .wait s1 (.reorder n)
            else match s1.reordOutcome t n (some c.gid) (fallThrough c w) with
              | .pending => .wait s1 (.reorder n)
              | .diverged => .fails ((s1.failReord c.tid n).modGroup c.tid c.gid (fun g => { g with reordAt := none, reordFailed := none }))
                  (c.whole 0x09 c.entry c.live)
              | .moved s2 => .done s2)

end Sys2Proof.Machine
end

