-- ==== Sys2Proof/Machine/CrossLane.lean ====
section
/-! DEFINITION. The cross-lane instructions (R94 to R99). -/

namespace Sys2Proof.Machine

/-- R95: PRDX. -/
def execPrdx (w : MainWord) (s : State) : Host.Outcome State Fault Refusal :=
  let g : Sig := { op := 0x180, inS := false, form := .perLane, d := .form 0x07, a := .form 0x07,
                   mOk := decide (w.m.toNat < 4) }
  runMain s g w (fun s c =>
    let p := c.group.regs.p (bits w.a 2 0)
    let pp := c.group.regs.pPoison (bits w.a 2 0)
    let on := p &&& c.active
    let t := match w.m.toNat with
      | 0 => decide (on = c.active)
      | 1 => decide (on ≠ 0)
      | 2 => decide (on = c.active) || decide (on = 0)
      | _ => maskCount on % 2 == 1
    deliverPred s c (bits w.d 2 0) (fun _ => t) (fun _ => decide (pp &&& c.active ≠ 0)))

/-- R96: the mask of a mode. -/
def ballotMask (c : Ctx) (w : MainWord) : Dword :=
  match w.m.toNat with
  | 0 => c.active &&& c.group.regs.p (bits w.a 2 0)
  | 1 => c.active
  | 2 => c.entry
  | _ => c.live

/-- R96: BALLOT. An s or ts register is written once, a v pair in every active lane. -/
def execBallot (w : MainWord) (s : State) : Host.Outcome State Fault Refusal :=
  let g : Sig := { op := 0x181, inS := false, form := .byDest, d := .dstAny 64, a := .form (if w.m = 0 then 0x07 else 0),
                   mOk := decide (w.m.toNat < 4) }
  runMain s g w (fun s c =>
    let poison := w.m == 0 && decide (c.group.regs.pPoison (bits w.a 2 0) &&& c.active ≠ 0)
    deliver s c g w 64 { shape := .uniform, val := fun _ => ballotMask c w, poison := fun _ => poison })

/-- R97: where a lane reads: its segment's base and the position, none outside the segment. -/
def exchangeSource (mode : Nat) (wrap : Bool) (segment l : Nat) (b : Dword) : Option Nat :=
  let width := 2 ^ segment
  let base := l - l % width
  let i : Int := (l % width : Nat)
  let n : Int := (bits b 5 0 % width : Nat)
  let j : Int := match mode with
    | 0 => n
    | 1 => i - n
    | 2 => i + n
    | _ => (i.toNat ^^^ n.toNat : Nat)
  let j := if wrap then j % width else j
  if 0 ≤ j ∧ j < width then some (base + j.toNat) else none

/-- R94: the value and poison read from a source lane. -/
def readLane (c : Ctx) (a : Opnd) (l : Nat) : Dword × Bool :=
  if laneBit c.entry l then (a.val l, a.poison l) else (0, false)

/-- R97, R98: the fields of a lane exchange. -/
def exchangeSig (op : BitVec 10) (w : MainWord) (cMask : Byte) (cOk : Bool) : Sig :=
  { op := op, inS := false, form := .perLane, d := .dst 32 isV, a := .s tN32, b := .s tN32, c := .form cMask,
    mOk := decide (w.m.toNat < 8) && (!w.m.getLsbD 2 || bits w.m 1 0 == 1 || bits w.m 1 0 == 2),
    fieldsOk := decide (bits w.c 2 0 < 7) && cOk }

/-- R97: the source of a lane for an instruction word. -/
def sourceOf (w : MainWord) (b : Opnd) (l : Nat) : Option Nat :=
  exchangeSource (bits w.m 1 0) (w.m.getLsbD 2) (bits w.c 2 0) l (b.val l)

/-- R97: LXCH. -/
def execLxch (w : MainWord) (s : State) : Host.Outcome State Fault Refusal :=
  let g := exchangeSig 0x182 w 0x07 true
  runMain s g w (fun s c =>
    let a := g.opA c w
    let b := g.opB c w
    let read := fun l => match sourceOf w b l with
      | some j => readLane c a j
      | none => (a.val l, a.poison l)
    let inside := (maskLanes c.active).all (fun l => match sourceOf w b l with
      | some j => laneBit c.entry j
      | none => true)
    deliver s c g w 32
      { shape := if a.shape = .uniform ∧ inside = true then .uniform else .general, val := fun l => (read l).1,
        poison := fun l => (read l).2 || b.poison l })

/-- R98: the operation of a code on two words. -/
def laneOp (code : Nat) (a b : Dword) : FRes :=
  let x := a.toNat
  let y := b.toNat
  let plain := fun (r : Dword) => ({ code := (zextDword 32 r).toNat, flags := 0 } : FRes)
  let pick := fun (t : Bool) => plain (if t then a else b)
  match code with
  | 0 => plain (a + b)
  | 1 => pick (decide (signed 32 x ≤ signed 32 y))
  | 2 => pick (decide (signed 32 y ≤ signed 32 x))
  | 3 => pick (decide (x ≤ y))
  | 4 => pick (decide (y ≤ x))
  | 5 => plain (a &&& b)
  | 6 => plain (a ||| b)
  | 7 => plain (a ^^^ b)
  | 8 => Fmt.f32.add .rne (Fmt.f32.value x) (Fmt.f32.value y)
  | 9 => Fmt.f32.minMax false x y
  | _ => Fmt.f32.minMax true x y

/-- R98: the identity of an operation. -/
def laneIdentity (code : Nat) : Dword :=
  match code with
  | 1 => 0x7FFFFFFF
  | 2 => 0x80000000
  | 3 => 0xFFFFFFFF
  | 5 => 0xFFFFFFFF
  | 8 => 0x80000000
  | 9 => 0x7F800000
  | 10 => 0xFF800000
  | _ => 0

/-- R98: LXOP. -/
def execLxop (w : MainWord) (s : State) : Host.Outcome State Fault Refusal :=
  let g := exchangeSig 0x183 w 0xF7 (decide (bits w.c 7 4 < 11))
  runMain s g w (fun s c =>
    let a := g.opA c w
    let b := g.opB c w
    let from? := fun l => (sourceOf w b l).bind (fun j => if laneBit c.entry j then some j else none)
    deliverGeneral s c g w (maskLanes c.active)
      (fun l => match from? l with
        | some j => laneOp (bits w.c 7 4) (a.val l) (a.val j)
        | none => { code := (a.val l).toNat, flags := 0 })
      (fun l => a.poison l || b.poison l || (match from? l with | some j => a.poison j | none => false)))

/-- The running value of a scan: the accumulator with its poison, and what each lane receives (R99). -/
structure ScanState where
  have_ : Bool
  acc : Dword
  poison : Bool
  flags : Flags
  /-- Lane, value, poison and exceptions of each result, the last lane first. -/
  out : List (Nat × Dword × Bool × Flags)

/-- R99: one active lane of a scan; enabled tells the exceptions that poison. -/
def scanLane (code : Nat) (excl : Bool) (enabled : Flags) (head headPoison : Dword) (a : Opnd) (t : ScanState) (l : Nat) :
    ScanState :=
  let starts := !t.have_ || laneBit head l
  let hp := t.have_ && laneBit headPoison l
  let p0 := if starts then hp else t.poison || hp
  let step := fun (x : Dword) => laneOp code x (a.val l)
  if excl then
    let acc := if starts then laneIdentity code else t.acc
    let r := step acc
    { have_ := true, acc := BitVec.ofNat 64 r.code, flags := r.flags,
      poison := p0 || a.poison l || decide (r.flags &&& enabled ≠ 0), out := (l, acc, p0, r.flags) :: t.out }
  else
    let r : FRes := if starts then { code := (a.val l).toNat, flags := 0 } else step t.acc
    let p := p0 || a.poison l || decide (r.flags &&& enabled ≠ 0)
    { have_ := true, acc := BitVec.ofNat 64 r.code, flags := r.flags, poison := p,
      out := (l, BitVec.ofNat 64 r.code, p, r.flags) :: t.out }

/-- R99: SCAN. -/
def execScan (w : MainWord) (s : State) : Host.Outcome State Fault Refusal :=
  let code := bits w.c 7 4
  let g : Sig := { op := 0x184, inS := false, form := .perLane, d := .dst 32 isV, a := .s tN32, c := .form 0xF7,
                   mOk := decide (w.m.toNat < 2), fieldsOk := decide (code < 11) }
  runMain s g w (fun s c =>
    let a := g.opA c w
    let head := c.group.regs.p (bits w.c 2 0)
    let headPoison := c.group.regs.pPoison (bits w.c 2 0)
    let t := (maskLanes c.active).foldl
      (scanLane code (w.m.getLsbD 0) (fpstEnables c.group.regs.fpst) head headPoison a)
      { have_ := false, acc := 0, poison := false, flags := 0, out := [] }
    let find := fun (l : Nat) => ((t.out.find? (fun x => x.1 == l)).map (fun x => x.2)).getD (0, false, 0)
    match destShapeCheck c w.d 32 .general with
    | some x => .trap x
    | none =>
      if c.active = 0 then .done s
      else
        let x := raiseFlags c.group c.pos.pc (maskLanes c.active) (fun l => (find l).2.2) w.d.toNat 0
        .done (c.put s (writeDest c x.1 false w.d 32
          { shape := .general, val := fun l => (find l).1, poison := fun l => (find l).2.1 })))

end Sys2Proof.Machine
end

