-- ==== Sys2Proof/Machine/TileOps.lean ====
section
/-! DEFINITION. What the tile instructions share: the tile set and its binding (R141), tile format codes (R143), the
operands of TMMA (R144 to R147) and its accumulation (R148, R276). -/

namespace Sys2Proof.Machine

/-- R141: a tile of a newly bound set. -/
def Tile.zero : Tile := { rows := List.replicate 16 (List.replicate 64 0), poison := 0 }

/-- R141: the group's tile set; a group without one has a fresh set. -/
def GroupRegs.tileSet (g : GroupRegs) : List Tile := g.tiles.getD (List.replicate 8 Tile.zero)

def GroupRegs.tile (g : GroupRegs) (n : Nat) : Tile := g.tileSet.getD n Tile.zero

def GroupRegs.setTile (g : GroupRegs) (n : Nat) (t : Tile) : GroupRegs := { g with tiles := some (g.tileSet.set n t) }

def Tile.at (t : Tile) (row col : Nat) : Word := (t.rows.getD row []).getD col 0

/-- A tile written element by element. -/
def Tile.of (f : Nat → Nat → Word) (poison : Nat → Bool) : Tile :=
  { rows := (List.range 16).map (fun r => lanes64.map (fun n => f r n)), poison := (maskOf poison).setWidth 16 }

/-- R142: the tile register that a field names. -/
def tileUse : FieldUse := .form 0x07
def tileOf (code : Byte) : Nat := bits code 2 0

/-- R246: whether two slots lie in one quadrant. -/
def sameQuadrant (a b : Nat) : Bool := a / 16 == b / 16

/-- R141: both sets of the issuing group's quadrant are bound to other groups. -/
def State.noTileSet (s : State) (c : Ctx) : Bool :=
  c.group.regs.tiles.isNone &&
  decide (2 ≤ ((s.teams.flatMap (fun t => (t.groups.filter (fun g =>
    g.regs.tiles.isSome && sameQuadrant g.slot c.group.slot && decide (t.coreOf g = some c.unit))))).length))

/-- R141: a harvest context takes harvest limit. -/
def Ctx.harvestTile (c : Ctx) : Option TrapInfo := if c.group.harvest then some (c.whole 0x11 1 0) else none

/-- R141, R142: what a tile instruction meets before it acts: harvest limit, the traps of its own, then the wait for a
set. The body sees the group bound. Without an active lane it does not execute at all (R12). -/
def tileGate (s : State) (c : Ctx) (traps : List (Option TrapInfo)) (k : Group → Res) : Res :=
  if c.active = 0 then .done s
  else match (c.harvestTile :: traps).findSome? id with
    | some t => .trap t
    | none => if s.noTileSet c then .wait s .tileSet else k { c.group with regs := { c.group.regs with tiles := some c.group.regs.tileSet } }

/-- The rows of a tile. -/
def rows16 : List Nat := List.range 16

/-- The flags of the elements of a row. -/
def rowFlags (f : Nat → Nat → FRes) (r : Nat) : Flags := unionFlags lanes64 (fun n => (f r n).flags)

/-- R142, R149: writes tile t with computed elements; an enabled exception poisons its row, and so does a poisoned guard. -/
def putTile (s : State) (c : Ctx) (g : Group) (t : Nat) (f : Nat → Nat → FRes) (poison : Nat → Bool) : State :=
  let table := rows16.map (fun r => lanes64.map (fun n => f r n))
  let at_ := fun (r n : Nat) => (table.getD r []).getD n { code := 0, flags := 0 }
  let x := raiseFlags g c.pos.pc rows16 (fun r => rowFlags at_ r) t 1
  let tile := Tile.of (fun r n => BitVec.ofNat 32 (at_ r n).code) (fun r => poison r || x.2 r || decide (c.guardPoison ≠ 0))
  c.put s { x.1 with regs := x.1.regs.setTile t tile }

/-- An element that raises nothing. -/
def plainWord (w : Word) : FRes := { code := w.toNat, flags := 0 }

/-- The bytes that are read at exact scratchpad places, each line redirected (R127), and the first origin of their stored
poison. -/
def Ctx.scratchRow (c : Ctx) (a n : Nat) : List Byte := c.scratch.readThrough c.team.pairs a n
def Ctx.scratchOrigin (c : Ctx) (a n : Nat) : Byte := c.scratch.originThrough c.team.pairs a n

/-- A scratchpad fault of a tile instruction, 0x25 or 0x24 (R146, R151), which every active lane meets (R364). -/
def Ctx.tileFault (c : Ctx) (cause a : Nat) : Option TrapInfo := some (c.someLanes cause c.active (BitVec.ofNat 64 a) 0)

/-- The first of some ranges that does not lie within the allocation: 0x24 at its first byte outside. -/
def Ctx.outside (c : Ctx) (ranges : List (Nat × Nat)) : Option TrapInfo :=
  match ranges.find? (fun r => !c.scratch.inside r.1 r.2) with
  | some r => c.tileFault 0x24 (max r.1 c.scratch.size)
  | none => none

/-- R119: the first absent line of some ranges. -/
def Ctx.absentRange (c : Ctx) (ranges : List (Nat × Nat)) : Option Nat :=
  ranges.findSome? (fun r => c.scratch.absentThrough c.team.pairs r.1 r.2)

/-- R151: rows of a tile in scratchpad: 16 ranges. -/
def tileRanges (a pitch bytes : Nat) : List (Nat × Nat) := rows16.map (fun r => (a + r * pitch, bytes))

/-- R395: the event of rows that a read of stored poison poisoned. -/
def Ctx.rowEvent (c : Ctx) (g : Group) (t : Nat) (origins : List (Nat × Nat × Byte)) : Group :=
  match origins.find? (fun o => o.2.2 ≠ 0) with
  | some o => g.event o.2.2.toNat t o.1 3 c.pos.pc (BitVec.ofNat 64 o.2.1)
  | none => g

/-! ## Formats -/

/-- R143: classes of tile formats. -/
inductive TileClass where
  | narrow | half | integer
deriving DecidableEq, Repr

/-- R143: the class of a tile format code. -/
def tileClass (f : Nat) : Option TileClass :=
  if f < 5 then some .narrow else if f < 7 then some .half else if f < 9 then some .integer else none

/-- R143: the group G. -/
def tileGroup (f : Nat) : Nat := if f = 5 ∨ f = 6 then 16 else 32

/-- R143, R144: the bytes of K elements. -/
def tileRowBytes (f k : Nat) : Nat := if f = 5 ∨ f = 6 then 2 * k else if f = 4 ∨ f = 8 then k / 2 else k

/-- R143: element k of a row's bytes. -/
def tileElement (f : Nat) (byte : Nat → Nat) (k : Nat) : FVal :=
  let nibble := byte (k / 2) / 16 ^ (k % 2) % 16
  let six := ofBytes ([0, 1, 2, 3].map (fun i => BitVec.ofNat 8 (byte (k / 4 * 4 + i)))) / 64 ^ (k % 4) % 64
  match f with
  | 0 => Fmt.e4m3.value (byte k)
  | 1 => Fmt.e5m2.value (byte k)
  | 2 => Fmt.e3m2.value six
  | 3 => Fmt.e2m3.value six
  | 4 => Fmt.e2m1.value nibble
  | 5 => Fmt.bf16.value (byte (2 * k) + 256 * byte (2 * k + 1))
  | 6 => Fmt.f16.value (byte (2 * k) + 256 * byte (2 * k + 1))
  | 7 => (ElemFmt.int 8 true).value (byte k)
  | _ => (ElemFmt.int 4 true).value nibble

/-! ## Operands of TMMA -/

/-- An operand as TMMA reads it: exact values by row and k, the rows its bytes poison, and what reaches every row. -/
structure TileOperand where
  value : Nat → Nat → FVal
  rowPoison : Nat → Bool
  common : Bool
  ranges : List (Nat × Nat)
  /-- Poisoned scratchpad words it reads: row, address, origin. -/
  origins : List (Nat × Nat × Byte)

/-- R145: the v registers of a register-form operand. -/
def tileRegs (isA : Bool) (bytes : Nat) : Nat := if isA then bytes / 16 else 4 * bytes / 16

/-- R145: register, lane and byte that hold a byte of a row. -/
def tilePlace (isA : Bool) (v row b : Nat) : Nat × Nat × Nat :=
  if isA then (v + b / 16, 4 * row + b % 16 / 4, b % 4)
  else (v + 4 * (b / 16) + row / 16, 4 * (row % 16) + b % 16 / 4, b % 4)

/-- R145: a register-form operand. -/
def registerOperand (g : GroupRegs) (isA : Bool) (v f k : Nat) : TileOperand :=
  let n := tileRowBytes f k
  let byte := fun (row b : Nat) =>
    let p := tilePlace isA v row b
    bits ((g.v p.1).lane p.2.1) (8 * p.2.2 + 7) (8 * p.2.2)
  let bad := fun (row : Nat) => (List.range (n / 4)).any (fun i =>
    let p := tilePlace isA v row (4 * i)
    laneBit (g.v p.1).poison p.2.1)
  { value := fun row j => tileElement f (byte row) j, rowPoison := if isA then bad else fun _ => false,
    common := !isA && lanes64.any bad, ranges := [], origins := [] }

/-- R146: the fields of a descriptor. -/
structure TileDesc where
  base : Nat
  pitch : Nat
  scaleBase : Nat
  scalePitch : Nat
  rot : Nat
  reserved : Nat
  band : Nat

/-- R146: the descriptor in an even s register and its successor. -/
def tileDesc (g : GroupRegs) (code : Byte) : TileDesc :=
  let x := (g.s (code.toNat - 0x80)).value
  let y := (g.s (code.toNat - 0x80 + 1)).value
  { base := bits x 31 0, pitch := bits x 63 32, scaleBase := bits y 31 0, scalePitch := bits y 43 32, rot := bits y 45 44,
    reserved := bits y 47 46, band := bits y 63 48 }

/-- R146: the address of byte o of a row. -/
def TileDesc.address (d : TileDesc) (row o : Nat) : Nat :=
  d.base + row * d.pitch + (if d.rot = 0 then o else o ^^^ (row / 2 ^ (d.rot - 1) % 16 * 16))

/-- R147: elements of a scale's block, none without scales. -/
def scaleBlock (mode : Nat) : Option Nat := if mode = 1 then some 32 else if mode = 2 then some 8 else none

/-- R146, R147: the ranges that a scratchpad-form operand reads: chunks of rows, then scales. -/
def TileDesc.ranges (d : TileDesc) (rows bytes mode k : Nat) : List (Nat × Nat) :=
  (List.range rows).flatMap (fun r => (List.range (bytes / 16)).map (fun i => (d.address r (16 * i), 16))) ++
  (match scaleBlock mode with
   | some b => (List.range rows).map (fun r => (d.scaleBase + r * d.scalePitch, k / b))
   | none => [])

/-- R147: an element with its scale. -/
def scaledElement (mode : Nat) (e : FVal) (code band : Nat) : FVal :=
  match mode with
  | 1 => (mulVal e (e8m0Value code)).getD (.nan false)
  | 2 => (mulVal e (fb4Scale code (Fmt.bf16.value band))).getD (.nan false)
  | _ => e

/-- R146, R147: a scratchpad-form operand. -/
def scratchOperand (c : Ctx) (isA : Bool) (code : Byte) (f mode k : Nat) : TileOperand :=
  let d := tileDesc c.group.regs code
  let n := code.toNat - 0x80
  let rows := if isA then 16 else 64
  let bytes := tileRowBytes f k
  let byte := fun (row o : Nat) => ofBytes (c.scratchRow (d.address row o) 1)
  let blocks := match scaleBlock mode with | some b => k / b | none => 0
  let scale := fun (row j : Nat) => ofBytes (c.scratchRow (d.scaleBase + row * d.scalePitch + j) 1)
  let poisonedAt := fun (a n : Nat) => if c.scratchOrigin a n ≠ 0 then some (a, c.scratchOrigin a n) else none
  -- a row's bytes and its scales: of A they reach the row, of B every row (R149; of A's scales DEDUCED, log 66)
  let rowOrigins := fun (row : Nat) =>
    (List.range (bytes / 16)).filterMap (fun i => poisonedAt (d.address row (16 * i)) 16) ++
    (if blocks = 0 then [] else (poisonedAt (d.scaleBase + row * d.scalePitch) blocks).toList)
  { value := fun row j => scaledElement mode (tileElement f (byte row) j)
      (match scaleBlock mode with | some b => scale row (j / b) | none => 0) d.band
    rowPoison := fun r => isA && !(rowOrigins r).isEmpty
    common := (c.group.regs.s n).poison || (c.group.regs.s (n + 1)).poison ||
      (!isA && (List.range rows).any (fun r => !(rowOrigins r).isEmpty))
    ranges := d.ranges rows bytes mode k
    origins := (List.range rows).flatMap (fun r => (rowOrigins r).map (fun o => (if isA then r else 0, o.1, o.2))) }

/-- R144: an operand code of TMMA: a v register, or an even s register. -/
def tmmaCode (code : Byte) : Bool := isV code || (isS code && code.toNat % 2 == 0)

/-- R144, R145: an operand that is illegal for its form and scale mode. -/
def tmmaBad (budget : Nat) (isA : Bool) (code : Byte) (f mode k : Nat) : Bool :=
  !tmmaCode code ||
  (isV code && (mode != 0 || ((tileClass f).isSome && decide (budget < code.toNat + tileRegs isA (tileRowBytes f k)))))

/-- R145, R189: the v registers that the register-form operands of a TMMA read. -/
def tmmaReads (w : MainWord) : List Nat :=
  let k := (bits w.x 10 8 + 1) * tileGroup w.m.toNat
  let of := fun (isA : Bool) (code : Byte) (f : Nat) =>
    if isV code then (List.range (tileRegs isA (tileRowBytes f k))).map (fun i => code.toNat + i) else []
  of true w.a w.m.toNat ++ of false w.b (bits w.x 3 0)

/-- R144: a scale mode that its format does not admit. -/
def tmmaModeBad (f mode : Nat) : Bool :=
  mode == 3 || (mode == 1 && !decide (f < 5)) || (mode == 2 && f != 4)

/-- R146: a descriptor with a non-zero reserved field. -/
def descReserved (c : Ctx) (code : Byte) (mode : Nat) : Bool :=
  let d := tileDesc c.group.regs code
  isS code && (d.reserved != 0 || (mode != 2 && d.band != 0))

/-- R146, R147: misalignment in a descriptor, told at its base or scale base. -/
def descMisaligned (c : Ctx) (code : Byte) (f mode k : Nat) : Option TrapInfo :=
  let d := tileDesc c.group.regs code
  if !isS code then none
  else if d.base % 16 ≠ 0 ∨ d.pitch % 16 ≠ 0 ∨ d.pitch < tileRowBytes f k ∨ (d.rot ≠ 0 ∧ d.pitch % 256 ≠ 0) then
    c.tileFault 0x25 d.base
  else match scaleBlock mode with
    | some b => if d.scalePitch < k / b then c.tileFault 0x25 d.scaleBase else none
    | none => none

/-- The operand that a code names. -/
def tmmaOperand (c : Ctx) (isA : Bool) (code : Byte) (f mode k : Nat) : TileOperand :=
  if isV code then registerOperand c.group.regs isA code.toNat f k else scratchOperand c isA code f mode k

/-! ## Accumulation -/

/-- An integer has one zero. -/
def FVal.plusZero : FVal → FVal
  | .fin d => .fin (if d.mag = 0 then { d with neg := false } else d)
  | x => x

/-- R148, R276: the sum of one group's terms, exact integers in the integer class; any NaN, any 0 times infinity and infinities of both signs are invalid. -/
def groupSum (integer : Bool) (terms : List (FVal × FVal)) : FVal × Flags :=
  let x := sumVals (terms.map (fun t => (mulVal t.1 t.2).map (if integer then FVal.plusZero else id)))
  if x.1.isNan then (.nan false, flagNV) else (x.1, 0)

/-- R148, R276: one group added to the accumulator. -/
def addGroup (integer : Bool) (acc : FRes) (terms : List (FVal × FVal)) : FRes :=
  let x := groupSum integer terms
  let r := Fmt.f32.add .rne (Fmt.f32.value acc.code) x.1
  { code := r.code, flags := acc.flags ||| x.2 ||| r.flags }

/-- R148, R276: the matrix accumulation order over groups of G, in ascending order of k. -/
def accumulate (integer : Bool) (start : Nat) (g groups : Nat) (a b : Nat → FVal) : FRes :=
  (List.range groups).foldl (fun acc i =>
    addGroup integer acc ((List.range g).map (fun j => (a (i * g + j), b (i * g + j))))) { code := start, flags := 0 }

end Sys2Proof.Machine
end

