-- ==== Sys2Proof/Machine/Tile.lean ====
section
/-! DEFINITION. The tile instructions (R141 to R158). -/

namespace Sys2Proof.Machine

/-- R144 to R149: TMMA. -/
def execTmma (w : MainWord) (s : State) : Host.Outcome State Fault Refusal :=
  let fa := w.m.toNat
  let fb := bits w.x 3 0
  let sa := bits w.x 5 4
  let sb := bits w.x 7 6
  let kg := bits w.x 10 8 + 1
  let k := kg * tileGroup fa
  let budget := match s.issuer with | some (_, g, _, _) => g.regs.vregs.length | none => 0
  let bad := if tmmaBad budget true w.a fa sa k then some 1 else if tmmaBad budget false w.b fb sb k then some 2 else none
  let g : Sig := { op := 0x200, inS := false, d := tileUse, a := .code, b := .code, reads := tmmaReads w,
                   mOk := (tileClass fa).isSome, xMask := 0xFFF, operandsBad := bad
                   fieldsOk := decide (tileClass fa = tileClass fb) && !tmmaModeBad fa sa && !tmmaModeBad fb sb &&
                     !w.neg && w.pred == 0 }
  runMain s g w (fun s c =>
    let t := tileOf w.d
    let a := tmmaOperand c true w.a fa sa k
    let b := tmmaOperand c false w.b fb sb k
    let reserved := if descReserved c w.a sa || descReserved c w.b sb then some (c.whole 0x02 (mainBits 0x200 w) 1) else none
    match c.divergence with
    | some x => .trap x
    | none =>
      tileGate s c [reserved, descMisaligned c w.a fa sa k, descMisaligned c w.b fb sb k, c.outside (a.ranges ++ b.ranges)]
        (fun g1 =>
          match c.absentRange (a.ranges ++ b.ranges) with
          | some l => .wait s (.absentLine l)
          | none =>
            let clr := w.x.getLsbD 11
            let old := g1.regs.tile t
            let f := fun (r n : Nat) =>
              accumulate (tileClass fa == some .integer) (if clr then 0 else (old.at r n).toNat) (tileGroup fa) kg (a.value r) (b.value n)
            .done (putTile s c (c.rowEvent g1 t (a.origins ++ b.origins)) t f
              (fun r => (!clr && old.poison.getLsbD r) || a.rowPoison r || a.common || b.common))))

/-- R151: TZERO. -/
def execTzero (w : MainWord) (s : State) : Host.Outcome State Fault Refusal :=
  let g : Sig := { op := 0x201, inS := false, d := tileUse, mOk := w.m == 0 }
  runMain s g w (fun s c =>
    tileGate s c [] (fun g1 => .done (putTile s c g1 (tileOf w.d) (fun _ _ => plainWord 0) (fun _ => false))))

/-- R151, R152: the element bytes of a scratchpad format code. -/
def tileBytes (f : Nat) : Nat := if f = 0 then 4 else if f < 3 then 2 else 1

/-- R151, R152, R373: a uniform address and pitch, both multiples of 16; TVAL is the address. -/
def tileAligned (c : Ctx) (a pitch : Nat) : Option TrapInfo :=
  if a % 16 ≠ 0 ∨ pitch % 16 ≠ 0 then c.tileFault 0x25 a else none

/-- R151: TLD. -/
def execTld (w : MainWord) (s : State) : Host.Outcome State Fault Refusal :=
  let fmt := bits w.m 1 0
  let g : Sig := { op := 0x202, inS := false, d := tileUse, a := .src tN32 isUniform, b := .src tN32 isUniform,
                   mOk := decide (w.m.toNat < 3), imm := true }
  runMain s g w (fun s c =>
    let a := (g.opA c w).val 0
    let b := (g.opB c w).val 0
    let n := tileBytes fmt
    let ranges := tileRanges a.toNat b.toNat (64 * n)
    tileGate s c [tileAligned c a.toNat b.toNat, c.outside ranges] (fun g1 =>
      match c.absentRange ranges with
      | some l => .wait s (.absentLine l)
      | none =>
        let row := fun (r : Nat) => c.scratchRow (a.toNat + r * b.toNat) (64 * n)
        let table := rows16.map row
        let code := fun (r i : Nat) => ofBytes (((table.getD r []).drop (i * n)).take n)
        let src : Fmt := if fmt = 1 then .bf16 else .f16
        let f := fun (r i : Nat) =>
          if fmt = 0 then plainWord (BitVec.ofNat 32 (code r i))
          else { code := (convert (.float .f32) (.float src) .rne false (code r i)).code, flags := 0 }
        let origins := rows16.map (fun r => (r, a.toNat + r * b.toNat, c.scratchOrigin (a.toNat + r * b.toNat) (64 * n)))
        .done (putTile s c (c.rowEvent g1 (tileOf w.d) origins) (tileOf w.d) f
          (fun r => (g.opA c w).poison 0 || (g.opB c w).poison 0 || origins.any (fun o => o.1 == r && o.2.2 != 0)))))

/-- R152: the destination format of TDRN. -/
def drainFmt (x : Nat) : Fmt :=
  match x with
  | 0 => .f32
  | 1 => .bf16
  | 2 => .f16
  | 3 => .e4m3
  | _ => .e5m2

/-- R152: TDRN. DESIGN CHOICE (log 79): it parks on an absent scratchpad line as TLD does, and a poisoned guard, which R152 does not
list, poisons nothing that it stores. -/
def execTdrn (w : MainWord) (s : State) : Host.Outcome State Fault Refusal :=
  let x := bits w.x 2 0
  let g : Sig := { op := 0x203, inS := false, d := tileUse, a := .src tN32 isUniform, b := .src tN32 isUniform,
                   mOk := decide (w.m.toNat < 8), xMask := 0x007, fieldsOk := decide (x < 5) }
  runMain s g w (fun s c =>
    let a := g.opA c w
    let b := g.opB c w
    let fmt := drainFmt x
    let n := fmt.width / 8
    let base := (a.val 0).toNat
    let pitch := (b.val 0).toNat
    let ranges := tileRanges base pitch (64 * n)
    let t := tileOf w.d
    tileGate s c [tileAligned c base pitch, c.outside ranges] (fun g1 =>
      let tile := g1.regs.tile t
      let table := rows16.map (fun r => lanes64.map (fun i =>
        convert (.float fmt) (.float .f32) (Rnd.ofCode (bits w.m 1 0)) (w.m.getLsbD 2) (tile.at r i).toNat))
      let flags := unionFlags rows16 (fun r => (table.getD r []).foldl (fun f e => f ||| e.flags) 0)
      let enabled := flags &&& fpstEnables g1.regs.fpst
      if tile.poison ≠ 0 then .trap (c.whole 0x0C c.origin 0)
      else if enabled ≠ 0 then .trap (c.whole 0x0C (BitVec.ofNat 64 (floatOrigin enabled)) 0)
      else if a.poison 0 then .trap (c.whole 0x0C c.origin 1)
      else if b.poison 0 then .trap (c.whole 0x0C c.origin 2)
      else if c.awaitsCommit then .wait s .commit
      else
        match c.absentRange ranges with
        | some l => .wait s (.absentLine l)
        | none =>
          let put := fun (p : Scratchpad) => rows16.foldl (fun p r =>
            p.writeThrough c.team.pairs (base + r * pitch) ((table.getD r []).flatMap (fun e => toBytes n e.code))) p
          let s1 := c.put s { g1 with regs := { g1.regs with fpst := setFlags g1.regs.fpst flags } }
          .done (s1.modScratch c.tid c.group.coreIx put)))

/-- R153: the reductions of a list of element codes. -/
def tileReduce (op : Nat) (xs : List Nat) : FRes :=
  let vals := xs.map Fmt.f32.value
  match op with
  | 0 => dotRes (vals.headD (.fin { neg := false, mag := 0, exp := 0 })) (vals.tail.map some)
  | 3 =>
    if vals.any FVal.isNan then Fmt.f32.nanOf (vals.filter FVal.isNan)
    else xs.foldl (fun acc x => Fmt.f32.minMax true acc.code (x % 2 ^ 31)) { code := 0, flags := 0 }
  | _ =>
    xs.tail.foldl (fun acc x =>
      let r := Fmt.f32.minMax (op == 1) acc.code x
      { code := r.code, flags := acc.flags ||| r.flags }) { code := xs.headD 0, flags := 0 }

/-- R153: delivers a reduction of tile A to field D, lanes without a row or column receiving +0. -/
def deliverReduction (s : State) (c : Ctx) (w : MainWord) (count : Nat) (elems : Tile → Nat → List Nat)
    (poison : Tile → Nat → Bool) : Res :=
  tileGate s c [destShapeCheck c w.d 32 .general] (fun g1 =>
    let t := g1.regs.tile (tileOf w.a)
    let res := fun (l : Nat) => if l < count then tileReduce (bits w.m 1 0) (elems t l) else { code := 0, flags := 0 }
    let table := (maskLanes c.active).map (fun l => (l, res l))
    let at_ := fun (l : Nat) => ((table.find? (fun x => x.1 == l)).map (fun x => x.2)).getD { code := 0, flags := 0 }
    let x := raiseFlags g1 c.pos.pc (maskLanes c.active) (fun l => (at_ l).flags) w.d.toNat 0
    let rv : RVal := { shape := .general, val := fun l => BitVec.ofNat 64 (at_ l).code,
                       poison := fun l => (decide (l < count) && poison t l) || x.2 l }
    .done (c.put s (writeDest c x.1 false w.d 32 rv)))

/-- R142: the fields of TREDR, TREDC and TGET: a v register or zero as destination. -/
def tileDest : FieldUse := .dst 32 (fun x => isV x || x == 0xE0)

/-- R153: TREDR. -/
def execTredr (w : MainWord) (s : State) : Host.Outcome State Fault Refusal :=
  let g : Sig := { op := 0x204, inS := false, form := .perLane, d := tileDest, a := tileUse, mOk := decide (w.m.toNat < 4) }
  runMain s g w (fun s c =>
    deliverReduction s c w 16 (fun t r => lanes64.map (fun n => (t.at r n).toNat)) (fun t r => t.poison.getLsbD r))

/-- R153: TREDC. -/
def execTredc (w : MainWord) (s : State) : Host.Outcome State Fault Refusal :=
  let g : Sig := { op := 0x205, inS := false, form := .perLane, d := tileDest, a := tileUse, mOk := decide (w.m.toNat < 4) }
  runMain s g w (fun s c =>
    deliverReduction s c w 64 (fun t n => rows16.map (fun r => (t.at r n).toNat)) (fun t _ => decide (t.poison ≠ 0)))

/-- R154: the operations of TBCR and TBCC on a tile element and a vector element. -/
def tileCombine (op : Nat) (x : Word) (v : Nat) : FRes :=
  match op with
  | 0 => { code := v, flags := 0 }
  | 1 => Fmt.f32.add .rne (Fmt.f32.value x.toNat) (Fmt.f32.value v)
  | 2 => Fmt.f32.mul .rne (Fmt.f32.value x.toNat) (Fmt.f32.value v)
  | 3 => Fmt.f32.minMax true x.toNat v
  | _ => Fmt.f32.minMax false x.toNat v

/-- R142, R154: the fields of TBCR and TBCC. -/
def combineSig (op : BitVec 10) (w : MainWord) : Sig :=
  { op := op, inS := false, form := .perLane, d := tileUse, a := .s (.float .f32), mOk := decide (w.m.toNat < 5), imm := true }

/-- R154: TBCR. -/
def execTbcr (w : MainWord) (s : State) : Host.Outcome State Fault Refusal :=
  let g := combineSig 0x206 w
  runMain s g w (fun s c =>
    let read := readLane c (g.opA c w)
    tileGate s c [] (fun g1 =>
      let t := g1.regs.tile (tileOf w.d)
      let bad := lanes64.any (fun l => (read l).2)
      .done (putTile s c g1 (tileOf w.d) (fun r n => tileCombine w.m.toNat (t.at r n) (read n).1.toNat)
        (fun r => t.poison.getLsbD r || bad))))

/-- R154: TBCC. -/
def execTbcc (w : MainWord) (s : State) : Host.Outcome State Fault Refusal :=
  let g := combineSig 0x207 w
  runMain s g w (fun s c =>
    let read := readLane c (g.opA c w)
    tileGate s c [] (fun g1 =>
      let t := g1.regs.tile (tileOf w.d)
      .done (putTile s c g1 (tileOf w.d) (fun r n => tileCombine w.m.toNat (t.at r n) (read r).1.toNat)
        (fun r => t.poison.getLsbD r || (read r).2))))

/-- R155: TROT. -/
def execTrot (w : MainWord) (s : State) : Host.Outcome State Fault Refusal :=
  let g : Sig := { op := 0x208, inS := false, d := tileUse, a := tileUse, b := .src tN32 isUniform,
                   mOk := decide (w.m.toNat < 2), imm := true }
  runMain s g w (fun s c =>
    let b := g.opB c w
    let n := (b.val 0).toNat
    tileGate s c [] (fun g1 =>
      let u := g1.regs.tile (tileOf w.a)
      let col := w.m.getLsbD 0
      .done (putTile s c g1 (tileOf w.d)
        (fun r i => plainWord (if col then u.at r ((i + n) % 64) else u.at ((r + n) % 16) i))
        (fun r => b.poison 0 || (if col then u.poison.getLsbD r else u.poison.getLsbD ((r + n) % 16))))))

/-- R156: the operations of TEW. -/
def tileUnary (op : Nat) (x k : Nat) : FRes :=
  match op with
  | 0 => { code := x, flags := 0 }
  | 1 => { code := (x + 2 ^ 31) % 2 ^ 32, flags := 0 }
  | 2 => { code := x % 2 ^ 31, flags := 0 }
  | 3 => Fmt.f32.minMax true x 0
  | 4 => Fmt.f32.add .rne (Fmt.f32.value x) (Fmt.f32.value k)
  | 5 => Fmt.f32.mul .rne (Fmt.f32.value x) (Fmt.f32.value k)
  | 6 => Fmt.f32.minMax true x k
  | 7 => Fmt.f32.minMax false x k
  | 8 => specialF32 .exp2 x
  | 9 => specialF32 .tanh x
  | 10 => specialF32 .rcp x
  | _ => specialF32 .rsq x

/-- R156: TEW. -/
def execTew (w : MainWord) (s : State) : Host.Outcome State Fault Refusal :=
  let op := w.m.toNat
  let g : Sig := { op := 0x209, inS := false, d := tileUse, a := tileUse,
                   b := if 4 ≤ op ∧ op ≤ 7 then .src (.float .f32) isUniform else .unused,
                   mOk := decide (op < 12), imm := true }
  runMain s g w (fun s c =>
    let k := g.opB c w
    tileGate s c [] (fun g1 =>
      let u := g1.regs.tile (tileOf w.a)
      .done (putTile s c g1 (tileOf w.d) (fun r n => tileUnary op (u.at r n).toNat (k.val 0).toNat)
        (fun r => u.poison.getLsbD r || k.poison 0))))

/-- R157: TGET. -/
def execTget (w : MainWord) (s : State) : Host.Outcome State Fault Refusal :=
  let g : Sig := { op := 0x20A, inS := false, form := .perLane, d := tileDest, a := tileUse, b := .src tN32 isUniform,
                   mOk := w.m == 0, imm := true }
  runMain s g w (fun s c =>
    let b := g.opB c w
    let row := bits (b.val 0) 3 0
    tileGate s c [destShapeCheck c w.d 32 .general] (fun g1 =>
      let t := g1.regs.tile (tileOf w.a)
      let rv : RVal := { shape := .general, val := fun l => (t.at row l).setWidth 64,
                         poison := fun _ => t.poison.getLsbD row || b.poison 0 }
      .done (c.put s (writeDest c g1 false w.d 32 rv))))

/-- R157: TSET. -/
def execTset (w : MainWord) (s : State) : Host.Outcome State Fault Refusal :=
  let g : Sig := { op := 0x20B, inS := false, form := .perLane, d := tileUse, a := .s (.float .f32),
                   b := .src tN32 isUniform, mOk := w.m == 0, imm := true }
  runMain s g w (fun s c =>
    let a := g.opA c w
    let b := g.opB c w
    let row := bits (b.val 0) 3 0
    tileGate s c [] (fun g1 =>
      let n := tileOf w.d
      let t := g1.regs.tile n
      let bad := (maskLanes c.active).any (fun l => a.poison l || laneBit c.guardPoison l) || b.poison 0 ||
        (decide (c.active ≠ BitVec.allOnes 64) && t.poison.getLsbD row)
      let elem := fun (r i : Nat) => if r = row ∧ laneBit c.active i then loWord (a.val i) else t.at r i
      let tile := Tile.of elem (fun r => if r = row then bad else t.poison.getLsbD r)
      .done (c.put s { g1 with regs := g1.regs.setTile n tile })))

end Sys2Proof.Machine
end

