-- ==== Sys2Proof/Machine/Context.lean ====
section
/-! DEFINITION. Context images: SAVEV and RESTV (R186, R187), the end of a group's residence (R251), and mail that reaches
a saved context (R187). -/

namespace Sys2Proof.Machine

/-! ## Image layout -/

/-- Zero bytes. -/
def zeros (n : Nat) : List Byte := List.replicate n 0

/-- R186: the header of an image. -/
def imageHeader (kind count bytes budget : Nat) (regmap : List Byte) : List Byte :=
  toBytes 2 1 ++ [BitVec.ofNat 8 kind, BitVec.ofNat 8 count] ++ toBytes 4 bytes ++ toBytes 4 budget ++ zeros 4 ++
  (List.range 32).map (fun i => regmap.getD i 0) ++ zeros 16

/-- R186: the record of a register. -/
def regRecord (r : VReg) : List Byte :=
  match r.store with
  | .uniform v => bytesOfWord v ++ zeros 4 ++ bytesOfDword r.poison
  | .affine b t => bytesOfWord b ++ bytesOfWord t ++ bytesOfDword r.poison
  | .general ws => ((List.range 64).flatMap (fun i => bytesOfWord (ws.getD i 0))) ++ bytesOfDword r.poison ++ zeros 8

/-- R186: the size of the record of a register of a shape. -/
def recordSize : Shape → Nat
  | .general => 272
  | _ => 16

/-- R186: where the record of register n stands in a .vregs image of registers of these shapes. -/
def recordOffset (shapes : List Shape) (n : Nat) : Nat := ((shapes.take n).map recordSize).foldl (· + ·) 64

/-- The declared shapes of a group's registers. -/
def GroupRegs.shapes (g : GroupRegs) : List Shape := g.vregs.map VReg.shape

/-- R186: the .vregs image of a group. -/
def vregsImage (t : Team) (g : Group) : List Byte :=
  let body := g.regs.vregs.flatMap regRecord
  imageHeader 0 g.regs.vregs.length (64 + body.length) g.regs.vregs.length t.desc.regmapRaw ++ body

/-- A mask of numbered flags as bytes. -/
def flagBytes (n : Nat) (f : Nat → Bool) : List Byte :=
  (List.range n).map (fun i => BitVec.ofNat 8 ((List.range 8).foldl (fun acc j => acc + if f (8 * i + j) then 2 ^ j else 0) 0))

/-- R186: the .sregs image. -/
def sregsImage (g : Group) : List Byte :=
  imageHeader 1 0 896 g.regs.vregs.length [] ++ ((List.range 96).flatMap (fun n => bytesOfDword (g.regs.s n).value)) ++
  flagBytes 16 (fun n => decide (n < 96) && (g.regs.s n).poison) ++ zeros 48

/-- R186: the .tiles image. -/
def tilesImage (g : Group) : List Byte :=
  match g.regs.tiles with
  | none => imageHeader 2 0 64 g.regs.vregs.length []
  | some ts =>
    imageHeader 2 1 32896 g.regs.vregs.length [] ++
    ((List.range 8).flatMap (fun t => rows16.flatMap (fun r => lanes64.flatMap (fun c => bytesOfWord ((ts.getD t Tile.zero).at r c))))) ++
    flagBytes 16 (fun n => (ts.getD (n / 16) Tile.zero).poison.getLsbD (n % 16)) ++ zeros 48

/-- R365: the lane records of a group: the aside records. -/
def Group.record (g : Group) (lane : Nat) : LanePos := g.aside.getD lane (g.regs.at lane)

/-- R186: a mailbox entry. -/
def mailboxEntry (m : Mailbox) : List Byte :=
  toBytes 4 (m.reg % 256 + (if m.armed then 256 else 0) + (if m.delivered then 512 else 0) + 1024 * (m.scope % 8) +
    65536 * m.key.toNat) ++ zeros 4

/-- R186, R187: the mailboxes that a .state image lists, in its eight entries: every armed one, of which there are no more (R189), then
those whose mail waits to be read. -/
def Group.imageBoxes (g : Group) : List Mailbox :=
  (g.mailboxes.filter (fun m => m.armed) ++ g.mailboxes.filter (fun m => !m.armed && m.delivered)).take 8

/-- R186: the .state image, with the vector image address. -/
def stateImage (g : Group) (b : Dword) : List Byte :=
  let lane := fun (l : Nat) =>
    let p := g.record l
    bytesOfDword p.pc ++ [p.pri, p.depth, if laneBit g.regs.live l then 1 else 0] ++ zeros 5
  imageHeader 3 0 0x540 g.regs.vregs.length [] ++ lanes64.flatMap lane ++
  ((List.range 7).flatMap (fun n => bytesOfDword (g.regs.p (n + 1)))) ++
  ((List.range 7).flatMap (fun n => bytesOfDword (g.regs.pPoison (n + 1)))) ++
  bytesOfDword g.regs.fpst ++ bytesOfDword (porigWord g.regs.porig) ++ bytesOfDword g.regs.porig.pc ++
  bytesOfDword g.regs.porig.address ++ toBytes 8 g.regs.porig.count.toNat ++ bytesOfDword b ++
  bytesOfDword (g.name.getD 0) ++
  ((List.range 8).flatMap (fun i => match g.imageBoxes[i]? with
    | some m => mailboxEntry m
    | none => zeros 8)) ++ zeros 24

/-! ## Access to images -/

/-- R186, R109: the check of an image's range. -/
def Ctx.imageFault (c : Ctx) (s : State) (a : Dword) (n : Nat) (k : AccessKind) : Option TrapInfo :=
  match translateRange s c.space a n k with
  | .error (f, va) => some (c.active_ f.cause (f.val.getD va) f.val2)
  | .ok _ =>
    match (linePieces a.toNat n).find? (fun p => (s.queueRegister (keyOf s c.space (a + BitVec.ofNat 64 p.1) k)).isSome) with
    | some p => some (c.active_ 0x25 (a + BitVec.ofNat 64 p.1) 0)
    | none => none

/-- R186: an image that is not 64-byte aligned. -/
def Ctx.imageMisaligned (c : Ctx) (a : Dword) : Option TrapInfo :=
  if a.toNat % 64 ≠ 0 then some (c.active_ 0x25 a 0) else none

/-- The parts of a range that lie in one line each and translate: address, translation, offset and length. -/
def State.imageParts (s : State) (c : Ctx) (k : AccessKind) (a : Dword) (n : Nat) : List (Dword × Xlat × Nat × Nat) :=
  (linePieces a.toNat n).filterMap (fun p =>
    let va := a + BitVec.ofNat 64 p.1
    match translate s c.space va k with
    | .bad _ => none
    | .ok x => some (va, x, p.1, p.2))

/-- R186: images are written by relaxed stores of the group; none when they must wait for room in a persist buffer (R351), also those
that a device policy performs at once. -/
def State.writeImages (s : State) (c : Ctx) (images : List (Dword × List Byte)) : Option State :=
  let parts := images.flatMap (fun i => (s.imageParts c .write i.1 i.2.length).map (fun q => (q.1, q.2.1, (i.2.drop q.2.2.1).take q.2.2.2)))
  let keys := fun (ps : List (Dword × Xlat × List Byte)) =>
    (ps.filter (fun q => q.2.1.dur)).flatMap (fun q => (List.range q.2.2.length).map (fun j => q.2.1.key + j))
  let direct := parts.filter (fun q => q.2.1.pol == 0)
  let ready := if direct = [] then some s else
    let s1 := s.drainCore c.unit
    if (s1.core c.unit).combining.isEmpty && s1.roomForKeys (keys direct) then some s1 else none
  (ready.bind (fun s1 => s1.pathFor c.unit c.tid c.gid ((parts.map (fun q => lineOfKey q.2.1.key)).eraseDups) (keys parts))).map (fun s1 =>
    parts.foldl (fun s q =>
      let s2 := (s.touch c.space q.1 .write q.2.1).countMigration c.hub c.team.asn q.1 q.2.1
      s2.groupStore c.tid c.gid c.group.coreIx c.unit (lineOfKey q.2.1.key) (cellsFrom q.2.1.key q.2.2)
        { policy := q.2.1.pol, mode := q.2.1.mode, durable := q.2.1.dur
          made := { source := .store, va := q.1 - BitVec.ofNat 64 (q.2.1.key % 128), kernel := c.space.kernel } }) s1)

/-- R186: an image is read by relaxed loads of the group: its bytes, and the origin of the poison of each line's part. -/
def State.readImage (s : State) (c : Ctx) (a : Dword) (n : Nat) : State × List Byte × List (Nat × Nat × Byte) :=
  (s.imageParts c .read a n).foldl (fun (acc : State × List Byte × List (Nat × Nat × Byte)) q =>
    let x := q.2.1
    let p := q.2.2
    let s1 := (acc.1.touch c.space q.1 .read x).countMigration c.hub c.team.asn q.1 x
    let r := s1.groupLoad c.tid c.gid c.group.coreIx c.unit x.key p.2
      { policy := x.pol, hint := 0, mode := x.mode, durable := x.dur, acquire := false, atHome := false }
    let words := (List.range (p.2 / 4)).filterMap (fun i =>
      let o := (s1.localError c.hub (lineOfKey x.key)).getD (s1.readOrigin c.team c.hub (x.key + 4 * i) 4)
      if o = 0 then none else some (p.1 + 4 * i, 4, o))
    (r.1, acc.2.1 ++ r.2, acc.2.2 ++ words)) (s, [], [])

/-- Whether a range of an image was read poisoned. -/
def poisonedIn (bad : List (Nat × Nat × Byte)) (a n : Nat) : Bool :=
  bad.any (fun b => decide (b.1 < a + n) && decide (a < b.1 + b.2.1))

/-- A little-endian field of an image. -/
def imageField (bs : List Byte) (offset size : Nat) : Nat := ofBytes ((bs.drop offset).take size)

/-! ## SAVEV -/

/-- The image of a kind other than .state. -/
def plainImage (t : Team) (g : Group) (kind : Nat) : List Byte :=
  match kind with
  | 0 => vregsImage t g
  | 1 => sregsImage g
  | _ => tilesImage g

/-- R187: what a saved kind changes in the group: .vregs starts the count of armed registers anew, .tiles frees the set. -/
def Group.savedKind (g : Group) (kind : Nat) : Group :=
  match kind with
  | 0 => { g with armedSince := (g.mailboxes.filter (fun m => m.armed)).map (fun m => m.reg) }
  | 2 => { g with regs := { g.regs with tiles := none } }
  | _ => g

/-- R186: SAVEV.vregs, .sregs and .tiles. -/
def execSavev (w : MainWord) (s : State) : Host.Outcome State Fault Refusal :=
  let g : Sig := { op := 0x38A, inS := false, privileged := true, a := uniformAddress, mOk := decide (w.m.toNat < 3) }
  runMain s g w (fun s c =>
    if c.active = 0 then .done s
    else
      let a := (g.opA c w).val (lowestLane c.active)
      let image := plainImage c.team c.group w.m.toNat
      match c.imageMisaligned a with
      | some t => .trap t
      | none => match c.imageFault s a image.length .write with
        | some t => .trap t
        | none => match s.writeImages c [(a, image)] with
          | none => .wait (s.drainCore c.unit) (.completes false)
          | some s1 => .done (s1.modGroup c.tid c.gid (fun x => x.savedKind w.m.toNat)))

/-- R187: from its completion the directory delivers mail for the group into the images. -/
def State.redirectMail (s : State) (c : Ctx) (a b : Dword) : State :=
  let bind := fun (h : Hub) => { h with
    names := updateWhere (fun n => n.team == c.tid && n.gid == c.gid && !n.ended) (fun n => { n with redirected := true }) h.names }
  ((s.modHub .h0 bind).modHub .h1 bind).modGroup c.tid c.gid (fun g => { g with savedState := a, savedVregs := b, savedBoxes := g.imageBoxes })

/-- R187: the records of every register armed since SAVEV.vregs are written again. -/
def armedRecords (g : Group) : List (Nat × List Byte) :=
  g.armedSince.filterMap (fun n => (g.regs.vregs[n]?).map (fun r => (recordOffset g.regs.shapes n, regRecord r)))

/-- R186, R187: SAVEV.state waits for the group's copies and acknowledgements. -/
def execSavevState (w : MainWord) (s : State) : Host.Outcome State Fault Refusal :=
  let g : Sig := { op := 0x38A, inS := false, privileged := true, a := uniformAddress, b := uniformAddress, mOk := w.m == 3 }
  runMain s g w (fun s c =>
    if c.active = 0 then .done s
    else
      let l := lowestLane c.active
      let a := (g.opA c w).val l
      let b := (g.opB c w).val l
      let records := armedRecords c.group
      let faults := (c.imageMisaligned a) :: (if records = [] then none else c.imageMisaligned b) ::
        c.imageFault s a 0x540 .write :: records.map (fun r => c.imageFault s (b + BitVec.ofNat 64 r.1) r.2.length .write)
      if c.team.copies.any (fun x => x.gid == c.gid) || s.mails.any (fun m => m.team == c.tid && m.gid == c.gid) then
        .wait s (.completes false)
      else match faults.findSome? id with
        | some t => .trap t
        | none => match s.writeImages c ((a, stateImage c.group b) :: records.map (fun r => (b + BitVec.ofNat 64 r.1, r.2))) with
          | none => .wait (s.drainCore c.unit) (.completes false)
          | some s2 =>
            let s3 := (s2.redirectMail c a b).advance c (fallThrough c w) 0 none
            .gone (if c.group.handling.isSome then s3.endResidence c.tid c.gid else s3))

/-! ## RESTV -/

/-- R187: context image mismatch at a header. -/
def Ctx.mismatch (c : Ctx) (a : Dword) (code : Nat) : TrapInfo := c.whole 0x13 a (BitVec.ofNat 64 code)

/-- R186: the size that a header's kind, count and regmap give, for the shapes of the restoring group. -/
def imageSize (kind count : Nat) (shapes : List Shape) : Nat :=
  match kind with
  | 0 => recordOffset shapes count
  | 1 => 896
  | 2 => if count = 0 then 64 else 32896
  | _ => 0x540

/-- R186, R187: the checks of a header of a kind. -/
def Ctx.headerBad (c : Ctx) (a : Dword) (kind : Nat) (h : List Byte) : Option TrapInfo :=
  let count := imageField h 3 1
  let shapes := c.team.desc.regmap
  if imageField h 0 2 ≠ 1 ∨ imageField h 2 1 ≠ kind then some (c.mismatch a 1)
  else if kind = 0 ∧ (h.drop 0x10).take 32 ≠ (List.range 32).map (fun i => c.team.desc.regmapRaw.getD i 0) then some (c.mismatch a 2)
  else if kind = 0 ∧ c.group.regs.vregs.length < count then some (c.mismatch a 3)
  else if imageField h 4 4 ≠ imageSize kind count shapes then some (c.mismatch a 1)
  else none

/-- R186: reads a header and checks it: the fault, or the header's bytes. -/
def State.readHeader (s : State) (c : Ctx) (a : Dword) (kind : Nat) : Except TrapInfo (State × List Byte) :=
  match c.imageFault s a 64 .read with
  | some t => .error t
  | none =>
    let r := s.readImage c a 64
    match c.headerBad a kind r.2.1 with
    | some t => .error t
    | none => .ok (r.1, r.2.1)

/-- R186: the three steps of a RESTV: the image's bytes and its poisoned parts. -/
def State.openImage (s : State) (c : Ctx) (a : Dword) (kind : Nat) :
    Except TrapInfo (State × List Byte × List (Nat × Nat × Byte)) :=
  match c.imageMisaligned a with
  | some t => .error t
  | none => match s.readHeader c a kind with
    | .error t => .error t
    | .ok (s1, h) =>
      let n := imageField h 4 4
      match c.imageFault s1 a n .read with
      | some t => .error t
      | none => .ok (s1.readImage c a n)

/-- R186: a register read from its record. DESIGN CHOICE (log 82): a record that was read poisoned leaves every lane poisoned. -/
def recordReg (shape : Shape) (bs : List Byte) (at_ : Nat) (bad : List (Nat × Nat × Byte)) : VReg :=
  let word := fun (o : Nat) => BitVec.ofNat 32 (imageField bs (at_ + o) 4)
  let mask := fun (o : Nat) => BitVec.ofNat 64 (imageField bs (at_ + o) 8)
  let poison := fun (m : Dword) => if poisonedIn bad at_ (recordSize shape) then BitVec.allOnes 64 else m
  match shape with
  | .uniform => { store := .uniform (word 0), poison := poison (mask 8) }
  | .affine => { store := .affine (word 0) (word 4), poison := poison (mask 8) }
  | .general => { store := .general (lanes64.map (fun i => word (4 * i))), poison := poison (mask 256) }

/-- R187: RESTV.vregs. -/
def GroupRegs.restoreVregs (g : GroupRegs) (shapes : List Shape) (bs : List Byte) (bad : List (Nat × Nat × Byte)) : GroupRegs :=
  (List.range (imageField bs 3 1)).foldl (fun g n =>
    g.setV n (recordReg (shapes.getD n .general) bs (recordOffset shapes n) bad)) g

/-- R187: RESTV.sregs. -/
def GroupRegs.restoreSregs (g : GroupRegs) (bs : List Byte) (bad : List (Nat × Nat × Byte)) : GroupRegs :=
  (List.range 96).foldl (fun g n =>
    g.setS n (BitVec.ofNat 64 (imageField bs (0x40 + 8 * n) 8))
      (imageField bs (0x340 + n / 8) 1 / 2 ^ (n % 8) % 2 == 1 || poisonedIn bad (0x40 + 8 * n) 8)) g

/-- R187: RESTV.tiles. -/
def GroupRegs.restoreTiles (g : GroupRegs) (bs : List Byte) (bad : List (Nat × Nat × Byte)) : GroupRegs :=
  if imageField bs 3 1 = 0 then { g with tiles := none }
  else
    let row := fun (t r : Nat) => lanes64.map (fun c => BitVec.ofNat 32 (imageField bs (0x40 + 4 * (1024 * t + 64 * r + c)) 4))
    let poison := fun (t r : Nat) => imageField bs (0x8040 + (16 * t + r) / 8) 1 / 2 ^ (r % 8) % 2 == 1 ||
      poisonedIn bad (0x40 + 4 * (1024 * t + 64 * r)) 256
    { g with tiles := some ((List.range 8).map (fun t =>
        { rows := rows16.map (row t), poison := rows16.foldl (fun m r => if poison t r then m ||| BitVec.twoPow 16 r else m) 0 })) }

/-- The first word of a range of an image that was read poisoned, with its origin. -/
def firstBad (bad : List (Nat × Nat × Byte)) (a n : Nat) : Option (Nat × Byte) :=
  (bad.find? (fun b => decide (b.1 < a + n) && decide (a < b.1 + b.2.1))).map (fun b => (b.1, b.2.2))

/-- R395: what a RESTV of a kind, whose loads read poison, tells of the lowest register that it poisons: its number, the lane or row, the
offset in the image, and the origin. -/
def restoreEvent (kind : Nat) (shapes : List Shape) (bs : List Byte) (bad : List (Nat × Nat × Byte)) : Option (Nat × Nat × Nat × Byte) :=
  match kind with
  | 0 => (List.range (imageField bs 3 1)).findSome? (fun n =>
      (firstBad bad (recordOffset shapes n) (recordSize (shapes.getD n .general))).map (fun f => (n, 0, f.1, f.2)))
  | 1 => (List.range 96).findSome? (fun n => (firstBad bad (0x40 + 8 * n) 8).map (fun f => (0x80 + n, 0, f.1, f.2)))
  | _ => if imageField bs 3 1 = 0 then none
      else (List.range 128).findSome? (fun i => (firstBad bad (0x40 + 256 * i) 256).map (fun f => (i / 16, i % 16, f.1, f.2)))

/-- R395: a group after such an event, of an image at an address. -/
def Group.restored (g : Group) (pc a : Dword) (e : Option (Nat × Nat × Nat × Byte)) : Group :=
  match e with
  | none => g
  | some (reg, lane, off, origin) => g.event origin.toNat reg lane 3 pc (a + BitVec.ofNat 64 off)

/-- R186: RESTV.vregs, .sregs and .tiles. A bound image needs a tile set (R141). -/
def execRestv (w : MainWord) (s : State) : Host.Outcome State Fault Refusal :=
  let g : Sig := { op := 0x38B, inS := false, privileged := true, a := uniformAddress, mOk := decide (w.m.toNat < 3) }
  runMain s g w (fun s c =>
    if c.active = 0 then .done s
    else
      let a := (g.opA c w).val (lowestLane c.active)
      match s.openImage c a w.m.toNat with
      | .error t => .trap t
      | .ok (s1, bs, bad) =>
        let event := restoreEvent w.m.toNat c.team.desc.regmap bs bad
        let put := fun (f : GroupRegs → GroupRegs) =>
          Res.done (s1.modGroup c.tid c.gid (fun x => { x with regs := f x.regs }.restored c.pos.pc a event))
        match w.m.toNat with
        | 0 => put (fun r => r.restoreVregs c.team.desc.regmap bs bad)
        | 1 => put (fun r => r.restoreSregs bs bad)
        | _ =>
          if imageField bs 3 1 ≠ 0 ∧ c.group.regs.tiles.isNone ∧ s.noTileSet c then .wait s .tileSet
          else put (fun r => r.restoreTiles bs bad))

/-- R186: a mailbox entry of a .state image; one that is neither armed nor delivered is none. -/
def entryMailbox (bs : List Byte) (i : Nat) : Option Mailbox :=
  let v := imageField bs (0x4E8 + 8 * i) 4
  let armed := v / 256 % 2 == 1
  let delivered := v / 512 % 2 == 1
  if armed || delivered then
    some { reg := v % 256, key := BitVec.ofNat 16 (v / 65536), scope := v / 1024 % 8, armed := armed && !delivered,
           delivered := delivered, senderClock := 0, senderInScope := true }
  else none

/-- R187, R326: a delivered mailbox of an image comes with the clock of its sender, which the hub has kept (log 82). -/
def Group.imageMailbox (g : Group) (bs : List Byte) (i : Nat) : Option Mailbox :=
  (entryMailbox bs i).map (fun m => match g.savedBoxes.find? (fun x => m.delivered && x.delivered && x.reg == m.reg) with
    | some x => { m with senderClock := x.senderClock, senderInScope := x.senderInScope }
    | none => m)

/-- R186, R187: what a .state image gives a group. -/
def Group.restoreState (g : Group) (bs : List Byte) : Group :=
  let dwordAt := fun (o : Nat) => BitVec.ofNat 64 (imageField bs o 8)
  let lane := fun (l : Nat) =>
    { pos := { pc := dwordAt (0x40 + 16 * l), pri := BitVec.ofNat 8 (imageField bs (0x48 + 16 * l) 1),
               depth := BitVec.ofNat 8 (imageField bs (0x49 + 16 * l) 1) }
      live := imageField bs (0x4A + 16 * l) 1 % 2 == 1 : StagedLane }
  let record := setPorig { g.regs.porig with pc := dwordAt 0x4C0, address := dwordAt 0x4C8, count := loWord (dwordAt 0x4D0) } (dwordAt 0x4B8)
  let name := dwordAt 0x4E0
  let regs := { g.regs with
    preds := (List.range 7).map (fun n => dwordAt (0x440 + 8 * n))
    predPoison := (List.range 7).map (fun n => dwordAt (0x478 + 8 * n))
    fpst := dwordAt 0x4B0 &&& fpstWritable, porig := record }
  { g with
    regs := regs, name := if name = 0 then none else some name, mailboxes := (List.range 8).filterMap (g.imageMailbox bs),
    staged := some (lanes64.map lane), trap := { g.trap with rstg := true } }

/-- R187: the name is bound to the restoring group, and redirection ends. -/
def State.rebindName (s : State) (tid gid : Nat) (name : Dword) : State :=
  let bind := fun (h : Hub) => { h with
    names := updateWhere (fun n => decide (n.name = name) && !n.ended)
      (fun n => { n with team := tid, gid := gid, redirected := false }) h.names }
  if name = 0 then s else (s.modHub .h0 bind).modHub .h1 bind

/-- R187: the registers whose entries are delivered are reloaded from the .vregs image at an address. -/
def State.reloadMail (s : State) (c : Ctx) (b : Dword) (regs : List Nat) : State :=
  regs.foldl (fun s n =>
    let shapes := c.team.desc.regmap
    let r := s.readImage c (b + BitVec.ofNat 64 (recordOffset shapes n)) (recordSize (shapes.getD n .general))
    r.1.modGroup c.tid c.gid (fun x => { x with regs := x.regs.setV n (recordReg (shapes.getD n .general) r.2.1 0 r.2.2) })) s

/-- R395: what that tells of the lowest of those registers whose record was read poisoned: its number, its place from the image's address,
and the origin. -/
def State.reloadEvent (s : State) (c : Ctx) (b : Dword) (regs : List Nat) : Option (Nat × Nat × Nat × Byte) :=
  let shapes := c.team.desc.regmap
  ((List.range 128).filter regs.contains).findSome? (fun n =>
    let at_ := recordOffset shapes n
    let size := recordSize (shapes.getD n .general)
    (firstBad (s.readImage c (b + BitVec.ofNat 64 at_) size).2.2 0 size).map (fun f => (n, 0, at_ + f.1, f.2)))

/-- R187: RESTV.state. -/
def execRestvState (w : MainWord) (s : State) : Host.Outcome State Fault Refusal :=
  let g : Sig := { op := 0x38B, inS := false, privileged := true, a := uniformAddress, mOk := w.m == 3 }
  runMain s g w (fun s c =>
    if c.active = 0 then .done s
    else match s.openImage c ((g.opA c w).val (lowestLane c.active)) 3 with
      | .error t => .trap t
      | .ok (s1, bs, _) =>
        let b := BitVec.ofNat 64 (imageField bs 0x4D8 8)
        match s1.readHeader c b 0 with
        | .error t => .trap t
        | .ok (s2, _) =>
          let delivered := ((List.range 8).filterMap (entryMailbox bs)).filterMap (fun m => if m.delivered then some m.reg else none)
          let shapes := c.team.desc.regmap
          match delivered.findSome? (fun n =>
              c.imageFault s2 (b + BitVec.ofNat 64 (recordOffset shapes n)) (recordSize (shapes.getD n .general)) .read) with
          | some t => .trap t
          | none =>
            let s3 := s2.rebindName c.tid c.gid (BitVec.ofNat 64 (imageField bs 0x4E0 8))
            .done ((s3.reloadMail c b delivered).modGroup c.tid c.gid (fun x =>
              (x.restoreState bs).restored c.pos.pc b (s3.reloadEvent c b delivered))))

end Sys2Proof.Machine
end

