-- ==== Sys2Proof/Machine/Fetch.lean ====
section
/-! DEFINITION. Fetch: code lines and the marks of their words (R19, R20, R264), the instruction caches (R450), the
fetch of a group's issuing entry with its faults (R64, R371), and the fetch of an engine word (R26). -/

namespace Sys2Proof.Machine

/-- The mark of a word of a code line (R20); upper and literal words tell the word where their instruction starts. -/
inductive Mark where
  | start
  | upper (owner : Nat)
  | literal (owner : Nat)
  | pad
  | badLength
  | unmarked
deriving DecidableEq, Repr

/-- R20: the marks of the words from word i of a line on; fuel bounds the words. -/
def marksFrom : Nat → Nat → List Word → List Mark
  | 0, _, _ => []
  | _, _, [] => []
  | n + 1, i, w :: ws =>
    if w = BitVec.allOnes 32 then .pad :: marksFrom n (i + 1) ws
    else if bits w 1 0 = 3 ∨ 16 < i + 2 + bits w 1 0 then .badLength :: ws.map (fun _ => .unmarked)
    else
      let k := bits w 1 0
      (.start :: .upper i :: List.replicate k (.literal i)) ++ marksFrom n (i + 2 + k) (ws.drop (1 + k))

/-- R20: the marks of a line of 16 words. -/
def lineMarks (ws : List Word) : List Mark := marksFrom 16 0 ws

/-- R264: TVAL of branch into literal. -/
def Mark.code : Mark → Nat
  | .upper _ => 1
  | .literal _ => 2
  | .pad => 3
  | _ => 4

/-- R264: TVAL2 of branch into literal. -/
def Mark.owner (line pc : Dword) : Mark → Dword
  | .upper i => line + BitVec.ofNat 64 (4 * i)
  | .literal i => line + BitVec.ofNat 64 (4 * i)
  | _ => pc

/-- The 16 words of 64 bytes, each little-endian. -/
def wordsOf : List Byte → List Word
  | b0 :: b1 :: b2 :: b3 :: bs => wordOfBytes b0 b1 b2 b3 :: wordsOf bs
  | _ => []

/-- The address of the code line of a PC (R19). -/
def lineOf (pc : Dword) : Dword := pc &&& ~~~63

/-- R450: a line of an instruction cache for an address space at an address. -/
def Core.codeLine (c : Core) (asn : Half) (va : Dword) : Option CodeLine :=
  c.icache.find? (fun l => l.asn == asn && l.va == va)

/-- R135, R437: the error with which a hub's read of a code line failed: its home could not be reached (log 83). -/
def State.fetchFailed (s : State) (h : HubId) (line : Nat) : Option Byte :=
  let home := keyHome (line * 128)
  if localHome home then s.linkError h line
  else ((s.answerFor h line (.read true)).or (s.answerFor h line (.read false))).bind (fun a =>
    if a.failed = 0 then none else some a.failed)

/-- R20, R342, R348, R450: fills a code line, which is a request of the core's hub. -/
def State.fillLine (s : State) (u : CoreUnit) (asn : Half) (va : Dword) (x : Xlat) : State :=
  let h := unitHub u
  let r := (s.countMigration h asn va x).readBeyond h x.mode x.pol (lineOfKey x.key)
  let line := { asn := asn, va := va, words := wordsOf ((r.2.1.drop (x.key % 128 / 64 * 64)).take 64) : CodeLine }
  if (s.fetchFailed h (lineOfKey x.key)).isSome then r.1 else
  r.1.modCore u (fun c => { c with icache := line :: c.icache.filter (fun l => !(l.asn == asn && l.va == va)) })

/-- The address space of a group's fetches. -/
def fetchSpace (t : Team) (g : Group) (u : CoreUnit) : Space :=
  { asn := t.asn, ptroot := t.ptroot, hub := t.hub, tenant := t.tenant, kernel := g.kernel, masterHub := unitHub u,
    pos := unitChiplet u, tlb := some u }

/-- R117: a group goes on knowing the code lines it has fetched until its IFENCE discards them. -/
def Group.fetchedLine (g : Group) (l : CodeLine) : Group :=
  { g with fetched := l :: g.fetched.filter (fun x => !(x.asn == l.asn && x.va == l.va)) }

/-- R117, R450: the code line a fetch uses: one that the group fetched before, as it was then (free, log 13), else the cache's, else
one filled now. -/
def State.codeAt (s : State) (t : Team) (g : Group) (u : CoreUnit) (va : Dword) (x : Xlat) : State × List Word :=
  match g.fetched.find? (fun l => l.asn == t.asn && l.va == va && Config.freePrefetched s.tick) with
  | some l => (s, l.words)
  | none =>
    match (s.core u).codeLine t.asn va with
    | some l => if Config.freeReplaced s.tick va.toNat then fill else known s l.words
    | none => fill
where
  known (s : State) (ws : List Word) : State × List Word :=
    (s.modGroup t.id g.gid (fun y => y.fetchedLine { asn := t.asn, va := va, words := ws }), ws)
  fill : State × List Word :=
    let s1 := s.fillLine u t.asn va x
    known s1 ((((s1.core u).codeLine t.asn va).map (fun l => l.words)).getD [])

/-- What a fetch answers. -/
inductive Fetched where
  /-- The entry's instruction decodes. -/
  | instr (s : State) (i : Instr)
  /-- A trap was taken, or the entry moved over a pad word: nothing issues. -/
  | taken (s : State)
  /-- The group that was to issue is not there. -/
  | missing

/-- The bytes of a line from a word on. -/
def bytesFrom (ws : List Word) (i : Nat) : List Byte := (ws.drop i).flatMap bytesOfWord

/-- The fields of the main word at a word of a line, with its literal words (R10). -/
def mainFields (ws : List Word) (i : Nat) : MainWord :=
  let x := joinWords (ws.getD i 0) (ws.getD (i + 1) 0)
  fieldsOf x ((litsOf (bits x 1 0) (bytesFrom ws (i + 2))).getD .none)

/-- R204: the ageing records after the lanes of one entry move to another without an issue: the record goes with them, and
of two that meet the largest counter and the earliest queue place stay. -/
def carryAge (ages : List EntryAge) (kernel : Bool) (src dst : LanePos) : List EntryAge :=
  let own := fun (p : LanePos) => ages.find? (fun a => decide (a.entry = p) && a.kernel == kernel)
  let rest := ages.filter (fun a => !((decide (a.entry = src) || decide (a.entry = dst)) && a.kernel == kernel))
  let earliest := fun (x y : Option Nat) => match x, y with
    | some i, some j => some (min i j)
    | some i, none => some i
    | none, j => j
  match own src, own dst with
  | none, _ => ages
  | some a, none => rest ++ [{ a with entry := dst }]
  | some a, some b => rest ++ [{ b with count := max a.count b.count, queued := earliest a.queued b.queued }]

/-- Moves the lanes of an entry over a pad word (R19), checking the loop's end (R68); no slot is used, so that its ageing
record goes with it (R204). -/
def Group.passPad (g : Group) (p : LanePos) : Group :=
  let m := g.entryLanes p
  let g1 := (g.place (fun l => if laneBit m l then some { p with pc := p.pc + 4 } else none)).arriveLoop (some p.pc)
  { g1 with ages := carryAge g.ages g.kernel p { p with pc := p.pc + 4 } }

/-- What the mark of the word at the PC decides (R20). DESIGN CHOICE (log 81): a badlength word takes 0x03 also at a launch entrypoint,
where R39 names 0x06 and refers to R20. -/
def State.byMark (s : State) (t : Team) (g : Group) (p : LanePos) (ws : List Word) : Fetched :=
  let m := g.entryLanes p
  let i := p.pc.toNat % 64 / 4
  let mark := (lineMarks ws).getD i .unmarked
  let trap := fun (cause : Nat) (val val2 : Dword) =>
    Fetched.taken (s.fetchFault t.id g.gid m { cause := cause, pc := p.pc, lanes := m, val := val, val2 := val2 })
  let branch := Fetched.instr s .branchIntoLiteral
  match mark with
  | .start =>
    match decodeMain (bytesFrom ws i) with
    | .instr x => .instr s x
    | .rejected .illegalInstruction => .taken (s.illegalWord (mainFields ws i) (joinWords (ws.getD i 0) (ws.getD (i + 1) 0)))
    | .rejected .reservedField => .taken (s.reservedWord (mainFields ws i) ((ws.getD i 0).extractLsb' 2 10))
    | .rejected _ => trap 0x03 ((ws.getD i 0).setWidth 64) 0
  | .badLength => trap 0x03 ((ws.getD i 0).setWidth 64) 0
  | .pad => if m &&& g.byTarget = 0 then .taken (s.modGroup t.id g.gid (fun g => g.passPad p)) else branch
  | _ => branch

/-- R64, R371, R450: the fetch of a group's issuing entry. -/
def State.fetchEntry (s : State) (t : Team) (g : Group) (u : CoreUnit) (p : LanePos) : Fetched :=
  let m := g.entryLanes p
  let trap := fun (cause : Nat) (val val2 : Dword) =>
    Fetched.taken (s.fetchFault t.id g.gid m { cause := cause, pc := p.pc, lanes := m, val := val, val2 := val2 })
  let sp := fetchSpace t g u
  match translate s sp p.pc .fetch with
  | .bad f =>
    if f.cause = walkAsks then
      .taken { s with asked := s.asked ++ [{ hub := unitHub u, line := (f.val.getD 0).toNat, kind := .read false }] }
    else trap f.cause (f.val.getD p.pc) f.val2
  | .ok x =>
    let s1 := s.touch sp p.pc .fetch x
    if bits p.pc 1 0 ≠ 0 then .instr s1 .branchIntoLiteral
    else
      let r := s1.codeAt t g u (lineOf p.pc) x
      match (if r.2 = [] then r.1.fetchFailed (unitHub u) (lineOfKey x.key) else none) with
      | some e => let f := s.linkFault sp 13 (lineOfKey x.key) e
                  trap f.cause (f.val.getD 0) f.val2
      | none => r.1.byMark t g p r.2

/-- The end of a group's fetch: one that asked another package for a line is taken back, and its entry waits (log 83). -/
def State.closeFetch (s : State) (t : Team) (g : Group) (u : CoreUnit) (p : LanePos) (f : Fetched) : Fetched :=
  match f with
  | .instr s1 i => if s1.asked = [] then .instr s1 i else .taken (s.underWay t.id g.gid u p s1.asked)
  | .taken s1 => if s1.asked = [] then .taken s1.answersUsed else .taken (s.underWay t.id g.gid u p s1.asked)
  | .missing => .missing

/-- R370, R371: the turn of a group: the first asynchronous cause that waits, else the fetch of its entry. -/
def State.fetchGroup (s : State) (tid gid : Nat) : Fetched :=
  match s.team? tid with
  | none => .missing
  | some t =>
    match t.group? gid with
    | none => .missing
    | some g =>
      match firstCause g.takable with
      | some c => .taken ((s.modGroup tid gid (fun g => { g with async := g.async.erase c })).takeCause tid gid c)
      | none =>
        match t.coreOf g, g.issuing with
        | some u, some p => s.closeFetch t g u p (s.fetchEntry t g u p)
        | _, _ => .taken s

/-- The engine of a cluster. -/
def Cluster.engine (c : Cluster) : EngineKind → Engine
  | .access => c.access
  | .array => c.array
  | .drain => c.drain
  | .kiln => c.kiln

def Cluster.setEngine (c : Cluster) (k : EngineKind) (e : Engine) : Cluster :=
  match k with
  | .access => { c with access := e }
  | .array => { c with array := e }
  | .drain => { c with drain := e }
  | .kiln => { c with kiln := e }

/-- R26, R38: a word of an engine's instruction memory, cleared beyond its image. -/
def Engine.wordAt (e : Engine) (n : Nat) : Half := e.imem.getD n 0

/-- R26, R29: the word at an engine's index; an unassigned word, or an index beyond its instruction memory, is an
engine illegal word. -/
def Engine.instr (e : Engine) (k : EngineKind) : Instr :=
  if 2048 ≤ e.pc then .engineIllegalWord
  else match decodeEngine k (e.wordAt e.pc) with
    | .instr i => i
    | .rejected _ => .engineIllegalWord

/-- The turn of an engine. -/
def State.fetchEngine (s : State) (tid : Nat) (k : EngineKind) : Fetched :=
  match (s.team? tid).bind (fun t => t.cluster) with
  | none => .missing
  | some c => .instr s ((c.engine k).instr k)

end Sys2Proof.Machine
end

