-- ==== Sys2Proof/Machine/Cluster.lean ====
section
/-! DEFINITION. The array cluster at launch (R160, R290, R291, R295) and the team that stands on it. -/

namespace Sys2Proof.Machine

/-- R160, R290: an engine at launch; absent from the descriptor it is stopped, else it runs at its entrypoint. -/
def Engine.fresh (image : Option (List Half × Nat)) : Engine :=
  let x := image.getD ([], 0)
  { pc := x.2, state := if image.isSome then .running else .stopped, stack := [],
    loops := List.replicate 3 { n := 0, m := 0, start := 0 }, cmds := [], sigs := [], ops := [], cause := 0,
    imem := x.1, halting := false, took := false, launched := 0, readStamp := 0 }

/-- An address generator before its first AGSET, as AGSET with base 0 leaves it (log 12). -/
def AddrGen.fresh : AddrGen := { base := 0, s0 := 0, s1 := 0, c0 := 1, i := 0, j := 0, wrap := 0 }

/-- R295: a weight set at launch. -/
def WeightSet.fresh : WeightSet :=
  { k := 0, fmt := 0, sparse := false, scaled := false, band := 0, origin := 0, rows := [], scales := [],
    metadata := [] }

/-- An entry being filled that holds nothing yet. -/
def QueueEntry.fresh : QueueEntry := { width := 0, bytes := [], origin := 0 }

/-- The scratchpad of a cluster, 16 MiB. -/
def clusterScratchSize : Nat := 16777216

/-- R160, R168, R283, R291, R298: a cluster at launch with the engine images of its descriptor. -/
def Cluster.fresh (id : CoreId) (engines : List (Option (List Half × Nat))) : Cluster :=
  let e := fun k => Engine.fresh ((engines[k]?).getD none)
  { id := id, bfmtl := 0, bfmth := 0, efpst := 0, access := e 0, array := e 1, drain := e 2, kiln := e 3,
    tokens := List.replicate 16 0, gens := List.replicate 8 AddrGen.fresh, metaQueue := [], scaleQueue := [],
    metaFill := QueueEntry.fresh, scaleFill := QueueEntry.fresh,
    active := WeightSet.fresh, shadowSet := WeightSet.fresh, acc := [], scratch := Scratchpad.clear clusterScratchSize,
    frozen := false, exited := false }

/-- An array team as a launch leaves it, on a cluster, with one work item for the control core. -/
def Team.onCluster (t : Team) (id : CoreId) : Team :=
  { t with
    cls := .array, cluster := some (Cluster.fresh id t.desc.engines), cores := [CoreShare.bare (.control id) 0]
    groups := [Group.fresh 0 0 0 0 .S 1 1 (t.desc.image + BitVec.ofNat 64 t.desc.entry) .task] }

end Sys2Proof.Machine
end

