-- ==== Sys2Proof/Machine/EngineBase.lean ====
section
/-! DEFINITION. The engines of an array cluster: how a word runs (R160), its waits and its faults (R29, R299, R300), the
address generators (R165), and what an engine operation names (R166 to R171, R283, R292). -/

namespace Sys2Proof.Machine

/-- Where an engine stands. -/
structure EngAt where
  team : Team
  cluster : Cluster
  kind : EngineKind
  engine : Engine

def State.engineAt (s : State) (tid : Nat) (k : EngineKind) : Option EngAt :=
  match s.team? tid with
  | none => none
  | some t => t.cluster.map (fun c => { team := t, cluster := c, kind := k, engine := c.engine k })

/-- The engine that moves. -/
def State.engineIssuer (s : State) : Option EngAt :=
  match s.next with
  | .agent (.engine tid k) => s.engineAt tid k
  | _ => none

def State.modCluster (s : State) (tid : Nat) (f : Cluster → Cluster) : State :=
  s.modTeam tid (fun t => { t with cluster := t.cluster.map f })

def State.modEngine (s : State) (tid : Nat) (k : EngineKind) (f : Engine → Engine) : State :=
  s.modCluster tid (fun c => c.setEngine k (f (c.engine k)))

/-- R408: an engine's word, or the finish of an operation, clears the cluster and queue patrols. -/
def State.engineProgress (s : State) (t : Team) : State :=
  (s.modTeam t.id (fun t => { t with patrolCount := 0 })).queueProgress t

/-! ## Faults -/

/-- R29, R299, R300: an engine faults, with its PC and the recorded index of a word. The report waits at the control core, and a
team whose control core has exited is killed. -/
def State.engineFault (s : State) (x : EngAt) (cause : Byte) (pc word : Nat) (val2 : Dword) : State :=
  let tid := x.team.id
  let s1 := s.modEngine tid x.kind (fun e => { e with state := .faulted, cause := cause, pc := pc, took := false, halting := false })
  if x.cluster.exited then s1.killTeam tid cause
  else (s1.post tid 0 (.engineFault x.kind cause word val2)).due (.engineFaultReport tid)

/-! ## Words -/

/-- What an engine word does. -/
inductive EngRes where
  /-- It completes; the engine goes on with the next word. -/
  | next (s : State) (e : Engine)
  /-- It completes and control goes to an index. -/
  | jump (s : State) (e : Engine) (target : Nat)
  /-- It completes and the engine stands where it says. -/
  | stay (s : State) (e : Engine)
  /-- It faults; stack and PC stay, and the recorded index is the word's, or another (R29). -/
  | fault (cause : Byte) (word : Option Nat)
  /-- It waits (R162 to R165); the state may tell that it has its token already. -/
  | wait (s : State)

/-- R29: the state after a word's answer: word 2,047 that would fall through, and a target outside, are illegal words. -/
def settleEngine (s : State) (x : EngAt) : EngRes → State
  | .next s1 e =>
    if 2047 ≤ e.pc then s.engineFault x 0x40 x.engine.pc x.engine.pc 0
    else (s1.modEngine x.team.id x.kind (fun _ => { e with pc := e.pc + 1, took := false })).engineProgress x.team
  | .jump s1 e target =>
    if 2048 ≤ target then s.engineFault x 0x40 x.engine.pc x.engine.pc 0
    else (s1.modEngine x.team.id x.kind (fun _ => { e with pc := target })).engineProgress x.team
  | .stay s1 e => s1.modEngine x.team.id x.kind (fun _ => e)
  | .fault cause word => s.engineFault x cause x.engine.pc (word.getD x.engine.pc) 0
  | .wait s1 => s1

/-- An engine word runs. -/
def runEngine (s : State) (body : State → EngAt → EngRes) : Host.Outcome State Fault Refusal :=
  match s.engineIssuer with
  | none => .refused .noExecutingUnit
  | some x => .next (settleEngine s x (body s x))

/-- R161: a word that pops n entries and pushes m, which it computes from the stack, top first. -/
def stackWord (n m : Nat) (f : List Word → List Word) (s : State) : Host.Outcome State Fault Refusal :=
  runEngine s (fun s x =>
    let st := x.engine.stack
    if st.length < n ∨ 8 < st.length - n + m then .fault 0x41 none
    else .next s { x.engine with stack := f st })

/-- R161: a binary word: b is the top, a the second. -/
def binaryWord (f : Word → Word → Word) (s : State) : Host.Outcome State Fault Refusal :=
  stackWord 2 1 (fun st => match st with
    | b :: a :: rest => f a b :: rest
    | st => st) s

/-! ## Token queues -/

def Cluster.tokenCount (c : Cluster) (n : Nat) : Nat := c.tokens.getD n 0

def Cluster.setTokens (c : Cluster) (n v : Nat) : Cluster := { c with tokens := c.tokens.set n v }

/-- R37, R291: the field of a queue in the token map. -/
def tokenField (t : Team) (n : Nat) : Nat := bits t.desc.tokens (4 * n - 1) (4 * n - 4)

/-- R291: whether an engine may push on a queue, and whether it may pop from it: its producer or consumer, of a queue whose
two ends differ. -/
def mayPush (x : EngAt) (n : Nat) : Bool :=
  let f := tokenField x.team n
  f % 4 != f / 4 && f % 4 == engineNumber x.kind
def mayPop (x : EngAt) (n : Nat) : Bool :=
  let f := tokenField x.team n
  f % 4 != f / 4 && f / 4 == engineNumber x.kind

/-! ## Address generators -/

/-- R165: a generator's address at given positions. -/
def AddrGen.addressAt (g : AddrGen) (i j : Nat) : Dword :=
  let o : Int := (i : Int) * g.s0.toInt + (j : Int) * g.s1.toInt
  g.base + BitVec.ofInt 64 (if g.wrap = 0 then o else o % (g.wrap.toNat : Int))

def AddrGen.address (g : AddrGen) : Dword := g.addressAt g.i.toNat g.j.toNat

/-- R165: a generator's step. -/
def AddrGen.step (g : AddrGen) : AddrGen :=
  if g.i + 1 = g.c0 then { g with i := 0, j := g.j + 1 } else { g with i := g.i + 1 }

/-- R166: a generator after n rows of an operation: one that names it for both sides steps it twice a row. -/
def AddrGen.after (g : AddrGen) (n : Nat) : AddrGen :=
  let i := g.i.toNat + n
  { g with i := BitVec.ofNat 32 (i % g.c0.toNat), j := g.j + BitVec.ofNat 32 (i / g.c0.toNat) }

def Cluster.gen (c : Cluster) (n : Nat) : AddrGen := c.gens.getD n AddrGen.fresh

def Cluster.setGen (c : Cluster) (n : Nat) (g : AddrGen) : Cluster := { c with gens := c.gens.set n g }

/-! ## Operations -/

/-- The operations of the four engines (R27). -/
inductive EngCode where
  | cpyin | cpyout | gath | scat | mdfil | wpre | wswp | strm | strms | drn | dclr | kscl | kpack | kunpk
deriving DecidableEq, Repr

/-- R166 to R170: the operation of a launch code. -/
def engCode (k : EngineKind) (n : Nat) : EngCode :=
  match k with
  | .access => match n with
    | 0 => .cpyin
    | 1 => .cpyout
    | 2 => .gath
    | 3 => .scat
    | _ => .mdfil
  | .array => match n with
    | 0 => .wpre
    | 1 => .wswp
    | 2 => .strm
    | _ => .strms
  | .drain => match n with
    | 0 => .drn
    | _ => .dclr
  | .kiln => match n with
    | 0 => .kscl
    | 1 => .kpack
    | _ => .kunpk

/-- A launch operation: its engine and its code. -/
def EngCode.launch : EngCode → EngineKind × Nat
  | .cpyin => (.access, 0) | .cpyout => (.access, 1) | .gath => (.access, 2) | .scat => (.access, 3) | .mdfil => (.access, 4)
  | .wpre => (.array, 0) | .wswp => (.array, 1) | .strm => (.array, 2) | .strms => (.array, 3)
  | .drn => (.drain, 0) | .dclr => (.drain, 1)
  | .kscl => (.kiln, 0) | .kpack => (.kiln, 1) | .kunpk => (.kiln, 2)

/-- R166 to R170: how many parameters a launch word takes. -/
def EngCode.count : EngCode → Nat
  | .cpyin => 5 | .cpyout => 5 | .gath => 6 | .scat => 6 | .mdfil => 5
  | .wpre => 4 | .wswp => 0 | .strm => 6 | .strms => 6
  | .drn => 5 | .dclr => 2
  | .kscl => 6 | .kpack => 8 | .kunpk => 8

/-- A parameter, counted in push order. -/
def EngOp.par (o : EngOp) (i : Nat) : Nat := (o.params.getD i 0).toNat

/-- The rows of an operation's row loop (R301). -/
def opRows (c : EngCode) (p : Nat → Nat) : Nat :=
  match c with
  | .cpyin | .cpyout | .mdfil => p 3
  | .gath | .scat => p 4
  | .wpre => p 2
  | .wswp => 1
  | .strm | .strms => p 3
  | .drn | .dclr => p 1
  | .kscl => p 4 % 65536
  | .kpack | .kunpk => p 6 % 65536

/-- R166: the row width and the flags of an access operation. -/
def copyWidth (c : EngCode) (p : Nat → Nat) : Nat :=
  match c with
  | .gath | .scat => p 3
  | _ => p 2
def copyFlags (c : EngCode) (p : Nat → Nat) : Nat :=
  match c with
  | .gath | .scat => p 5
  | _ => p 4

/-- R166: the generators that an operation names: the global side, and the scratchpad side. -/
def copyGens (c : EngCode) (p : Nat → Nat) : List Nat :=
  match c with
  | .cpyin | .cpyout | .gath | .scat => [p 0, p 1]
  | .mdfil => [p 0]
  | _ => []

/-- R166: whether an operation writes global memory. -/
def EngCode.outward : EngCode → Bool
  | .cpyout | .scat => true
  | _ => false

/-- R166: whether an operation steps its global generator. -/
def EngCode.indexed : EngCode → Bool
  | .gath | .scat => true
  | _ => false

/-- R165: whether an operation has started its last row, or is held at its cursor (R301). -/
def EngOp.usesGens (k : EngineKind) (o : EngOp) : Bool :=
  !o.abandoned && (o.stopCause != 0 || decide (o.row + (if o.inRow then 1 else 0) < opRows (engCode k o.code) o.par))

/-- R165: whether a generator is in use by an outstanding operation. -/
def Engine.genInUse (e : Engine) (n : Nat) : Bool :=
  e.ops.any (fun o => o.usesGens .access && (copyGens (engCode .access o.code) o.par).contains n)

/-! ## Bank formats -/

/-- R283: the format byte of the bank of a scratchpad address. -/
def Cluster.bankByte (c : Cluster) (a : Nat) : Nat :=
  let b := a / 2 ^ 20 % 16
  if b < 8 then bits c.bfmtl (8 * b + 7) (8 * b) else bits c.bfmth (8 * (b - 8) + 7) (8 * (b - 8))

def bankElem (f : Nat) : Nat := f % 32
def bankScl (f : Nat) : Nat := f / 32 % 4

/-- R283: an ELEM code as a tile format (R143); f32 is none of them. -/
def tileOfElem (e : Nat) : Option Nat :=
  match e with
  | 0x04 => some 0
  | 0x05 => some 1
  | 0x06 => some 2
  | 0x07 => some 3
  | 0x08 => some 4
  | 0x03 => some 5
  | 0x02 => some 6
  | 0x16 => some 7
  | 0x18 => some 8
  | _ => none

/-- R143: the bytes of n elements of a tile format in a row. -/
def storageBytes (f n : Nat) : Nat :=
  match f with
  | 2 | 3 => (n + 3) / 4 * 4
  | 4 | 8 => (n + 1) / 2
  | 5 | 6 => 2 * n
  | _ => n

/-- R171: a range that starts at a multiple of 16 and lies within one bank. -/
def rangeOk (a n : Nat) : Bool := a % 16 == 0 && decide (a + n ≤ 2 ^ 24) && decide (0 < n) && a / 2 ^ 20 == (a + n - 1) / 2 ^ 20

/-- The range of m rows of n bytes at a pitch. -/
def rowsRange (a q m n : Nat) : Nat × Nat := (a, (m - 1) * q + n)

def rowsOk (a q m n : Nat) : Bool := rangeOk (rowsRange a q m n).1 (rowsRange a q m n).2

end Sys2Proof.Machine
end

