-- ==== Sys2Proof/Machine/EngineWords.lean ====
section
/-! DEFINITION. The engine words that launch nothing: literals (R28), stack and arithmetic (R161), loops and control (R162),
tokens (R163) and address generators (R165). -/

namespace Sys2Proof.Machine

/-! ## Literals and arithmetic -/

/-- R28: PUSH. -/
def execPush (lit : BitVec 13) (s : State) : Host.Outcome State Fault Refusal :=
  stackWord 0 1 (fun st => lit.signExtend 32 :: st) s

/-- R28: EXT. -/
def execExt (lit : BitVec 13) (s : State) : Host.Outcome State Fault Refusal :=
  stackWord 1 1 (fun st => match st with
    | t :: rest => (t <<< 13 ||| lit.setWidth 32) :: rest
    | [] => []) s

/-- R161: DUP. -/
def execDup (s : State) : Host.Outcome State Fault Refusal :=
  stackWord 1 2 (fun st => match st with
    | t :: rest => t :: t :: rest
    | [] => []) s

/-- R161: DROP. -/
def execDrop (s : State) : Host.Outcome State Fault Refusal := stackWord 1 0 List.tail s

/-- R161: SWAP. -/
def execSwap (s : State) : Host.Outcome State Fault Refusal :=
  stackWord 2 2 (fun st => match st with
    | b :: a :: rest => a :: b :: rest
    | st => st) s

/-- R161: OVER. -/
def execOver (s : State) : Host.Outcome State Fault Refusal :=
  stackWord 2 3 (fun st => match st with
    | b :: a :: rest => a :: b :: a :: rest
    | st => st) s

/-- R161: ADD. -/
def execAdd (s : State) : Host.Outcome State Fault Refusal := binaryWord (fun a b => a + b) s

/-- R161: SUB. -/
def execSub (s : State) : Host.Outcome State Fault Refusal := binaryWord (fun a b => a - b) s

/-- R161: MUL. -/
def execMul (s : State) : Host.Outcome State Fault Refusal := binaryWord (fun a b => a * b) s

/-- R161: AND. -/
def execEngAnd (s : State) : Host.Outcome State Fault Refusal := binaryWord (fun a b => a &&& b) s

/-- R161: OR. -/
def execEngOr (s : State) : Host.Outcome State Fault Refusal := binaryWord (fun a b => a ||| b) s

/-- R161: XOR. -/
def execEngXor (s : State) : Host.Outcome State Fault Refusal := binaryWord (fun a b => a ^^^ b) s

/-- R161: SHL; a count of 32 or more gives 0. -/
def execEngShl (s : State) : Host.Outcome State Fault Refusal :=
  binaryWord (fun a b => if 32 ≤ b.toNat then 0 else a <<< b.toNat) s

/-- R161: SHR; a count of 32 or more gives 0. -/
def execEngShr (s : State) : Host.Outcome State Fault Refusal :=
  binaryWord (fun a b => if 32 ≤ b.toNat then 0 else a >>> b.toNat) s

/-! ## Loops -/

/-- A loop register of an engine. -/
def Engine.loopReg (e : Engine) (i : Fin 3) : EngLoopReg := e.loops.getD i.val { n := 0, m := 0, start := 0 }

def Engine.setLoop (e : Engine) (i : Fin 3) (l : EngLoopReg) : Engine := { e with loops := e.loops.set i.val l }

/-- R161: GETL. -/
def execGetl (reg : Fin 3) (s : State) : Host.Outcome State Fault Refusal :=
  runEngine s (fun s x =>
    if 8 ≤ x.engine.stack.length then .fault 0x41 none
    else .next s { x.engine with stack := ((x.engine.loopReg reg).n - (x.engine.loopReg reg).m) :: x.engine.stack })

/-- R161: SETL. -/
def execSetl (reg : Fin 3) (s : State) : Host.Outcome State Fault Refusal :=
  runEngine s (fun s x => match x.engine.stack with
    | [] => .fault 0x41 none
    | v :: rest => .next s ({ x.engine with stack := rest }.setLoop reg { x.engine.loopReg reg with m := v }))

/-- R162: the index of the first ENDL of a loop register from an index on, below 2,047. -/
def findEndl (k : EngineKind) (e : Engine) (reg : Fin 3) : Nat → Nat → Option Nat
  | 0, _ => none
  | fuel + 1, i =>
    if 2047 ≤ i then none
    else if decodeEngine k (e.wordAt i) = .instr (.endl reg) then some i
    else findEndl k e reg fuel (i + 1)

/-- R162: LOOP. A count of 0 passes over the words up to the register's ENDL; one that is not found is a fall-through of
word 2,047. -/
def execEngLoop (reg : Fin 3) (s : State) : Host.Outcome State Fault Refusal :=
  runEngine s (fun s x => match x.engine.stack with
    | [] => .fault 0x41 none
    | n :: rest =>
      let e := { x.engine with stack := rest }
      if n ≠ 0 then .next s (e.setLoop reg { n := n, m := n, start := e.pc + 1 })
      else match findEndl x.kind e reg 2047 (e.pc + 1) with
        | some i => .jump s e (i + 1)
        | none => .fault 0x40 (some 2047))

/-- R162: ENDL. -/
def execEndl (reg : Fin 3) (s : State) : Host.Outcome State Fault Refusal :=
  runEngine s (fun s x =>
    let l := x.engine.loopReg reg
    if 1 < l.m.toNat then .jump s (x.engine.setLoop reg { l with m := l.m - 1 }) l.start
    else .next s (x.engine.setLoop reg { l with m := 0 }))

/-! ## Control -/

/-- R162: JMP. -/
def execJmp (s : State) : Host.Outcome State Fault Refusal :=
  runEngine s (fun s x => match x.engine.stack with
    | [] => .fault 0x41 none
    | t :: rest => .jump s { x.engine with stack := rest } t.toNat)

/-- R162: JZ: the target is the top, the value under it. -/
def execJz (s : State) : Host.Outcome State Fault Refusal :=
  runEngine s (fun s x => match x.engine.stack with
    | t :: v :: rest =>
      let e := { x.engine with stack := rest }
      if v = 0 then .jump s e t.toNat else .next s e
    | _ => .fault 0x41 none)

/-- R162, R290: an engine stops after HALT; its PC is the index of the next word (R183), which after word 2,047 is 0. -/
def Engine.stop (e : Engine) : Engine := { e with state := .stopped, halting := false, pc := (e.pc + 1) % 2048 }

/-- R162: HALT waits for the outstanding operations, then stops. -/
def execHalt (s : State) : Host.Outcome State Fault Refusal :=
  runEngine s (fun s x =>
    if x.engine.ops.isEmpty then .stay (s.engineProgress x.team) x.engine.stop
    else .stay s { x.engine with halting := true })

/-- R162: WAITC. -/
def execWaitc (s : State) : Host.Outcome State Fault Refusal :=
  runEngine s (fun s x =>
    if 8 ≤ x.engine.stack.length then .fault 0x41 none
    else match x.engine.cmds with
      | [] => .wait s
      | v :: rest => .next s { x.engine with stack := v :: x.engine.stack, cmds := rest })

/-- R162: SIGC. -/
def execSigc (s : State) : Host.Outcome State Fault Refusal :=
  runEngine s (fun s x => match x.engine.stack with
    | [] => .fault 0x41 none
    | v :: rest =>
      if 4 ≤ x.engine.sigs.length then .wait s
      else .next s { x.engine with stack := rest, sigs := x.engine.sigs ++ [v] })

/-! ## Tokens -/

/-- R163: TKPOP. -/
def execTkpop (queue : BitVec 4) (s : State) : Host.Outcome State Fault Refusal :=
  runEngine s (fun s x =>
    let n := queue.toNat
    let have_ := x.cluster.tokenCount n
    if !mayPop x n then .fault 0x45 none
    else if have_ = 0 then .wait s
    else .next (s.modCluster x.team.id (fun c => c.setTokens n (have_ - 1))) x.engine)

/-- R163: TKPSH. -/
def execTkpsh (queue : BitVec 4) (s : State) : Host.Outcome State Fault Refusal :=
  runEngine s (fun s x =>
    let n := queue.toNat
    let have_ := x.cluster.tokenCount n
    if !mayPush x n then .fault 0x45 none
    else if 16 ≤ have_ then .wait s
    else .next (s.modCluster x.team.id (fun c => c.setTokens n (have_ + 1))) x.engine)

/-- R163: TKTST. -/
def execTktst (queue : BitVec 4) (s : State) : Host.Outcome State Fault Refusal :=
  runEngine s (fun s x =>
    let n := queue.toNat
    if !mayPop x n then .fault 0x45 none
    else if 8 ≤ x.engine.stack.length then .fault 0x41 none
    else .next s { x.engine with stack := BitVec.ofNat 32 (x.cluster.tokenCount n) :: x.engine.stack })

/-! ## Address generators -/

/-- R165: a generator word waits while its generator is in use. -/
def generatorWord (gen : BitVec 3) (n m : Nat) (bad : List Word → Bool)
    (f : AddrGen → List Word → AddrGen × List Word) (s : State) : Host.Outcome State Fault Refusal :=
  runEngine s (fun s x =>
    let st := x.engine.stack
    if st.length < n ∨ 8 < st.length - n + m then .fault 0x41 none
    else if bad st then .fault 0x42 none
    else if x.engine.genInUse gen.toNat then .wait s
    else
      let r := f (x.cluster.gen gen.toNat) st
      .next (s.modCluster x.team.id (fun c => c.setGen gen.toNat r.1)) { x.engine with stack := r.2 })

/-- R165: AGSET. -/
def execAgset (gen : BitVec 3) (s : State) : Host.Outcome State Fault Refusal :=
  generatorWord gen 2 0 (fun _ => false) (fun g st => match st with
    | high :: low :: rest => ({ base := joinWords low high, s0 := 0, s1 := 0, c0 := 1, i := 0, j := 0, wrap := 0 }, rest)
    | st => (g, st)) s

/-- R165: AGSTR; an inner count of 0 is an operand fault. -/
def execAgstr (gen : BitVec 3) (s : State) : Host.Outcome State Fault Refusal :=
  generatorWord gen 3 0 (fun st => match st with
    | _ :: c :: _ => c == 0
    | _ => false) (fun g st => match st with
    | s1 :: c0 :: s0 :: rest => ({ g with s0 := s0, c0 := c0, s1 := s1, i := 0, j := 0 }, rest)
    | st => (g, st)) s

/-- R165: AGWRAP. -/
def execAgwrap (gen : BitVec 3) (s : State) : Host.Outcome State Fault Refusal :=
  generatorWord gen 1 0 (fun _ => false) (fun g st => match st with
    | w :: rest => ({ g with wrap := w }, rest)
    | st => (g, st)) s

/-- R165: AGRD. -/
def execAgrd (gen : BitVec 3) (s : State) : Host.Outcome State Fault Refusal :=
  generatorWord gen 0 1 (fun _ => false) (fun g st => (g, loWord g.address :: st)) s

/-- R29: ENGINE_ILLEGAL_WORD: the engine that moves faults at the word. -/
def execEngineIllegalWord (s : State) : Host.Outcome State Fault Refusal :=
  runEngine s (fun _ _ => .fault 0x40 none)

end Sys2Proof.Machine
end

