-- ==== Sys2Proof/Machine/EngineLaunch.lean ====
section
/-! DEFINITION. The launch words (R164): their parameters and limits (R166 to R171, R293), their token and the start of the
operation. -/

namespace Sys2Proof.Machine

/-! ## Limits -/

/-- R166, R171: the limits of an access operation but for MDFIL's queue. -/
def copyLimits (c : EngCode) (p : Nat → Nat) : Bool :=
  let w := copyWidth c p
  let n := opRows c p
  let flags := copyFlags c p
  let hint := flags / 2 % 8
  (copyGens c p).all (fun g => decide (g < 8)) && w % 16 == 0 && decide (16 ≤ w ∧ w ≤ 2 ^ 20 ∧ 1 ≤ n ∧ n ≤ 65536) &&
  decide (flags < 16) && (flags % 2 == 0 || c.outward) && decide (hint ≤ 5) &&
  (!c.indexed || rangeOk (p 2) (4 * n))

/-- R168, R293: WPRE. -/
def wpreLimits (x : Cluster) (p : Nat → Nat) : Bool :=
  let f := x.bankByte (p 0)
  let scl := bankScl f
  let k := p 2
  let sparse := p 3 % 2 == 1
  let scaled := p 3 / 2 % 2 == 1
  let block := if scl = 2 then 8 else 32
  match tileOfElem (bankElem f) with
  | none => false
  | some t =>
    p 3 / 4 % 2 ^ 14 == 0 && (p 3 / 2 ^ 16 == 0 || scl == 2) && scaled == (scl != 0) &&
    decide (1 ≤ k ∧ k ≤ if t = 4 ∧ !sparse then 1024 else 256) && (!scaled || k % block == 0) &&
    rowsOk (p 0) (p 1) k (storageBytes t 256)

/-- R168, R293: what a STRM or STRMS tells at its launch word; the rest depends on the active set (R171). -/
def strmLimits (x : Cluster) (p : Nat → Nat) : Bool :=
  let scl := bankScl (x.bankByte (p 0))
  decide (p 5 < 2 ∧ 1 ≤ p 3 ∧ p 3 ≤ 2048 ∧ p 4 + p 3 ≤ 2048) &&
  ((scl == 0 && p 2 == 0xFFFFFFFF) || (scl == 1 && p 2 != 0xFFFFFFFF))

/-- R169: the element format of a DRN's bank. -/
def bankDrainFmt (f : Nat) : Option Fmt :=
  match f with
  | 0x00 => some .f32
  | 0x02 => some .f16
  | 0x03 => some .bf16
  | 0x04 => some .e4m3
  | 0x05 => some .e5m2
  | _ => none

/-- R169, R293: DRN. -/
def drnLimits (x : Cluster) (p : Nat → Nat) : Bool :=
  match bankDrainFmt (x.bankByte (p 2)) with
  | none => false
  | some f => decide (p 4 < 16 ∧ 1 ≤ p 1 ∧ p 1 ≤ 2048 ∧ p 0 + p 1 ≤ 2048) && rowsOk (p 2) (p 3) (p 1) (256 * f.width / 8)

/-- R169: DCLR. -/
def dclrLimits (p : Nat → Nat) : Bool := decide (1 ≤ p 1 ∧ p 1 ≤ 2048 ∧ p 0 + p 1 ≤ 2048)

/-- R89, R283: the bank byte of a kiln format. -/
def kilnByte (k : Nat) : Nat :=
  match k with
  | 0 => 0x28
  | 1 => 0x26
  | 2 => 0x27
  | 3 => 0x24
  | 4 => 0x25
  | _ => 0x48

/-- R293: the float format of a kiln's unpacked rows: a bank of f32 or bf16. -/
def kilnFmt (f : Nat) : Option Fmt :=
  match f with
  | 0x00 => some .f32
  | 0x03 => some .bf16
  | _ => none

/-- R89: the bytes of n packed elements of a kiln format. -/
def packedBytes (k n : Nat) : Nat := if (blockElem k).width = 4 then n / 2 else n

/-- The parameters of a kiln operation by their roles. -/
structure KilnPar where
  src : Nat
  srcPitch : Nat
  scale : Nat
  scalePitch : Nat
  dst : Nat
  dstPitch : Nat
  rows : Nat
  cols : Nat
  fmt : Nat
  /-- The band scale as an f32 code. -/
  band : Nat

/-- R170: the parameters of KSCL, KPACK and KUNPK. -/
def kilnPar (c : EngCode) (p : Nat → Nat) : KilnPar :=
  let shape := if c = .kscl then p 4 else p 6
  let flags := if c = .kscl then p 5 else p 7
  { src := p 0, srcPitch := p 1, scale := p 2, scalePitch := p 3, dst := p 4, dstPitch := p 5, rows := shape % 65536,
    cols := shape / 65536, fmt := flags % 8, band := flags / 65536 * 65536 }

/-- R170, R171, R293: the limits of a kiln operation. -/
def kilnLimits (x : Cluster) (c : EngCode) (p : Nat → Nat) : Bool :=
  let o := kilnPar c p
  let flags := if c = .kscl then p 5 else p 7
  let plain := fun (a : Nat) => kilnFmt (x.bankByte a)
  let wide := fun (a q : Nat) => match plain a with
    | some f => rowsOk a q o.rows (o.cols * f.width / 8)
    | none => false
  let narrow := fun (a q : Nat) => x.bankByte a == kilnByte o.fmt && rowsOk a q o.rows (packedBytes o.fmt o.cols)
  decide (o.fmt < 6) && flags / 8 % 2 ^ 13 == 0 && (o.band == 0 || isFb4 o.fmt) && decide (1 ≤ o.rows ∧ 1 ≤ o.cols) &&
  o.cols % blockSize o.fmt == 0 && rowsOk o.scale o.scalePitch o.rows (o.cols / blockSize o.fmt) &&
  (match c with
   | .kscl => wide o.src o.srcPitch
   | .kpack => wide o.src o.srcPitch && narrow o.dst o.dstPitch
   | _ => narrow o.src o.srcPitch && wide o.dst o.dstPitch)

/-- R164, R171: whether the parameters of a launch word are within their limits. -/
def launchOk (x : Cluster) (c : EngCode) (p : Nat → Nat) : Bool :=
  match c with
  | .mdfil => copyLimits c p && decide (p 1 ≤ 1) && decide (if p 1 = 0 then p 2 = 16384 else p 2 ≤ 8192)
  | .cpyin | .cpyout | .gath | .scat => copyLimits c p
  | .wpre => wpreLimits x p
  | .wswp => true
  | .strm | .strms => strmLimits x p
  | .drn => drnLimits x p
  | .dclr => dclrLimits p
  | .kscl | .kpack | .kunpk => kilnLimits x c p

/-! ## The launch word -/

/-- A started operation at its launch (R301). -/
def EngOp.fresh (id code pop push : Nat) (params : List Word) (word : Nat) (walkG walkP : AddrGen) : EngOp :=
  { id := id, code := code, pop := pop, push := push, params := params, started := false, stopped := false, declined := false,
    abandoned := false, row := 0, offset := 0, gaddr := 0, saddr := 0, tag := none, stopCause := 0, stopWalk := 0,
    inRow := false, word := word, flags := 0, walkG := walkG,
    walkP := walkP }

/-- R164: a launch word: a wait behind an operation stopped at 0x43 (R166), the token map (R291), the parameters, the token,
and the start, with its wait for the generators it names (R165). -/
def launchWord (c : EngCode) (pop push : BitVec 4) (s : State) : Host.Outcome State Fault Refusal :=
  runEngine s (fun s x =>
    let e := x.engine
    let n := c.count
    let params := (e.stack.take n).reverse
    let p := fun i => (params.getD i 0).toNat
    let op := EngOp.fresh e.launched c.launch.2 pop.toNat push.toNat params e.pc (x.cluster.gen (p 0))
      (x.cluster.gen (p 1))
    if x.kind ≠ c.launch.1 then .fault 0x40 none
    else if e.ops.any (fun o => o.stopCause != 0) then .wait s
    else if (pop ≠ 0 && !mayPop x pop.toNat) || (push ≠ 0 && !mayPush x push.toNat) then .fault 0x45 none
    else if e.stack.length < n then .fault 0x41 none
    else if !e.took && !launchOk x.cluster c p then .fault 0x42 none
    else if 2047 ≤ e.pc then .fault 0x40 none
    else
      let tokens := x.cluster.tokenCount pop.toNat
      if !e.took && pop ≠ 0 && tokens = 0 then .wait s
      else
        let s1 := if e.took || pop = 0 then s
          else s.modCluster x.team.id (fun c => c.setTokens pop.toNat (tokens - 1))
        if 4 ≤ e.ops.length ∨ (copyGens c p).any e.genInUse then
          .stay s1 { e with took := true }
        else .next s1 { e with stack := e.stack.drop n, ops := e.ops ++ [op], launched := e.launched + 1 })

/-- R166: CPYIN. -/
def execCpyin (pop push : BitVec 4) (s : State) : Host.Outcome State Fault Refusal := launchWord .cpyin pop push s

/-- R166: CPYOUT. -/
def execCpyout (pop push : BitVec 4) (s : State) : Host.Outcome State Fault Refusal := launchWord .cpyout pop push s

/-- R166: GATH. -/
def execGath (pop push : BitVec 4) (s : State) : Host.Outcome State Fault Refusal := launchWord .gath pop push s

/-- R166: SCAT. -/
def execScat (pop push : BitVec 4) (s : State) : Host.Outcome State Fault Refusal := launchWord .scat pop push s

/-- R166, R167: MDFIL. -/
def execMdfil (pop push : BitVec 4) (s : State) : Host.Outcome State Fault Refusal := launchWord .mdfil pop push s

/-- R168: WPRE. -/
def execWpre (pop push : BitVec 4) (s : State) : Host.Outcome State Fault Refusal := launchWord .wpre pop push s

/-- R168: WSWP. -/
def execWswp (pop push : BitVec 4) (s : State) : Host.Outcome State Fault Refusal := launchWord .wswp pop push s

/-- R168: STRM. -/
def execStrm (pop push : BitVec 4) (s : State) : Host.Outcome State Fault Refusal := launchWord .strm pop push s

/-- R168: STRMS. -/
def execStrms (pop push : BitVec 4) (s : State) : Host.Outcome State Fault Refusal := launchWord .strms pop push s

/-- R169: DRN. -/
def execDrn (pop push : BitVec 4) (s : State) : Host.Outcome State Fault Refusal := launchWord .drn pop push s

/-- R169: DCLR. -/
def execDclr (pop push : BitVec 4) (s : State) : Host.Outcome State Fault Refusal := launchWord .dclr pop push s

/-- R170: KSCL. -/
def execKscl (pop push : BitVec 4) (s : State) : Host.Outcome State Fault Refusal := launchWord .kscl pop push s

/-- R170: KPACK. -/
def execKpack (pop push : BitVec 4) (s : State) : Host.Outcome State Fault Refusal := launchWord .kpack pop push s

/-- R170: KUNPK. -/
def execKunpk (pop push : BitVec 4) (s : State) : Host.Outcome State Fault Refusal := launchWord .kunpk pop push s

end Sys2Proof.Machine
end

