-- ==== Sys2Proof/Machine/EngineCopy.lean ====
section
/-! DEFINITION. The rows of the access engine's operations (R166, R167, R299, R301, R302, R385): their addresses, what becomes
of a row, and how it moves. -/

namespace Sys2Proof.Machine

/-- The group number under which a cluster's engines make their accesses; the control core's work item is 0. -/
def engineGid : Nat := 1

/-- R166: the address space of an access engine, at task level, with its cluster's TLB. -/
def engineSpace (x : EngAt) : Space :=
  { asn := x.team.asn, ptroot := x.team.ptroot, hub := x.team.hub, tenant := x.team.tenant, kernel := false,
    masterHub := x.cluster.id.hub, pos := x.cluster.id.chiplet, tlb := some (.control x.cluster.id), engine := true }

/-- R166: how far the generators of an operation are stepped by a row: twice where one generator serves both sides. -/
def EngOp.stride (o : EngOp) : Nat := if copyGens (engCode .access o.code) o.par = [o.par 0, o.par 0] ∧ !(engCode .access o.code).indexed
  then 2 else 1

/-- R166: the scratchpad address of a row. -/
def EngOp.rowScratch (o : EngOp) (row : Nat) : Nat := (loWord (o.walkP.after (o.stride * row)).address).toNat

/-- R166: the list entry of a row of GATH or SCAT. -/
def EngOp.rowEntry (o : EngOp) (row : Nat) : Nat := o.par 2 + 4 * row

/-- R165, R166: the global address of a row. -/
def EngOp.rowGlobal (o : EngOp) (p : Scratchpad) (row : Nat) : Dword :=
  if (engCode .access o.code).indexed then o.walkG.addressAt (ofBytes (p.readBytes (o.rowEntry row) 4)) 0
  else (o.walkG.after (o.stride * row)).address

/-- R166: the access kind of an operation. -/
def EngOp.kind (o : EngOp) : AccessKind := if (engCode .access o.code).outward then .write else .read

/-- What an outstanding access operation's cursor row is: where it lies and how wide it is. -/
structure RowAt where
  global : Dword
  scratch : Nat
  width : Nat
  offset : Nat

/-- R301: the addresses of the cursor row, held once it has started. -/
def EngOp.rowAt (o : EngOp) (p : Scratchpad) : RowAt :=
  let c := engCode .access o.code
  { global := if o.inRow then o.gaddr else o.rowGlobal p o.row
    scratch := if o.inRow then o.saddr else if c = .mdfil then 0 else o.rowScratch o.row
    width := copyWidth c o.par, offset := o.offset }

/-- The parts of a row from an offset on that lie in one line each, with their checks. -/
def rowParts (s : State) (x : EngAt) (k : AccessKind) (r : RowAt) : List (Nat × Nat × XRes) :=
  (copyParts s (engineSpace x) k (r.global + BitVec.ofNat 64 r.offset) (r.width - r.offset)).map
    (fun q => (r.offset + q.1, q.2.1, q.2.2))

/-- What becomes of the cursor row of an access operation. -/
inductive RowFate where
  | goes
  /-- It waits for room in a queue (R167) or a persist buffer (R351). -/
  | blocked
  /-- R171. -/
  | operand
  /-- R166: engine poison at store. -/
  | poisoned
  /-- R166, R385: engine translation fault at an offset of the row. -/
  | stops (off : Nat) (f : XFault)
  /-- R166: a write is refused. -/
  | refused (cause : Byte)
deriving DecidableEq, Repr

/-- R166, R385: the first part of a row that stops or refuses it. -/
def State.partFate (s : State) (x : EngAt) (outward : Bool) (q : Nat × Nat × XRes) : Option RowFate :=
  match q.2.2 with
  | .bad f =>
    if f.cause = 0x20 ∨ (outward ∧ f.cause = 0x22) then some (.stops q.1 f)
    else if outward then some (.refused (BitVec.ofNat 8 f.cause)) else none
  | .ok y => if outward then (s.linkError x.cluster.id.hub (lineOfKey y.key)).map RowFate.refused else none

/-- R167: whether a queue is full. -/
def Cluster.queueFull (c : Cluster) (sel : Nat) : Bool :=
  if sel = 0 then decide (4 ≤ c.metaQueue.length) else decide (8 ≤ c.scaleQueue.length)

/-- Whether a part's bytes can enter a persist buffer now (R351). -/
def State.partRoom (s : State) (q : Nat × Nat × XRes) : Bool :=
  match q.2.2 with
  | .ok y => !y.dur || s.durableRoom y.key q.2.1
  | .bad _ => true

/-- What becomes of the cursor row. -/
def State.rowFate (s : State) (x : EngAt) (o : EngOp) : RowFate :=
  let c := engCode .access o.code
  let p := x.cluster.scratch
  let r := o.rowAt p
  let indexOrigin := if c.indexed && !o.inRow then p.originIn (o.rowEntry o.row) 4 else 0
  if c = .mdfil ∧ o.offset = 0 ∧ x.cluster.queueFull (o.par 1) then .blocked
  else if r.global.toNat % 16 ≠ 0 ∧ indexOrigin = 0 then .operand
  else if c ≠ .mdfil ∧ !rangeOk r.scratch r.width then .operand
  else if o.declined then .goes
  else if c.outward ∧ (indexOrigin ≠ 0 ∨ p.originIn (r.scratch + r.offset) (r.width - r.offset) ≠ 0) then .poisoned
  else if indexOrigin ≠ 0 then .goes
  else
    let parts := rowParts s x o.kind r
    match parts.findSome? (s.partFate x c.outward) with
    | some f => f
    | none => if c.outward && (match parts.head? with | some q => !s.partRoom q | none => false) then .blocked else .goes

/-! ## Moving a row -/

/-- Changes an operation of an engine by its place. -/
def State.modOp (s : State) (x : EngAt) (i : Nat) (f : EngOp → EngOp) : State :=
  s.modEngine x.team.id x.kind (fun e => { e with ops := modifyAt i f e.ops })

/-- R301: a row starts: its addresses are held, and its generators step. -/
def State.startRow (s : State) (x : EngAt) (i : Nat) (o : EngOp) : State :=
  if o.inRow then s
  else
    let c := engCode .access o.code
    let r := o.rowAt x.cluster.scratch
    let step := fun (c : Cluster) (n : Nat) => c.setGen n (c.gen n).step
    let gens := if c.indexed then [o.par 1] else copyGens c o.par
    (s.modCluster x.team.id (fun c => gens.foldl step c)).modOp x i (fun o => { o with
      inRow := true, offset := 0, gaddr := r.global, saddr := r.scratch })

/-- Bytes read join an entry being filled. -/
def QueueEntry.take (e : QueueEntry) (b : Landed) : QueueEntry :=
  { e with bytes := e.bytes ++ b.1, origin := if e.origin = 0 then b.2 else e.origin }

/-- Bytes read land at the scratchpad side, or join the entry that the operation fills (R167). -/
def Cluster.landRow (c : Cluster) (o : EngOp) (a : Nat) (b : Landed) : Cluster :=
  if engCode .access o.code = .mdfil then
    if o.par 1 = 0 then { c with metaFill := c.metaFill.take b } else { c with scaleFill := c.scaleFill.take b }
  else { c with scratch := c.scratch.land a b }

/-- R166, R385: one part of an inward row is read, as a relaxed load of the cluster at hub scope. -/
def State.engineRead (s : State) (x : EngAt) (hint : Nat) (a : Dword) (n : Nat) (y : XRes) : State × Landed :=
  match y with
  | .bad f => (s, freeBytes s.tick n, BitVec.ofNat 8 f.cause)
  | .ok y =>
    let h := x.cluster.id.hub
    let s1 := (s.touch (engineSpace x) a .read y).countMigration h x.team.asn a y
    match s.localError h (lineOfKey y.key) with
    | some e => (s1, freeBytes s.tick n, e)
    | none =>
      let r := s1.readBeyond h y.mode (effectivePolicy y.pol hint) (lineOfKey y.key)
      (r.1.modEngine x.team.id x.kind (fun e => { e with readStamp := maxTime e.readStamp r.2.2 }),
        (r.2.1.drop (y.key % 128)).take n, s1.originSeen h y.key n)

/-- R166: bytes of one line of a row are written, as a relaxed store of the cluster at hub scope. -/
def State.engineWrite (s : State) (x : EngAt) (o : EngOp) (row : Nat) (a : Dword) (y : Xlat) (cells : List (Nat × Byte)) : State :=
  let h := x.cluster.id.hub
  let s1 := (s.touch (engineSpace x) a .write y).countMigration h x.team.asn a y
  let made : MadeBy := { source := .engine x.kind o.id row, va := a - BitVec.ofNat 64 (y.key % 128), kernel := false }
  let entry : Combining := { team := x.team.id, gid := engineGid, line := lineOfKey y.key, bytes := cells, durable := y.dur, made := made }
  (s1.evictLine (lineOfKey y.key)).performEntry h entry

/-- One part of a row that goes. -/
def State.movePart (s : State) (x : EngAt) (o : EngOp) (r : RowAt) (q : Nat × Nat × XRes) : State :=
  let c := engCode .access o.code
  let a := r.global + BitVec.ofNat 64 q.1
  if c.outward then
    match q.2.2 with
    | .ok y => s.engineWrite x o o.row a y (cellsFrom y.key (x.cluster.scratch.readBytes (r.scratch + q.1) q.2.1))
    | .bad _ => s
  else
    let b := s.engineRead x (copyFlags c o.par / 2 % 8) a q.2.1 q.2.2
    b.1.modCluster x.team.id (fun k => k.landRow o (r.scratch + q.1) b.2)

/-- Moves parts while they have room; answers the offset that the row has reached. -/
def moveParts (x : EngAt) (o : EngOp) (r : RowAt) : List (Nat × Nat × XRes) → Nat → State → State × Nat
  | [], at_, s => (s, at_)
  | q :: qs, at_, s =>
    if (engCode .access o.code).outward && !s.partRoom q then (s, at_)
    else moveParts x o r qs (q.1 + q.2.1) (s.movePart x o r q)

/-- R167: a filled entry joins its queue. -/
def Cluster.pushEntry (c : Cluster) (sel width : Nat) : Cluster :=
  if sel = 0 then { c with metaFill := QueueEntry.fresh, metaQueue := c.metaQueue ++ [{ c.metaFill with width := width }] }
  else { c with scaleFill := QueueEntry.fresh, scaleQueue := c.scaleQueue ++ [{ c.scaleFill with width := width }] }

/-- R301: the row at the cursor has ended, or the cursor has reached an offset of it. -/
def State.endRow (s : State) (x : EngAt) (i : Nat) (o : EngOp) (width reached : Nat) : State :=
  if reached < width then s.modOp x i (fun o => { o with offset := reached })
  else
    let s1 := if engCode .access o.code = .mdfil then s.modCluster x.team.id (fun c => c.pushEntry (o.par 1) width) else s
    s1.modOp x i (fun o => { o with row := o.row + 1, offset := 0, inRow := false })

/-- R301, R302: a row that goes. A row from the cursor of a declined operation on lands poisoned with origin 0x2A, or is
not written; a row whose list entry is poisoned lands poisoned. -/
def State.moveRow (s : State) (x : EngAt) (i : Nat) (o : EngOp) : State :=
  let c := engCode .access o.code
  let p := x.cluster.scratch
  let r := o.rowAt p
  let origin := if o.declined then 0x2A else if c.indexed && !o.inRow then p.originIn (o.rowEntry o.row) 4 else 0
  let s1 := s.startRow x i o
  if origin ≠ 0 then
    let n := r.width - r.offset
    let s2 := if c.outward then s1
      else s1.modCluster x.team.id (fun k => k.landRow o (r.scratch + r.offset) (freeBytes s.tick n, origin))
    s2.endRow x i o r.width r.width
  else
    let parts := rowParts s x o.kind r
    let near := fun (q : Nat × Nat × XRes) => !x.cluster.frozen || decide (c = .mdfil) || q.1 == r.offset || (r.global.toNat + q.1) % 4096 != 0
    let m := moveParts x o r (parts.takeWhile near) r.offset s1
    m.1.endRow x i o r.width m.2

/-! ## Stops and faults of operations -/

/-- R299: an operation stops at a row with a fault of its engine; it and the operations launched after it are abandoned. -/
def State.opFault (s : State) (x : EngAt) (i : Nat) (cause : Byte) (row : Nat) (refusing : Byte) : State :=
  let o := x.engine.ops[i]?
  let s0 := (s.dropAsks (.event (.engineOpStart x.team.id x.kind))).dropAsks (.event (.engineTranslationFault x.team.id))
  let s1 := s0.modEngine x.team.id x.kind (fun e => { e with
    ops := e.ops.zipIdx.map (fun q => if q.2 < i then q.1 else { q.1 with abandoned := true }) })
  let s2 := s1.modOp x i (fun o => { o with row := row })
  match s2.engineAt x.team.id x.kind with
  | none => s2
  | some y =>
    let word := (o.map (fun o => o.word)).getD 0
    s2.engineFault y cause word word (BitVec.ofNat 64 (row + refusing.toNat * 2 ^ 32))

/-- R166, R385: the operation stops at its cursor with 0x43, and its page request comes due. -/
def State.stopOp (s : State) (x : EngAt) (i : Nat) (o : EngOp) (off : Nat) (f : XFault) : State :=
  let r := o.rowAt x.cluster.scratch
  let parts := (rowParts s x o.kind r).filter (fun q => decide (q.1 < off))
  let m := moveParts x o r parts r.offset (s.startRow x i o)
  if decide (m.2 < off) && !parts.isEmpty then m.1.modOp x i (fun o => { o with offset := m.2 })
  else
    (m.1.modOp x i (fun o => { o with
      offset := off, stopped := true, tag := none, stopCause := BitVec.ofNat 8 f.cause, stopWalk := f.val2.setWidth 8 })).due
      (.pageRequest (.engine x.team.id))

/-- R299: the bytes of a refused row and of the rows after it that can be written; which of them stand is not stated
(log 15). -/
def State.writeRefused (s : State) (x : EngAt) (o : EngOp) : State :=
  let p := x.cluster.scratch
  let c := engCode .access o.code
  let row := fun (s : State) (n : Nat) =>
    let r : RowAt := if n = o.row then o.rowAt p
      else { global := o.rowGlobal p n, scratch := o.rowScratch n, width := copyWidth c o.par, offset := 0 }
    if r.global.toNat % 16 ≠ 0 ∨ !rangeOk r.scratch r.width ∨ p.originIn r.scratch r.width ≠ 0 then s
    else (rowParts s x .write r).foldl (fun s q => match q.2.2, s.partFate x true q with
      | .ok y, none =>
        let bytes := p.readBytes (r.scratch + q.1) q.2.1
        let stands := (cellsFrom y.key bytes).filter (fun b => Config.freeByteStands s.tick (n * r.width + q.1 + (b.1 - y.key)))
        if stands = [] ∨ !s.partRoom q then s
        else
          s.engineWrite x o n (r.global + BitVec.ofNat 64 q.1) y stands
      | _, _ => s) s
  (List.range (opRows c o.par - o.row)).foldl (fun s n => row s (o.row + n)) s

/-- R166, R299: a write of an operation has been refused: the engine faults with 0x46 at a row. -/
def State.refuseOp (s : State) (x : EngAt) (i : Nat) (o : EngOp) (row : Nat) (cause : Byte) : State :=
  (s.writeRefused x o).opFault x i 0x46 row cause

end Sys2Proof.Machine
end

