-- ==== Sys2Proof/Machine/EngineArray.lean ====
section
/-! DEFINITION. The rows of the array, drain and kiln engines (R168 to R170, R292 to R297). -/

namespace Sys2Proof.Machine

/-- The first origin that is not 0. -/
def firstOrigin (os : List Byte) : Byte := (os.find? (fun o => o != 0)).getD 0

/-- A byte of a list as a number. -/
def byteAt (bs : List Byte) (i : Nat) : Nat := (bs.getD i 0).toNat

/-! ## Weights -/

/-- R167, R168: the bytes of a scale entry that a WPRE needs. -/
def scaleNeed (k scl : Nat) : Nat := 256 * (k / (if scl = 2 then 8 else 32))

/-- R168, R295, R296: a WPRE starts reading: its entries leave their queues and the shadow set's record is set. -/
def Cluster.beginSet (c : Cluster) (p : Nat → Nat) : Cluster :=
  let sparse := p 3 % 2 == 1
  let scaled := p 3 / 2 % 2 == 1
  let meta_ := if sparse then c.metaQueue.head? else none
  let scale := if scaled then c.scaleQueue.head? else none
  let originOf := fun (e : Option QueueEntry) => (e.map (fun e => e.origin)).getD 0
  let bytesOf := fun (e : Option QueueEntry) => (e.map (fun e => e.bytes)).getD []
  { c with
    metaQueue := if sparse then c.metaQueue.tail else c.metaQueue
    scaleQueue := if scaled then c.scaleQueue.tail else c.scaleQueue
    shadowSet :=
      { k := p 2, fmt := BitVec.ofNat 8 (c.bankByte (p 0)), sparse := sparse, scaled := scaled,
        band := BitVec.ofNat 16 (p 3 / 2 ^ 16), origin := firstOrigin [originOf scale, originOf meta_], rows := [],
        scales := bytesOf scale, metadata := bytesOf meta_ } }

/-- R168: the bytes of a stored row of a weight format. -/
def weightBytes (f : Byte) : Nat := storageBytes ((tileOfElem (bankElem f.toNat)).getD 0) 256

/-- R168: a row of weights is read into the shadow set. -/
def Cluster.loadRow (c : Cluster) (a : Nat) : Cluster :=
  let n := weightBytes c.shadowSet.fmt
  let w := c.shadowSet
  { c with shadowSet := { w with rows := w.rows ++ [c.scratch.readBytes a n], origin := firstOrigin [w.origin, c.scratch.originIn a n] } }

/-- R168: WSWP. -/
def Cluster.swapSets (c : Cluster) : Cluster := { c with active := c.shadowSet, shadowSet := c.active }

/-- R147, R168: an element of a weight set: stored row y, column. -/
def WeightSet.weight (w : WeightSet) (y col : Nat) : FVal :=
  let f := w.fmt.toNat
  let scl := bankScl f
  let block := if scl = 2 then 8 else 32
  let row := w.rows.getD y []
  scaledElement scl (tileElement ((tileOfElem (bankElem f)).getD 0) (byteAt row) col)
    (byteAt w.scales (col * (w.k / block) + y / block)) w.band.toNat

/-- R168: the metadata index of a cell. -/
def WeightSet.index (w : WeightSet) (y col : Nat) : Nat :=
  let b := 2 * (256 * y + col)
  byteAt w.metadata (b / 8) / 2 ^ (b % 8) % 4

/-- R168: the logical K of a stream through a set. -/
def WeightSet.logicalK (w : WeightSet) : Nat := if w.sparse then 2 * w.k else w.k

/-! ## Streams -/

/-- R168: the tile format of a stream's activations, none for a format of no class. -/
def Cluster.actFmt (c : Cluster) (p : Nat → Nat) : Option Nat := tileOfElem (bankElem (c.bankByte (p 0)))

/-- R171, R295: the checks of a STRM or STRMS as it starts. -/
def Cluster.streamOk (c : Cluster) (sparse : Bool) (p : Nat → Nat) : Bool :=
  let w := c.active
  let k := w.logicalK
  w.k != 0 && w.sparse == sparse &&
  (match c.actFmt p, tileOfElem (bankElem w.fmt.toNat) with
   | some a, some b => decide (tileClass a = tileClass b) && rowsOk (p 0) (p 1) (p 3) (storageBytes a k)
   | _, _ => false) &&
  (bankScl (c.bankByte (p 0)) != 1 || rowsOk (p 2) (k / 32) (p 3) ((k + 31) / 32))

/-- R147, R168: activation element e of a row whose bytes and scale bytes are given. -/
def actElement (f scl : Nat) (row scales : List Byte) (e : Nat) : FVal :=
  scaledElement scl (tileElement f (byteAt row) e) (byteAt scales (e / 32)) 0

/-- R148, R168: the groups of terms of a column: under sparse weights the stored rows whose elements fall into each group. DESIGN
CHOICE (log 79): an element from number K on, which an odd number of stored rows can name, is +0. -/
def streamGroups (w : WeightSet) (f : Nat) (acts : List FVal) (col : Nat) : List (List (FVal × FVal)) :=
  let size := tileGroup f
  let act := fun (e : Nat) => acts.getD e (.fin { neg := false, mag := 0, exp := 0 })
  let stored := if w.sparse then size / 2 else size
  (List.range ((w.k + stored - 1) / stored)).map (fun g =>
    (List.range (min stored (w.k - g * stored))).map (fun j =>
      let y := g * stored + j
      (act (if w.sparse then 4 * (y / 2) + w.index y col else y), w.weight y col)))

/-- An accumulator row of a cluster (R168). -/
def Cluster.accRow (c : Cluster) (r : Nat) : AccRow :=
  (c.acc.find? (fun a => a.row == r)).getD { row := r, cols := List.replicate 256 0, origin := 0 }

/-- Places a row among those that differ from cleared, by rising row. -/
def insertAcc (a : AccRow) : List AccRow → List AccRow
  | [] => [a]
  | b :: bs => if a.row < b.row then a :: b :: bs else b :: insertAcc a bs

def Cluster.setAcc (c : Cluster) (a : AccRow) : Cluster :=
  let rest := c.acc.filter (fun b => b.row != a.row)
  { c with acc := if a.origin = 0 ∧ a.cols.all (fun w => w == 0) then rest else insertAcc a rest }

/-- R168: row x of a STRM or STRMS, with the exceptions it raises. DESIGN CHOICE (log 79): where K is no multiple of 32, the scales of
a row start at floor(K / 32) bytes after those of the row before, and ceil(K / 32) of them are read. -/
def Cluster.streamRow (c : Cluster) (p : Nat → Nat) (x : Nat) : Cluster × Flags :=
  let w := c.active
  let k := w.logicalK
  let f := (c.actFmt p).getD 0
  let scl := bankScl (c.bankByte (p 0))
  let a := p 0 + x * p 1
  let n := storageBytes f k
  let at_ := p 2 + x * (k / 32)
  let scales := if scl = 1 then c.scratch.readBytes at_ ((k + 31) / 32) else []
  let row := c.scratch.readBytes a n
  let acts := (List.range k).map (actElement f scl row scales)
  let clr := p 5 % 2 == 1
  let old := c.accRow (p 4 + x)
  let res := (List.range 256).map (fun col =>
    (streamGroups w f acts col).foldl (addGroup (tileClass f == some .integer))
      { code := if clr then 0 else (old.cols.getD col 0).toNat, flags := 0 })
  let origin := firstOrigin [if clr then 0 else old.origin, c.scratch.originIn a n,
    if scl = 1 then c.scratch.originIn at_ ((k + 31) / 32) else 0, w.origin]
  (c.setAcc { row := p 4 + x, cols := res.map (fun r => BitVec.ofNat 32 r.code), origin := origin },
   res.foldl (fun fl r => fl ||| r.flags) 0)

/-! ## Drain -/

/-- Codes of a width as bytes; 4-bit codes two to a byte, 6-bit codes four to a word (R143). -/
def packCodes (width : Nat) (cs : List Nat) : List Byte :=
  let at_ := fun (i : Nat) => cs.getD i 0
  if width = 4 then (List.range (cs.length / 2)).map (fun i => BitVec.ofNat 8 (at_ (2 * i) + 16 * at_ (2 * i + 1)))
  else if width = 6 then (List.range (cs.length / 4)).flatMap (fun i =>
    toBytes 4 (at_ (4 * i) + 64 * at_ (4 * i + 1) + 64 ^ 2 * at_ (4 * i + 2) + 64 ^ 3 * at_ (4 * i + 3)))
  else cs.flatMap (toBytes (width / 8))

/-- R169, R294: row x of a DRN. -/
def Cluster.drainRow (c : Cluster) (p : Nat → Nat) (x : Nat) : Cluster × Flags :=
  let fmt := (bankDrainFmt (c.bankByte (p 2))).getD .f32
  let old := c.accRow (p 0 + x)
  let res := old.cols.map (fun v => convert (.float fmt) (.float .f32) (Rnd.ofCode (p 4 % 4)) (p 4 / 4 % 2 == 1) v.toNat)
  let bytes := packCodes fmt.width (res.map (fun r => r.code))
  let c1 := { c with scratch := c.scratch.land (p 2 + x * p 3) (bytes, old.origin) }
  (if p 4 / 8 % 2 = 1 then c1.setAcc { row := p 0 + x, cols := List.replicate 256 0, origin := 0 } else c1,
   res.foldl (fun fl r => fl ||| r.flags) 0)

/-- R169: row x of a DCLR. -/
def Cluster.clearRow (c : Cluster) (p : Nat → Nat) (x : Nat) : Cluster :=
  c.setAcc { row := p 0 + x, cols := List.replicate 256 0, origin := 0 }

/-! ## Kiln -/

/-- An element of a row of f32 or bf16, and the origin of its poison. -/
def Cluster.plainElement (c : Cluster) (f : Fmt) (a i : Nat) : FVal × Byte :=
  let n := f.width / 8
  (f.value (ofBytes (c.scratch.readBytes (a + n * i) n)), c.scratch.originIn (a + n * i) n)

/-- Writes a row, then poisons the bytes that carry an origin. -/
def Cluster.putRow (c : Cluster) (a : Nat) (bytes : List Byte) (poison : List (Nat × Nat × Byte)) : Cluster :=
  { c with scratch := poison.foldl (fun p q => if q.2.2 = 0 then p else p.poisonRange (a + q.1) q.2.1 q.2.2) (c.scratch.write a bytes) }

/-- R90, R170: row x of a KSCL. -/
def Cluster.sclRow (c : Cluster) (o : KilnPar) (x : Nat) : Cluster × Flags :=
  let f := (kilnFmt (c.bankByte o.src)).getD .f32
  let size := blockSize o.fmt
  let blocks := (List.range (o.cols / size)).map (fun j =>
    (List.range size).map (fun i => c.plainElement f (o.src + x * o.srcPitch) (j * size + i)))
  let res := blocks.map (fun b => blockScale o.fmt o.band (b.map (fun e => e.1)))
  (c.putRow (o.scale + x * o.scalePitch) (res.map (fun r => BitVec.ofNat 8 r.code))
     (blocks.zipIdx.map (fun b => (b.2, 1, firstOrigin (b.1.map (fun e => e.2))))),
   res.foldl (fun fl r => fl ||| r.flags) 0)

/-- The scale byte of an element of row x, and the origin of its poison. -/
def Cluster.scaleByte (c : Cluster) (o : KilnPar) (x i : Nat) : Nat × Byte :=
  let a := o.scale + x * o.scalePitch + i / blockSize o.fmt
  (ofBytes (c.scratch.readBytes a 1), c.scratch.originIn a 1)

/-- Where element i of a packed row stands: its first byte and how many it touches. -/
def packedPlace (k i : Nat) : Nat × Nat :=
  match (blockElem k).width with
  | 4 => (i / 2, 1)
  | 6 => (i / 4 * 4, 4)
  | _ => (i, 1)

/-- R91, R170: row x of a KPACK. -/
def Cluster.packRow (c : Cluster) (o : KilnPar) (x : Nat) : Cluster × Flags :=
  let f := (kilnFmt (c.bankByte o.src)).getD .f32
  let elems := (List.range o.cols).map (fun i =>
    let e := c.plainElement f (o.src + x * o.srcPitch) i
    let s := c.scaleByte o x i
    (packElement o.fmt e.1 s.1 o.band, firstOrigin [e.2, s.2]))
  (c.putRow (o.dst + x * o.dstPitch) (packCodes (blockElem o.fmt).width (elems.map (fun e => e.1.code)))
     (elems.zipIdx.map (fun e => ((packedPlace o.fmt e.2).1, (packedPlace o.fmt e.2).2, e.1.2))),
   elems.foldl (fun fl e => fl ||| e.1.flags) 0)

/-- The code of element i of a packed row. -/
def packedCode (k : Nat) (row : List Byte) (i : Nat) : Nat :=
  match (blockElem k).width with
  | 4 => byteAt row (i / 2) / 16 ^ (i % 2) % 16
  | 6 => ofBytes ((row.drop (i / 4 * 4)).take 4) / 64 ^ (i % 4) % 64
  | _ => byteAt row i

/-- R92, R170, R293: row x of a KUNPK. -/
def Cluster.unpackRow (c : Cluster) (o : KilnPar) (x : Nat) : Cluster × Flags :=
  let f := (kilnFmt (c.bankByte o.dst)).getD .f32
  let a := o.src + x * o.srcPitch
  let row := c.scratch.readBytes a (packedBytes o.fmt o.cols)
  let n := f.width / 8
  let elems := (List.range o.cols).map (fun i =>
    let s := c.scaleByte o x i
    let at_ := packedPlace o.fmt i
    (unpackElement o.fmt f (packedCode o.fmt row i) s.1 o.band, firstOrigin [c.scratch.originIn (a + at_.1) at_.2, s.2]))
  (c.putRow (o.dst + x * o.dstPitch) (packCodes f.width (elems.map (fun e => e.1.code)))
     (elems.zipIdx.map (fun e => (n * e.2, n, e.1.2))),
   elems.foldl (fun fl e => fl ||| e.1.flags) 0)

/-! ## A row of any of these engines -/

/-- What becomes of the cursor row of an operation of the array, drain or kiln engine: a WPRE needs its queue entries
(R296), of which a scale entry must be long enough (R167); a stream is checked as it starts (R171, R295). -/
def Cluster.rowFate (c : Cluster) (code : EngCode) (o : EngOp) : RowFate :=
  match code with
  | .wpre =>
    if o.row ≠ 0 then .goes
    else
      let sparse := o.par 3 % 2 == 1
      let scaled := o.par 3 / 2 % 2 == 1
      if (sparse && c.metaQueue.isEmpty) || (scaled && c.scaleQueue.isEmpty) then .blocked
      else if scaled && decide (((c.scaleQueue.head?.map (fun e => e.width)).getD 0) <
          scaleNeed (o.par 2) (bankScl (c.bankByte (o.par 0)))) then .operand
      else .goes
  | .strm => if o.row = 0 && !c.streamOk false o.par then .operand else .goes
  | .strms => if o.row = 0 && !c.streamOk true o.par then .operand else .goes
  | _ => .goes

/-- R168 to R170: one row of an operation. -/
def Cluster.runRow (c : Cluster) (code : EngCode) (o : EngOp) : Cluster × Flags :=
  match code with
  | .wpre => ((if o.row = 0 then c.beginSet o.par else c).loadRow (o.par 0 + o.row * o.par 1), 0)
  | .wswp => (c.swapSets, 0)
  | .strm | .strms => c.streamRow o.par o.row
  | .drn => c.drainRow o.par o.row
  | .dclr => (c.clearRow o.par o.row, 0)
  | .kscl => c.sclRow (kilnPar code o.par) o.row
  | .kpack => c.packRow (kilnPar code o.par) o.row
  | .kunpk => c.unpackRow (kilnPar code o.par) o.row
  | _ => (c, 0)

end Sys2Proof.Machine
end

