-- ==== Sys2Proof/Machine/EngineOps.lean ====
section
/-! DEFINITION. How engine operations start, go on and finish (R164, R292, R296, R299, R304), and the reports of engine
faults (R300). -/

namespace Sys2Proof.Machine

/-! ## Order within an engine -/

/-- Bytes or rows that an operation touches: a space, the first and how many. Space 0 is the scratchpad, 1 the accumulators,
2 and 3 the shadow and active sets, 4 and 5 the metadata and scale queues. -/
structure EngSpan where
  space : Nat
  first : Nat
  count : Nat

def EngSpan.meets (a b : EngSpan) : Bool :=
  a.space == b.space && decide (a.first < b.first + b.count) && decide (b.first < a.first + a.count)

def spansMeet (xs ys : List EngSpan) : Bool := xs.any (fun a => ys.any a.meets)

/-- Rows of n bytes at a pitch. -/
def rowSpans (a q m n : Nat) : List EngSpan := (List.range m).map (fun x => { space := 0, first := a + x * q, count := n })

/-- R292: what an operation reads. -/
def Cluster.opReads (c : Cluster) (k : EngineKind) (o : EngOp) : List EngSpan :=
  let code := engCode k o.code
  let p := o.par
  let kp := kilnPar code p
  let plain := fun (a : Nat) => kp.cols * ((kilnFmt (c.bankByte a)).getD .f32).width / 8
  match code with
  | .cpyin | .mdfil | .dclr => []
  | .cpyout => (List.range (p 3)).map (fun x => { space := 0, first := o.rowScratch x, count := p 2 })
  | .gath => [{ space := 0, first := p 2, count := 4 * p 4 }]
  | .scat => { space := 0, first := p 2, count := 4 * p 4 } ::
      (List.range (p 4)).map (fun x => { space := 0, first := o.rowScratch x, count := p 3 })
  | .wpre => rowSpans (p 0) (p 1) (p 2) (weightBytes (BitVec.ofNat 8 (c.bankByte (p 0))))
  | .wswp => [{ space := 2, first := 0, count := 1 }, { space := 3, first := 0, count := 1 }]
  | .strm | .strms =>
    let n := c.active.logicalK
    { space := 3, first := 0, count := 1 } :: { space := 1, first := p 4, count := p 3 } ::
      (rowSpans (p 0) (p 1) (p 3) (storageBytes ((c.actFmt p).getD 0) n) ++
       (if bankScl (c.bankByte (p 0)) = 1 then rowSpans (p 2) (n / 32) (p 3) ((n + 31) / 32) else []))
  | .drn => [{ space := 1, first := p 0, count := p 1 }]
  | .kscl => rowSpans kp.src kp.srcPitch kp.rows (plain kp.src)
  | .kpack => rowSpans kp.src kp.srcPitch kp.rows (plain kp.src) ++
      rowSpans kp.scale kp.scalePitch kp.rows (kp.cols / blockSize kp.fmt)
  | .kunpk => rowSpans kp.src kp.srcPitch kp.rows (packedBytes kp.fmt kp.cols) ++
      rowSpans kp.scale kp.scalePitch kp.rows (kp.cols / blockSize kp.fmt)

/-- R292: what an operation writes. -/
def Cluster.opWrites (c : Cluster) (k : EngineKind) (o : EngOp) : List EngSpan :=
  let code := engCode k o.code
  let p := o.par
  let kp := kilnPar code p
  match code with
  | .cpyin => (List.range (p 3)).map (fun x => { space := 0, first := o.rowScratch x, count := p 2 })
  | .gath => (List.range (p 4)).map (fun x => { space := 0, first := o.rowScratch x, count := p 3 })
  | .cpyout | .scat => []
  | .mdfil => [{ space := 4 + p 1, first := 0, count := 1 }]
  | .wpre => [{ space := 2, first := 0, count := 1 }]
  | .wswp => [{ space := 2, first := 0, count := 1 }, { space := 3, first := 0, count := 1 }]
  | .strm | .strms => [{ space := 1, first := p 4, count := p 3 }]
  | .drn => (if p 4 / 8 % 2 = 1 then [{ space := 1, first := p 0, count := p 1 }] else []) ++
      rowSpans (p 2) (p 3) (p 1) (256 * ((bankDrainFmt (c.bankByte (p 2))).getD .f32).width / 8)
  | .dclr => [{ space := 1, first := p 0, count := p 1 }]
  | .kscl => rowSpans kp.scale kp.scalePitch kp.rows (kp.cols / blockSize kp.fmt)
  | .kpack => rowSpans kp.dst kp.dstPitch kp.rows (packedBytes kp.fmt kp.cols)
  | .kunpk => rowSpans kp.dst kp.dstPitch kp.rows (kp.cols * ((kilnFmt (c.bankByte kp.dst)).getD .f32).width / 8)

/-- R164, R167, R292, R296: whether an earlier operation of an engine keeps a later one from starting. Entries and weight
sets are filled in launch order. -/
def Cluster.holdsBack (c : Cluster) (k : EngineKind) (a b : EngOp) : Bool :=
  !a.started || a.stopped || spansMeet (c.opReads k a) (c.opWrites k b) || spansMeet (c.opWrites k a) (c.opReads k b) ||
  (engCode k a.code == .wpre && (a.row == 0 || engCode k b.code == .wpre)) ||
  (engCode k a.code == .mdfil && engCode k b.code == .mdfil && a.par 1 == b.par 1)

/-- Whether operation i of an engine may start. -/
def EngAt.mayStart (x : EngAt) (i : Nat) (o : EngOp) : Bool :=
  !x.cluster.frozen && !o.started && !o.abandoned && (x.engine.ops.take i).all (fun a => !x.cluster.holdsBack x.kind a o)

/-- R301: an operation whose every row is complete. -/
def EngOp.complete (k : EngineKind) (o : EngOp) : Bool := o.started && decide (opRows (engCode k o.code) o.par ≤ o.row)

/-- R304, R308: whether operation i of an engine may move on at its cursor: while its cluster freezes, only within a row of which
bytes have moved, to the next 4 KiB boundary or, for MDFIL, the end of the entry; not at all on a resumed cluster that is still
frozen. -/
def EngAt.mayMove (x : EngAt) (o : EngOp) : Bool :=
  o.started && !o.stopped && !o.abandoned && !o.complete x.kind &&
  (!x.cluster.frozen || (x.team.preempting && o.inRow && o.offset != 0 &&
    (engCode x.kind o.code == .mdfil || (o.gaddr.toNat + o.offset) % 4096 != 0)))

/-- What becomes of an operation's cursor row. -/
def State.opFate (s : State) (x : EngAt) (o : EngOp) : RowFate :=
  if x.kind = .access then s.rowFate x o else x.cluster.rowFate (engCode x.kind o.code) o

/-- The operations of an engine with their places. -/
def EngAt.placed (x : EngAt) : List (EngOp × Nat) := x.engine.ops.zipIdx

/-- The operations that may start, or whose row may go on or meets an operand fault or a refusal. -/
def State.opTurns (s : State) (x : EngAt) : List (EngOp × Nat) :=
  x.placed.filter (fun q => x.mayStart q.2 q.1 || (x.mayMove q.1 && (match s.opFate x q.1 with
    | .goes => true
    | .operand => true
    | .refused _ => true
    | _ => false)))

/-- The operations whose row stops with 0x43, while none is stopped (R302), or meets poison at store. -/
def State.opStops (s : State) (x : EngAt) : List (EngOp × Nat) :=
  x.placed.filter (fun q => !x.engine.ops.any (fun o => o.stopped) && x.mayMove q.1 && (match s.opFate x q.1 with
    | .stops _ _ => true
    | _ => false))
def State.opPoisons (s : State) (x : EngAt) : List (EngOp × Nat) :=
  x.placed.filter (fun q => x.mayMove q.1 && decide (s.opFate x q.1 = .poisoned))

/-- R164: whether the oldest operation may finish: complete, its writes answered, and room for its token. -/
def State.mayFinish (s : State) (x : EngAt) : Bool :=
  match x.engine.ops.head? with
  | none => false
  | some o =>
    o.complete x.kind && !o.abandoned && !x.cluster.frozen &&
    (!(engCode x.kind o.code).outward || !s.txns.any (fun t => t.team == x.team.id && t.gid == engineGid)) &&
    (o.push == 0 || decide (x.cluster.tokenCount o.push < 16))

/-! ## Steps -/

/-- Picks among operations (log 1). -/
def pickOp (s : State) (qs : List (EngOp × Nat)) : Option (EngOp × Nat) :=
  match qs with
  | [] => none
  | [q] => some q
  | qs => qs[Config.freeChoice (s.tick + 2000000) % qs.length]?

/-- R164, R301: one turn of an operation: it starts, or its cursor row moves. -/
def State.turnOp (s : State) (x : EngAt) (q : EngOp × Nat) : State :=
  let o := q.1
  let i := q.2
  if !o.started then s.modOp x i (fun o => { o with started := true })
  else match s.opFate x o with
    | .operand => (if x.kind = .access then s.startRow x i o else s).opFault x i 0x42 o.row 0
    | .refused cause => (s.startRow x i o).refuseOp x i o o.row cause
    | .goes =>
      if x.kind = .access then s.moveRow x i o
      else
        let r := x.cluster.runRow (engCode x.kind o.code) o
        (s.modCluster x.team.id (fun _ => r.1)).modOp x i (fun o => { o with row := o.row + 1, flags := o.flags ||| r.2 })
    | _ => s

/-- R164: ENGINE_OP_START: an operation starts; its rows then go on, one in each further turn of this step. -/
def execEngineOpStart (team : Nat) (engine : EngineKind) (s : State) : Host.Outcome State Fault Refusal :=
  match s.engineAt team engine with
  | none => .next s
  | some x => match pickOp s (s.opTurns x) with
    | none => .next s
    | some q => .next (s.closeEvent (.engineOpStart team engine) (s.turnOp x q))

/-- R164, R297: ENGINE_OP_FINISH: the oldest operation's exceptions reach the status, it pushes its token, and it is no
longer outstanding. -/
def execEngineOpFinish (team : Nat) (engine : EngineKind) (s : State) : Host.Outcome State Fault Refusal :=
  match s.engineAt team engine with
  | none => .next s
  | some x =>
    if !s.mayFinish x then .next s
    else match x.engine.ops with
      | [] => .next s
      | o :: rest =>
        let s1 := s.modCluster team (fun c =>
          let c1 := { c with efpst := c.efpst ||| o.flags.setWidth 64 }
          if o.push = 0 then c1 else c1.setTokens o.push (c1.tokenCount o.push + 1))
        .next ((s1.modEngine team engine (fun e => { e with ops := rest })).engineProgress x.team)

/-- R166, R301: ENGINE_TRANSLATION_FAULT: an access operation stops at its cursor with 0x43. -/
def execEngineTranslationFault (team : Nat) (s : State) : Host.Outcome State Fault Refusal :=
  match s.engineAt team .access with
  | none => .next s
  | some x => match pickOp s (s.opStops x) with
    | none => .next s
    | some q => match s.opFate x q.1 with
      | .stops off f => .next (s.closeEvent (.engineTranslationFault team) (s.stopOp x q.2 q.1 off f))
      | _ => .next s

/-- R299: ENGINE_POISON_AT_STORE: the engine faults with 0x44, and nothing of the row is written. -/
def execEnginePoisonAtStore (team : Nat) (s : State) : Host.Outcome State Fault Refusal :=
  match s.engineAt team .access with
  | none => .next s
  | some x => match pickOp s (s.opPoisons x) with
    | none => .next s
    | some q => .next ((s.startRow x q.2 q.1).opFault x q.2 0x44 q.1.row 0)

/-- R299: the rows of an operation whose writes have been refused so far. -/
def State.refusedRows (s : State) (team op : Nat) : List Nat :=
  s.txns.filterMap (fun x => match x.kind, x.error with
    | .write _ how, some _ => (match how.made.source with
        | .engine _ o row => if x.team = team ∧ o = op then some row else none
        | _ => none)
    | _, _ => none)

/-- R299, R422: a refusal returns for a row of an operation of the access engine, which faults with 0x46 at the earliest refused
row; one that has been abandoned only keeps its cursor there. -/
def State.engineRefused (s : State) (team op row : Nat) (cause : Byte) : State :=
  match s.engineAt team .access with
  | none => s
  | some x => match x.placed.find? (fun q => q.1.id == op) with
    | none => s
    | some q =>
      let first := (s.refusedRows team op).foldl min row
      if q.1.abandoned then s.modOp x q.2 (fun o => { o with row := min o.row first })
      else s.refuseOp x q.2 q.1 first cause

/-- R299: ENGINE_WRITE_REFUSED: the oldest operation that writes global memory has a write refused, at its cursor. -/
def execEngineWriteRefused (team : Nat) (cause : Byte) (s : State) : Host.Outcome State Fault Refusal :=
  match s.engineAt team .access with
  | none => .next s
  | some x => match x.engine.ops.find? (fun o => o.started && !o.abandoned && (engCode .access o.code).outward) with
    | none => .next s
    | some o => .next (s.engineRefused team o.id (min o.row (opRows (engCode .access o.code) o.par - 1)) cause)

/-! ## The end of an array team, and the reports -/

/-- R220: an array team whose control core has executed EXIT is killed by a faulted engine, and retires once every engine
is stopped. -/
def State.settleArray (s : State) (tid : Nat) : State :=
  match s.team? tid with
  | none => s
  | some t => match t.cluster with
    | none => s
    | some c =>
      if !c.exited then s
      else
        let es := [c.access, c.array, c.drain, c.kiln]
        match es.find? (fun e => decide (e.state = .faulted)) with
        | some e => s.killTeam tid e.cause
        | none =>
          if es.all (fun e => decide (e.state = .stopped)) && t.groups.all (fun g => g.slotFreed) then s.retireTeam tid else s

/-- R290: ENGINE_STOP: HALT completes. -/
def execEngineStop (team : Nat) (engine : EngineKind) (s : State) : Host.Outcome State Fault Refusal :=
  match s.engineAt team engine with
  | none => .next s
  | some x =>
    if x.engine.halting && x.engine.ops.isEmpty && decide (x.engine.state = .running) && !x.cluster.frozen then
      .next (((s.modEngine team engine Engine.stop).engineProgress x.team).settleArray team)
    else .next s

/-- R300: ENGINE_FAULT_REPORT: the control core takes the report of its lowest-numbered faulted engine, unless it runs a handler; its
wait in ENGS is abandoned. One that has executed EXIT leaves the team killed. -/
def execEngineFaultReport (team : Nat) (s : State) : Host.Outcome State Fault Refusal :=
  if ((s.team? team).bind (fun t => t.cluster)).any (fun c => c.exited) then .next (s.settleArray team)
  else .next (s.takeNow team 0 AsyncCause.isEngine)

/-! ## Open steps -/

/-- The steps that stand open for the engines of a cluster. -/
def State.openEngines (s : State) : List Instr :=
  s.teams.flatMap (fun t => match t.cluster with
    | none => []
    | some c =>
      if t.life ≠ .running then []
      else
        [EngineKind.access, .array, .drain, .kiln].flatMap (fun k => match s.engineAt t.id k with
          | none => []
          | some x =>
            (if (s.opTurns x).isEmpty then [] else [Instr.engineOpStart t.id k]) ++
            (if s.mayFinish x then [Instr.engineOpFinish t.id k] else []) ++
            (if x.engine.halting && x.engine.ops.isEmpty && !c.frozen then [Instr.engineStop t.id k] else []) ++
            (if k = .access then
              (if (s.opStops x).isEmpty then [] else [Instr.engineTranslationFault t.id]) ++
              (if (s.opPoisons x).isEmpty then [] else [Instr.enginePoisonAtStore t.id])
             else [])))

end Sys2Proof.Machine
end

