-- ==== Sys2Proof/Machine/CtrlReg.lean ====
section
/-! DEFINITION. Control registers: MFCR and MTCR (R176, R177, R283, R298, R376, R394), bank format writes (R283), the end of
the control core's residence (R305), and the completion of page requests (R386). -/

namespace Sys2Proof.Machine

/-! ## Access -/

/-- The columns of R176. -/
inductive CrMode where
  | hidden | ro | rw | wo
deriving DecidableEq, Repr

/-- R176, R283, R298, R376, R394: how a register is reached at a level by a core; none for a number that is not assigned
there. -/
def crMode (kernel scalar control : Bool) (n : Nat) : Option CrMode :=
  let both := fun (t k : CrMode) => some (if kernel then k else t)
  let inS := fun (x : Option CrMode) => if scalar then x else none
  let inControl := fun (x : Option CrMode) => if control then x else none
  match n with
  | 0x000 | 0x001 | 0x002 | 0x003 | 0x004 | 0x005 | 0x006 | 0x007 => both .hidden .rw
  | 0x008 => both .ro .rw
  | 0x009 | 0x00A | 0x00B | 0x00D | 0x00E => both .hidden .rw
  | 0x00C => both .hidden .ro
  | 0x010 => both .rw .rw
  | 0x011 | 0x012 | 0x013 | 0x014 => both .ro .rw
  | 0x015 | 0x040 | 0x041 | 0x042 | 0x043 | 0x044 => both .ro .ro
  | 0x020 | 0x021 | 0x022 | 0x024 | 0x025 | 0x026 | 0x028 | 0x029 | 0x02A | 0x02C => inS (both .ro .rw)
  | 0x060 | 0x061 | 0x062 => inControl (both .rw .rw)
  | 0x063 => inControl (both .hidden .wo)
  | _ => none

/-- The mode of a register for the group that issues. -/
def State.crModeNow (s : State) (n : Nat) : Option CrMode :=
  match s.issuer with
  | none => none
  | some (_, g, u, _) => crMode g.kernel (decide (g.profile = .S)) (isControlCore u) n

/-! ## Reading -/

/-- R188: a location in the layout of names, with generation 0. -/
def locWord (package : Nat) (h : HubId) (chiplet core slot : Nat) : Dword :=
  BitVec.ofNat 64 (package * 2 ^ 54 + hubNumber h * 2 ^ 53 + chiplet * 2 ^ 49 + core * 2 ^ 43 + slot * 2 ^ 37)

/-- R188: a core's number in its chiplet. -/
def unitCore : CoreUnit → Nat
  | .vector c => c.core
  | .scalar _ n => n
  | .control c => c.core

/-- R176: LOC of a group on a core. -/
def groupLoc (package : Nat) (u : CoreUnit) (g : Group) : Dword := locWord package (unitHub u) (unitChiplet u) (unitCore u) g.slot

/-- R177: TSTAT. -/
def tstat (g : Group) : Dword :=
  let flag := fun (b : Bool) (n : Nat) => if b then 2 ^ n else 0
  let level := fun (l : Level) => if l = .kernel then 1 else 0
  BitVec.ofNat 64 (level g.trap.level + 4 * level g.trap.plvl + flag g.trap.nest 4 + flag g.harvest 5 + flag g.trap.lsus 6 +
    256 * g.trap.epri.toNat + 65536 * g.trap.edep.toNat + flag g.trap.rstg 24)

/-- R376: EVST. -/
def evstWord (h : Hub) : Dword := BitVec.ofNat 64 (h.events.length % 128 + (if h.evtLost then 128 else 0))

def Group.loopLevel (g : Group) (i : Nat) : LoopLevel := g.loops.getD i { cnt := 0, sta := 0, lend := 0 }

/-- The value of a control register. -/
def State.readCr (s : State) (c : Ctx) (n : Nat) : Dword :=
  let g := c.group
  let h := s.hub c.hub
  match n with
  | 0x000 => tstat g
  | 0x001 => g.trap.cause.setWidth 64
  | 0x002 => g.trap.epc
  | 0x003 => g.trap.val
  | 0x004 => g.trap.val2
  | 0x005 => g.trap.mask
  | 0x006 => c.team.ktvec
  | 0x007 => evstWord h
  | 0x008 => c.team.asn.setWidth 64
  | 0x009 => c.team.ptroot
  | 0x00A => BitVec.ofNat 64 (h.prqLsz.toNat + h.prqBase.toNat)
  | 0x00B => h.prqh.setWidth 64
  | 0x00C => h.prqt.setWidth 64
  | 0x00D => if g.prqRes then 1 else 0
  | 0x00E => BitVec.ofNat 64 (h.evtCore.toNat + (if h.evtEn then 32 else 0))
  | 0x010 => g.regs.fpst
  | 0x011 => porigWord g.regs.porig
  | 0x012 => g.regs.porig.pc
  | 0x013 => g.regs.porig.address
  | 0x014 => g.regs.porig.count.setWidth 64
  | 0x015 => c.team.rbcnt.setWidth 64
  | 0x020 | 0x021 | 0x022 => (g.loopLevel (n - 0x020)).cnt.setWidth 64
  | 0x024 | 0x025 | 0x026 => (g.loopLevel (n - 0x024)).sta
  | 0x028 | 0x029 | 0x02A => (g.loopLevel (n - 0x028)).lend
  | 0x02C => BitVec.ofNat 64 g.ldep
  | 0x040 => s.cycle
  | 0x041 => h.lclk
  | 0x042 => groupLoc s.flash.package c.unit g
  | 0x043 => c.team.hlim
  | 0x044 => s.tbase
  | 0x060 => ((c.team.cluster.map (fun k => k.bfmtl)).getD 0)
  | 0x061 => ((c.team.cluster.map (fun k => k.bfmth)).getD 0)
  | 0x062 => ((c.team.cluster.map (fun k => k.efpst)).getD 0)
  | _ => 0

/-- R176: MFCR. -/
def execMfcr (w : MainWord) (s : State) : Host.Outcome State Fault Refusal :=
  let n := w.x.toNat
  let mode := s.crModeNow n
  let g : Sig := { op := 0x383, privileged := decide (mode = some .hidden), priv2 := BitVec.ofNat 64 n,
                   d := .dst 64 statusCode, mOk := w.m == 0, xMask := 0xFFF,
                   fieldsOk := decide (mode = some .ro) || decide (mode = some .rw) }
  runMain s g w (fun s c =>
    if c.active = 0 then .done s
    else .done (s.modGroup c.tid c.gid (fun x => writeScalar x w.d (s.readCr c n) (decide (c.guardPoison ≠ 0)))))

/-! ## Writing the registers of a group -/

/-- R177: a write to TSTAT. -/
def writeTstat (t : TrapRegs) (v : Dword) : TrapRegs :=
  { t with
    plvl := match bits v 3 2 with | 0 => .task | 1 => .kernel | _ => t.plvl
    nest := v.getLsbD 4, epri := v.extractLsb' 8 8, edep := v.extractLsb' 16 8 }

def Group.modLoop (g : Group) (i : Nat) (f : LoopLevel → LoopLevel) : Group := { g with loops := modifyAt i f g.loops }

/-- A write to a register of group scope, or of a scalar core's loops (R67). -/
def Group.writeCr (g : Group) (n : Nat) (v : Dword) : Group :=
  match n with
  | 0x000 => { g with trap := writeTstat g.trap v }
  | 0x001 => { g with trap := { g.trap with cause := v.extractLsb' 0 7 } }
  | 0x002 => { g with trap := { g.trap with epc := v } }
  | 0x003 => { g with trap := { g.trap with val := v } }
  | 0x004 => { g with trap := { g.trap with val2 := v } }
  | 0x005 => { g with trap := { g.trap with mask := v } }
  | 0x010 => { g with regs := { g.regs with fpst := v &&& fpstWritable } }
  | 0x011 => { g with regs := { g.regs with porig := setPorig g.regs.porig v } }
  | 0x012 => { g with regs := { g.regs with porig := { g.regs.porig with pc := v } } }
  | 0x013 => { g with regs := { g.regs with porig := { g.regs.porig with address := v } } }
  | 0x014 => { g with regs := { g.regs with porig := { g.regs.porig with count := loWord v } } }
  | 0x020 | 0x021 | 0x022 => g.modLoop (n - 0x020) (fun l => { l with cnt := loWord v })
  | 0x024 | 0x025 | 0x026 => g.modLoop (n - 0x024) (fun l => { l with sta := v })
  | 0x028 | 0x029 | 0x02A => g.modLoop (n - 0x028) (fun l => { l with lend := v })
  | 0x02C => { g with ldep := bits v 1 0 }
  | _ => g

/-! ## Writing the registers of a hub -/

/-- R376: a write to a register of hub scope. -/
def Hub.writeCr (h : Hub) (n : Nat) (v : Dword) : Hub :=
  match n with
  | 0x007 => { h with evtLost := h.evtLost && !v.getLsbD 7 }
  | 0x00A => { h with
      prqLsz := if 4 ≤ bits v 3 0 ∧ bits v 3 0 ≤ 12 then v.extractLsb' 0 4 else h.prqLsz
      prqBase := tableBits v }
  | 0x00B => { h with prqh := loWord v }
  | 0x00E => { h with evtCore := v.extractLsb' 0 5, evtEn := v.getLsbD 5 }
  | _ => h

/-! ## Page requests -/

/-- R302: the stopped operation of a team's access engine, with its place. -/
def State.stoppedOp (s : State) (tid : Nat) : Option (EngAt × Nat) :=
  match s.engineAt tid .access with
  | none => none
  | some x => (x.placed.find? (fun q => q.1.stopped)).map (fun q => (x, q.2))

/-- R185, R302: a stopped operation is resumed, or declined. -/
def State.disposeOp (s : State) (tid : Nat) (decl : Bool) : State :=
  match s.stoppedOp tid with
  | none => s
  | some (x, i) => s.modOp x i (fun o => { o with stopped := false, tag := none, declined := decl })

/-- R125, R386: a stopped copy is resumed, or declined. -/
def State.disposeCopy (s : State) (tid id : Nat) (decl : Bool) : State :=
  match s.copyAt tid id with
  | none => s
  | some x =>
    if decl then s.declineCopy x
    else s.modTeam tid (fun t => { t with
      copies := updateWhere (fun y => y.id == id) (fun y => { y with stopped := false, tag := none }) t.copies })

/-- R386: the request of a tag is completed; none when no request has it. -/
def State.completeRequest (s : State) (h : HubId) (tag : Half) (decl : Bool) : Option State :=
  ((s.hub h).requests.find? (fun r => r.tag == tag)).map (fun r =>
    let s1 := s.modHub h (fun x => { x with requests := x.requests.filter (fun y => y.tag != tag) })
    match r.source with
    | .copy team copy => s1.disposeCopy team copy decl
    | .engine team => s1.disposeOp team decl)

/-- R386: PRQC_RESUME. -/
def execPrqcResume (hub : HubId) (tag : Half) (s : State) : Host.Outcome State Fault Refusal :=
  .next ((s.completeRequest hub tag false).getD s)

/-- R386: PRQC_DECLINE. -/
def execPrqcDecline (hub : HubId) (tag : Half) (s : State) : Host.Outcome State Fault Refusal :=
  .next ((s.completeRequest hub tag true).getD s)

/-- R376, R386: a write to PRQC. -/
def writePrqc (s : State) (c : Ctx) (v : Dword) : Res :=
  (s.release c 3 false).andThen (fun s1 =>
    let r := s1.completeRequest c.hub (v.extractLsb' 0 16) (v.getLsbD 16)
    .done ((r.getD s1).modGroup c.tid c.gid (fun g => { g with prqRes := r.isNone })))

/-! ## Bank formats -/

/-- R283: a format byte that may be written. -/
def bankByteOk (b : Nat) : Bool :=
  let scl := bankScl b
  let elem := bankElem b
  decide (b < 128) && ((tileOfElem elem).isSome || elem == 0) &&
  (scl == 0 || (scl == 1 && decide (4 ≤ elem ∧ elem ≤ 8)) || (scl == 2 && elem == 8))

/-- R283: the eight bytes of a format register. -/
def bankBytes (v : Dword) : List Nat := (List.range 8).map (fun i => bits v (8 * i + 7) (8 * i))

/-- R283: the banks that an outstanding operation names; a range whose length no set gives yet names the bank it starts in. -/
def Cluster.opBanks (c : Cluster) (k : EngineKind) (o : EngOp) : List Nat :=
  ((c.opReads k o ++ c.opWrites k o).filter (fun x => x.space == 0)).flatMap (fun x =>
    [x.first / 2 ^ 20 % 16, (x.first + (max x.count 1 - 1)) / 2 ^ 20 % 16])

/-- R283: whether no outstanding operation names a bank whose byte changes. -/
def Cluster.formatsFree (c : Cluster) (high : Bool) (v : Dword) : Bool :=
  let old := if high then c.bfmth else c.bfmtl
  let changed := ((bankBytes old).zip (bankBytes v)).zipIdx.filterMap (fun x =>
    if x.1.1 = x.1.2 then none else some (x.2 + if high then 8 else 0))
  [EngineKind.access, .array, .drain, .kiln].all (fun k =>
    (c.engine k).ops.all (fun o => !(c.opBanks k o).any changed.contains))

def Cluster.setFormats (c : Cluster) (high : Bool) (v : Dword) : Cluster :=
  if high then { c with bfmth := v } else { c with bfmtl := v }

/-- R283: BANK_FORMAT_WRITE: the formats are set once no affected operation is outstanding. -/
def execBankFormatWrite (team : Nat) (high : Bool) (value : Dword) (s : State) : Host.Outcome State Fault Refusal :=
  match (s.team? team).bind (fun t => t.cluster) with
  | none => .next s
  | some c =>
    if (bankBytes value).all bankByteOk && c.formatsFree high value then .next (s.modCluster team (fun c => c.setFormats high value))
    else .next s

/-- R283: an MTCR of BFMTL or BFMTH. -/
def writeFormats (s : State) (c : Ctx) (w : MainWord) (high : Bool) (v : Dword) : Res :=
  match c.team.cluster with
  | none => .done s
  | some k =>
    if !(bankBytes v).all bankByteOk then .trap (c.whole 0x02 (mainBits 0x384 w) 1)
    else if !k.formatsFree high v then .wait s .bankFormat
    else .done (s.modCluster c.tid (fun k => k.setFormats high v))

/-! ## The end of the control core's residence -/

/-- R305: the control core's residence ends; the hub's save of the cluster comes due. -/
def State.endControl (s : State) (tid : Nat) : State :=
  let s1 := s.modGroup tid 0 (fun g => { g with saved := true, preemptedAt := none, handling := none })
  ((s1.modTeam tid (fun t => { t with life := .saving })).undue (.saveBudgetExpiry tid 0)).due (.teamSaveComplete tid)

/-- R305: CRES. -/
def execCres (team : Nat) (s : State) : Host.Outcome State Fault Refusal :=
  match s.group? team 0, (s.team? team).bind (fun t => t.cluster) with
  | some g, some _ => if g.handling.isSome then .next (s.endControl team) else .next s
  | _, _ => .next s

/-- R305: an MTCR of CRES; the instruction completes before the residence ends. -/
def writeCres (s : State) (c : Ctx) (w : MainWord) (v : Dword) : Res :=
  if v = 0 then .done s
  else if v ≠ 1 ∨ c.group.handling.isNone then .trap (c.whole 0x02 (mainBits 0x384 w) 1)
  else .gone ((s.advance c (fallThrough c w) 0 none).endControl c.tid)

/-- What an MTCR writes. -/
def State.writeCr (s : State) (c : Ctx) (w : MainWord) (n : Nat) (v : Dword) : Res :=
  match n with
  | 0x006 => .done (s.modTeam c.tid (fun t => { t with ktvec := v &&& ~~~0xFF }))
  | 0x008 => .done (s.modTeam c.tid (fun t => { t with asn := v.extractLsb' 0 16 }))
  | 0x009 => .done (s.modTeam c.tid (fun t => { t with ptroot := tableBits v }))
  | 0x007 | 0x00A | 0x00B | 0x00E => .done (s.modHub c.hub (fun h => h.writeCr n v))
  | 0x00D => writePrqc s c v
  | 0x060 => writeFormats s c w false v
  | 0x061 => writeFormats s c w true v
  | 0x062 => .done (s.modCluster c.tid (fun k => { k with efpst := v &&& 0x1F }))
  | 0x063 => writeCres s c w v
  | _ => .done (s.modGroup c.tid c.gid (fun g => g.writeCr n v))

/-- R176: MTCR. -/
def execMtcr (w : MainWord) (s : State) : Host.Outcome State Fault Refusal :=
  let n := w.x.toNat
  let mode := s.crModeNow n
  let g : Sig := { op := 0x384, privileged := decide (mode = some .hidden), priv2 := BitVec.ofNat 64 n, a := uniformSource,
                   mOk := w.m == 0, xMask := 0xFFF, fieldsOk := decide (mode = some .rw) || decide (mode = some .wo) }
  runMain s g w (fun s c =>
    if c.active = 0 then .done s
    else s.writeCr c w n ((g.opA c w).val (lowestLane c.active)))

/-- R236: REGISTER_WRITE: a write at kernel level to a register of a hub's queue register space. -/
def execRegisterWrite (hub : HubId) (offset : Nat) (value : Dword) (s : State) : Host.Outcome State Fault Refusal :=
  .next (s.writeQueueSpace hub true offset value)

end Sys2Proof.Machine
end

