-- ==== Sys2Proof/Machine/Launch.lean ====
section
/-! DEFINITION. LNCH and the queue window's doorbell (R180, R235, R442), ENGS (R183, R184) and ENGR (R185). -/

namespace Sys2Proof.Machine

/-! ## Offering a packet -/

/-- R429, R442: the host as a master. -/
def hostSpace : Space :=
  { asn := 0, ptroot := 0, hub := .h0, tenant := 0, kernel := true, masterHub := .h0, pos := 8, tlb := none }

/-- A packet as accepted (R235, R239), with the clock that its acceptance releases (R326). -/
def Packet.accepted (seq : Nat) (raw : List Byte) (clock : Dword) : Packet :=
  { seq := seq, raw := raw, clock := clock, life := .queued, desc := none, map := none, index := none, window := [], satisfied := [],
    teams := 0, mailRefused := none }

/-- R235: the queue takes a packet. -/
def Queue.accept (q : Queue) (raw : List Byte) (clock : Dword) : Queue :=
  { q with packets := q.packets ++ [Packet.accepted q.nextSeq raw clock], nextSeq := q.nextSeq + 1 }

/-- R429: the right to launch, and to send mail. A launch and a mail have no address; the tables are asked for address 0. -/
def launchRight : Nat := 4
def mailRight : Nat := 3

/-- R326, R331: what an acceptance releases: the clock of the launching agent's hub, or the clocks of both hubs, which the host's
writes have raised. -/
def State.releasedClock (s : State) (sp : Space) : Dword :=
  if sp.pos = hostSpace.pos then maxTime s.hub0.lclk s.hub1.lclk else (s.hub sp.masterHub).lclk

/-- R180, R235, R331: a packet offered to a queue: the status and the state; a packet that could not be read is none. Acceptance acquires
what the offer released: the hub reads the launch no older than that. -/
def State.offerPacket (s : State) (h : HubId) (q : Nat) (sp : Space) (raw : Option (List Byte)) : State × Nat :=
  let queue := (s.hub h).queue q
  if !queue.en then (s, 4)
  else match raw with
    | none => (s, 3)
    | some bytes =>
      if !s.admits (.launch h q) sp 0 launchRight then (s, 2)
      else if 16 ≤ queue.packets.length then (s, 1)
      else ((s.modQueue h q (fun x => x.accept bytes (s.releasedClock sp))).modHub h (fun x => x.raise (s.releasedClock sp)), 0)

/-- R180: the packet at an address, none when it is misaligned, not translated, not readable, or cannot be read whole. -/
def State.readPacket (s : State) (c : Ctx) (a : Dword) : State × Option (List Byte) :=
  if a.toNat % 128 ≠ 0 then (s, none)
  else match translate s c.space a .read with
    | .bad _ => (s, none)
    | .ok x =>
      if (s.hubReach c.hub x 128).isSome then (s, none)
      else
        let r := s.hubFetch c.space a 128 x
        (r.1, if r.2.2 = 0 then some r.2.1 else none)

/-- R180: LNCH. A checkpointed or paired team may not launch (R400). DEDUCED (log 59): one to the other hub is an access across the bridge, and
traps with 0x60 when that has failed (R437). -/
def execLnch (w : MainWord) (s : State) : Host.Outcome State Fault Refusal :=
  let g : Sig := { op := 0x387, d := .dst 64 statusCode, a := uniformAddress, b := uniformSource, mOk := w.m == 0 }
  runMain s g w (fun s c =>
    if c.active = 0 then .done s
    else if c.team.staging then .trap (c.whole 0x28 0 0)
    else (s.release c 3 false).andThen (fun s1 =>
      let l := lowestLane c.active
      let a := g.opA c w
      let b := g.opB c w
      let v := b.val l
      let at_ := hubOfNumber (bits v 6 6)
      if v >>> 7 = 0 ∧ at_ ≠ c.hub ∧ !s1.bridgeUp then .trap (c.whole 0x60 (BitVec.ofNat 64 (s.peerNumberOf (peerOf at_))) 0) else
      let r := s1.readPacket c (a.val l)
      let o := if v >>> 7 ≠ 0 then (s1, 4) else r.1.offerPacket at_ (bits v 5 0) c.space r.2
      .done (o.1.modGroup c.tid c.gid (fun x =>
        writeScalar x w.d (BitVec.ofNat 64 o.2) (decide (c.guardPoison ≠ 0) || a.poison l || b.poison l)))))

/-- R235, R442: a queue window's packet is offered; a doorbell that arrives while BUSY is set is discarded. -/
def State.ringDoorbell (s : State) (hub : HubId) (queue : Nat) : State :=
  let q := (s.hub hub).queue queue
  if q.busy then s
  else
    let raw := (List.range 128).map (fun i => q.window.getD i 0)
    let r := s.offerPacket hub queue hostSpace (some raw)
    r.1.modQueue hub queue (fun x => { x with status := BitVec.ofNat 8 r.2 })

/-- R1, R436, R437, R440, R442: whether the host reaches a hub: the port stands on hub 0's link chiplet, which is not isolated; the hub
exists, no boot stage has failed there, and the bridge to hub 1 has not failed. -/
def State.hostReaches (s : State) (hub : HubId) : Bool :=
  !s.hub0.recovery && s.hub0.live.getLsbD 8 && s.hubPresent hub && !(s.hub hub).recovery && (decide (hub = .h0) || s.bridgeUp)

/-- R235, R442: DOORBELL; one that does not reach its hub offers nothing. -/
def execDoorbell (hub : HubId) (queue : Nat) (s : State) : Host.Outcome State Fault Refusal :=
  .next (if s.hostReaches hub then s.ringDoorbell hub queue else s)

/-! ## ENGS -/

/-- R183: the engine of a number. -/
def engineOf (n : Nat) : EngineKind :=
  match n % 4 with
  | 0 => .access
  | 1 => .array
  | 2 => .drain
  | _ => .kiln

/-- The operands of ENGS and ENGR as read once: the values of A and B, and whether either carries poison. -/
structure EngArgs where
  a : Dword
  b : Dword
  poison : Bool

def engArgs (g : Sig) (c : Ctx) (w : MainWord) : EngArgs :=
  let l := lowestLane c.active
  let a := g.opA c w
  let b := g.opB c w
  { a := a.val l, b := b.val l, poison := a.poison l || b.poison l || decide (c.guardPoison ≠ 0) }

/-- An ENGS of a control core on an engine of its own cluster. -/
def engsRun (s : State) (g : Sig) (w : MainWord) (body : State → Ctx → EngAt → EngArgs → Res) : Host.Outcome State Fault Refusal :=
  runMain s g w (fun s c =>
    if c.active = 0 then .done s
    else
      let r := engArgs g c w
      match s.engineAt c.tid (engineOf (bits r.a 1 0)) with
      | none => .done s
      | some x => body s c x r)

/-- Writes the status or value of ENGS. -/
def engsAnswer (s : State) (c : Ctx) (w : MainWord) (v : Nat) (poison : Bool) : Res :=
  .done (s.modGroup c.tid c.gid (fun x => writeScalar x w.d (BitVec.ofNat 64 v) poison))

/-- R183: ENGS.go starts an engine. -/
def Engine.go (e : Engine) (n : Nat) : Engine :=
  { e with pc := n, state := .running, stack := [], loops := List.replicate 3 { n := 0, m := 0, start := 0 },
           halting := false, took := false }

/-- R183: ENGS.go. DESIGN CHOICE (log 80): on a running or faulted engine the status is 1 or 3, whatever b is. -/
def execEngsGo (w : MainWord) (s : State) : Host.Outcome State Fault Refusal :=
  let g : Sig := { op := 0x388, inS := s.controlIssuer, inV := false, d := .dst 64 statusCode, a := uniformSource,
                   b := uniformSource, mOk := w.m == 0, imm := true }
  engsRun s g w (fun s c x r => match x.engine.state with
    | .running => engsAnswer s c w 1 r.poison
    | .faulted => engsAnswer s c w 3 r.poison
    | .stopped =>
      if 2048 ≤ r.b.toNat then engsAnswer s c w 2 r.poison
      else engsAnswer (s.modEngine c.tid x.kind (fun e => e.go r.b.toNat)) c w 0 r.poison)

/-- R183: the status word of an engine. -/
def Engine.status (e : Engine) : Nat :=
  (match e.state with | .stopped => 0 | .running => 1 | .faulted => 3) + 4 * (e.pc % 2048) + 2 ^ 16 * e.cmds.length +
  2 ^ 19 * e.sigs.length + 2 ^ 22 * e.ops.length + (if e.state = .faulted then 2 ^ 25 * e.cause.toNat else 0)

/-- R183: ENGS.st. -/
def execEngsSt (w : MainWord) (s : State) : Host.Outcome State Fault Refusal :=
  let g : Sig := { op := 0x388, inS := s.controlIssuer, inV := false, d := .dst 64 statusCode, a := uniformSource,
                   mOk := w.m == 1, imm := true }
  engsRun s g w (fun s c x r => engsAnswer s c w x.engine.status r.poison)

/-- R183, R184: ENGS.cmd. -/
def execEngsCmd (w : MainWord) (s : State) : Host.Outcome State Fault Refusal :=
  let g : Sig := { op := 0x388, inS := s.controlIssuer, inV := false, a := uniformSource, b := uniformSource,
                   mOk := w.m == 2, imm := true }
  engsRun s g w (fun s c x r =>
    if 4 ≤ x.engine.cmds.length then .wait s (.engineQueue x.kind false)
    else (s.release c 2 false).andThen (fun s1 =>
      .done (s1.modEngine c.tid x.kind (fun e => { e with cmds := e.cmds ++ [loWord r.b] }))))

/-- R183, R184: ENGS.sig. -/
def execEngsSig (w : MainWord) (s : State) : Host.Outcome State Fault Refusal :=
  let g : Sig := { op := 0x388, inS := s.controlIssuer, inV := false, d := .dst 64 statusCode, a := uniformSource,
                   mOk := w.m == 3, imm := true }
  engsRun s g w (fun s c x r => match x.engine.sigs with
    | [] => .wait s (.engineQueue x.kind true)
    | v :: rest =>
      let s1 := s.modEngine c.tid x.kind (fun e => { e with sigs := rest })
      engsAnswer (s1.acquire c.tid c.gid c.group.coreIx 2 c.unit false) c w v.toNat r.poison)

/-! ## ENGR -/

/-- R185: the array team on a cluster of the package, by its number. -/
def State.onClusterNumber (s : State) (n : Nat) : Option Team :=
  s.teams.find? (fun t => decide (t.life = .running) && t.cluster.any (fun c => coreIndex (.control c.id) == n))

/-- R185, R386: the page request of a team's access engine is no longer pending. -/
def State.dropEngineRequest (s : State) (tid : Nat) : State :=
  let clean := fun (h : Hub) => { h with requests := h.requests.filter (fun r => decide (r.source ≠ .engine tid)) }
  ((s.modHub .h0 clean).modHub .h1 clean).undue (.pageRequest (.engine tid))

/-- R185, R386: ENGR. DESIGN CHOICE (log 80): where several conditions hold, the status is 2 before 4, and 4 before 1. As PRQC does, it releases at package scope before the operation goes on. -/
def execEngr (w : MainWord) (s : State) : Host.Outcome State Fault Refusal :=
  let g : Sig := { op := 0x389, privileged := true, d := .dst 64 statusCode, a := uniformSource, b := uniformSource,
                   mOk := w.m == 0 }
  runMain s g w (fun s c =>
    if c.active = 0 then .done s
    else
      let r := engArgs g c w
      let n := bits r.a 4 0
      if 24 ≤ n then engsAnswer s c w 2 r.poison
      else if 1 < r.b.toNat then engsAnswer s c w 4 r.poison
      else match s.onClusterNumber n with
        | none => engsAnswer s c w 1 r.poison
        | some t =>
          if engineOf (bits r.a 6 5) ≠ .access ∨ (s.stoppedOp t.id).isNone then engsAnswer s c w 1 r.poison
          else (s.release c 3 false).andThen (fun s1 =>
            engsAnswer ((s1.dropEngineRequest t.id).disposeOp t.id (decide (r.b = 1))) c w 0 r.poison))

end Sys2Proof.Machine
end

