-- ==== Sys2Proof/Machine/Mail.lean ====
section
/-! DEFINITION. Names and register mail: NAME, HOLD and RSTV (R188 to R190), and what becomes of mail at the directory (R187,
R190, R403, R426, R427). -/

namespace Sys2Proof.Machine

/-! ## Names -/

/-- The number of a group slot of a hub: chiplet, core, slot. -/
def slotNumber (u : CoreUnit) (slot : Nat) : Nat := unitChiplet u * 4096 + unitCore u * 64 + slot

/-- R188: the generation that follows one, which wraps to 1. -/
def nextGeneration (n : Nat) : Nat := n % (2 ^ 37 - 1) + 1

/-- R188: a group of a team is given its name; none where it stands on no core. -/
def State.giveName (s : State) (tid gid : Nat) : Option (State × Dword) :=
  match s.team? tid, s.group? tid gid with
  | some t, some g =>
    match g.name, t.coreOf g with
    | some n, _ => some (s, n)
    | none, none => none
    | none, some u =>
      let h := s.hub (unitHub u)
      let slot := slotNumber u g.slot
      let gen := nextGeneration (((h.generations.find? (fun x => x.slot == slot)).map (fun x => x.generation)).getD 0)
      let name := groupLoc s.flash.package u g + BitVec.ofNat 64 gen
      let h1 := { h with
        generations := { slot := slot, generation := gen } :: h.generations.filter (fun x => x.slot != slot)
        names := { name := name, team := tid, gid := gid, redirected := false, ended := false } ::
          h.names.filter (fun x => x.name != name) }
      some ((s.setHub (unitHub u) h1).modGroup tid gid (fun g => { g with name := some name }), name)
  | _, _ => none

/-- R188, R404: NAME. The names of a pair are its leader's. -/
def execName (w : MainWord) (s : State) : Host.Outcome State Fault Refusal :=
  let g : Sig := { op := 0x38C, inS := false, d := .dst 64 statusCode, mOk := w.m == 0 }
  runMain s g w (fun s c =>
    if c.active = 0 then .done s
    else if c.group.harvest then .trap (c.whole 0x11 3 0)
    else
      let own := (s.giveName c.tid c.gid).getD (s, 0)
      let r := match c.group.name, c.team.twin with
        | none, some leader => if c.team.leader then own
            else match s.giveName leader c.gid with
              | some (s1, n) => (s1.modGroup c.tid c.gid (fun g => { g with name := some n }), n)
              | none => own
        | _, _ => own
      .done (r.1.modGroup c.tid c.gid (fun x => writeScalar x w.d r.2 (decide (c.guardPoison ≠ 0)))))

/-! ## Delivery -/

/-- R189: mail's words are written to a register of a group, with clear poison. -/
def Group.receive (g : Group) (reg : Nat) (words : List Word) : Group :=
  { g with regs := g.regs.setV reg { store := .general (lanes64.map (fun i => words.getD i 0)), poison := 0 } }

/-- R189: the mailbox of a register after mail has released its hold. -/
def Group.released (g : Group) (reg : Nat) (clock : Dword) (inScope : Nat → Bool) : Group :=
  { g with
    mailboxes := updateWhere (fun m => m.armed && m.reg == reg)
      (fun m => { m with armed := false, delivered := true, senderClock := clock, senderInScope := inScope m.scope }) g.mailboxes
    waits := g.waits.filter (fun w => decide (w.kind ≠ .heldRegister reg)) }

/-- R190: whether a mailbox takes a key. -/
def Mailbox.takes (m : Mailbox) (key : Half) : Bool := m.key == 0 || m.key == key

/-- R326: whether a sender and a target are mutually in scope of an RSTV and a HOLD. -/
def State.mutual (s : State) (m : Mail) (tid gid holdScope : Nat) : Bool :=
  mutuallyInScope { team := m.team, gid := m.gid, hub := m.hub } m.scope (s.agentNow tid gid) holdScope

/-- R404: mail for a leader is copied to the register of its follower; one that the follower has not armed yet is kept until
it does. -/
def Group.receiveCopy (g : Group) (m : Mail) : Group :=
  if g.mailboxes.any (fun x => x.armed && x.reg == m.reg) then
    { (g.receive m.reg m.words).released m.reg m.clock (fun _ => true) with
      replay := g.replay ++ [{ reg := m.reg, words := m.words, pending := false }] }
  else { g with replay := g.replay ++ [{ reg := m.reg, words := m.words, pending := true }] }

/-- R403: mail delivered to a group of a staged team joins its replay log; one that finds 16 there kills the team. -/
def State.logMail (s : State) (t : Team) (g : Group) (m : Mail) : State :=
  if !t.staging then s
  else if 16 ≤ g.replay.length then s.killTeam t.id 0x52
  else s.modGroup t.id g.gid (fun g => { g with replay := g.replay ++ [{ reg := m.reg, words := m.words, pending := false }] })

/-- R190, R403: mail reaches a resident group: the reason of a refusal, or 0, and the state. -/
def State.deliverMail (s : State) (m : Mail) (t : Team) (g : Group) : State × Nat :=
  match g.mailboxes.find? (fun x => x.armed && x.reg == m.reg) with
  | none => (s, 2)
  | some box =>
    if !box.takes m.key then (s, 3)
    else
      let s1 := s.modGroup t.id g.gid (fun g => (g.receive m.reg m.words).released m.reg m.clock (s.mutual m t.id g.gid))
      let s2 := match t.twin with
        | some w => s1.modGroup w g.gid (fun x => x.receiveCopy m)
        | none => s1
      (s2.logMail t g m, 0)

/-- The address space in which the directory reaches a saved group's images: its team's, at kernel level. -/
def savedSpace (t : Team) (h : HubId) : Space :=
  { asn := t.asn, ptroot := t.ptroot, hub := t.hub, tenant := t.tenant, kernel := true, masterHub := h, pos := 15, tlb := none }

/-- The hub writes bytes of an address space, a line at a time, as plain stores; none where a write fails. -/
def State.hubWrite (s : State) (sp : Space) (va : Dword) (bytes : List Byte) : Option State :=
  (linePieces va.toNat bytes.length).foldl (fun (acc : Option State) p => acc.bind (fun s =>
    let a := va + BitVec.ofNat 64 p.1
    match translate s sp a .write with
    | .bad _ => none
    | .ok x => if (s.hubReach sp.masterHub x p.2).isSome then none
        else some (s.hubStore sp a x ((bytes.drop p.1).take p.2)))) (some s)

/-- R187: mail for a saved group: it is written into the record at b, and the entry of the .state image is marked. DESIGN CHOICE (log
82): where a write into the image fails, the mail is refused with reason 2. -/
def State.deliverSaved (s : State) (m : Mail) (t : Team) (g : Group) : State × Nat :=
  let sp := savedSpace t (nameHub m.name)
  match g.savedBoxes.zipIdx.find? (fun x => x.1.armed && x.1.reg == m.reg) with
  | none => (s, 2)
  | some (box, i) =>
    if !box.takes m.key then (s, 3)
    else
      let r : VReg := { store := .general (lanes64.map (fun i => m.words.getD i 0)), poison := 0 }
      let at_ := g.savedVregs + BitVec.ofNat 64 (recordOffset g.regs.shapes m.reg)
      let entry := { box with armed := false, delivered := true, senderClock := m.clock,
                              senderInScope := s.mutual m t.id g.gid box.scope : Mailbox }
      match (s.hubWrite sp at_ (regRecord r)).bind (fun s => s.hubWrite sp (g.savedState + BitVec.ofNat 64 (0x4E8 + 8 * i)) (mailboxEntry entry)) with
      | none => (s, 2)
      | some s1 => ((s1.modGroup t.id g.gid (fun g => { g with savedBoxes := g.savedBoxes.set i entry })).logMail t g m, 0)

/-- R190: what the directory answers to mail: delivered or refused, or to be forwarded; or it waits. -/
inductive Directed where
  | answer (s : State) (reason : Nat)
  | forward (s : State)
  | wait

/-- R425: whether another package issued a name before one of its failures: it has rejoined since, with new generations. When the
directories of another package issued their names this state does not hold (log 76). -/
def PeerPackage.forgotten (p : PeerPackage) (name : Dword) : Bool :=
  decide (p.package = namePackage name) && (List.range p.rejoins).any (fun k => Config.nameBefore name k)

/-- R187: whether stores of a group, such as those that write its images, are not performed yet. -/
def State.imageComing (s : State) (tid gid : Nat) : Bool :=
  s.cores.any (fun c => c.combining.any (fun e => e.team == tid && e.gid == gid)) ||
  s.txns.any (fun x => x.team == tid && x.gid == gid && x.kind.writes && x.answer.isNone && x.error.isNone)

/-- R187, R190, R425, R427, R437: what becomes of mail that has arrived. A directory of another package is not held by this state: its
answer is free, but for a name of before a failure. Redirected mail waits for the images it is written into. -/
def State.direct (s : State) (m : Mail) (forwarded : Bool) : Directed :=
  if s.mailCut m.hub m.name then .answer s 4
  else if s.nameAway m.name then
    .answer s (if s.packages.any (fun p => p.forgotten m.name) then 4 else (Config.freeReading s.tick 190).toNat % 6)
  else match (s.hub (nameHub m.name)).names.find? (fun n => n.name == m.name) with
    | none => .answer s 4
    | some n =>
      match n.ended, s.team? n.team, s.group? n.team n.gid with
      | false, some t, some g =>
        let away := decide (s.agentHub n.team n.gid ≠ nameHub m.name)
        if n.redirected then
          if s.imageComing n.team n.gid then .wait else let r := s.deliverSaved m t g; .answer r.1 r.2
        else if away && !s.bridgeUp then .answer s 4
        else if !forwarded && away then .forward s
        else let r := s.deliverMail m t g; .answer r.1 r.2
      | _, _, _ => .answer s 1

/-- Changes a mail by its number. -/
def State.modMail (s : State) (id : Nat) (f : Mail → Mail) : State :=
  { s with mails := updateWhere (fun m => m.id == id) f s.mails }

/-- R427: mail that completes with error is refused with reason 4. -/
def State.mailErrors (s : State) (lost : Mail → Bool) : State :=
  (s.mails.filter (fun m => lost m && m.outcome.isNone)).foldl (fun s m =>
    (s.modMail m.id (fun m => { m with outcome := some 4 })).due (.mailAck m.id)) s

/-- R425: mail to a package in recovery is held, and its timer pauses. -/
def State.mailPaused (s : State) (m : Mail) : Bool :=
  s.packages.any (fun p => p.package == namePackage m.name && decide (p.state = .recovering))

/-- R419, R433: whether two mails travel in order: of one hub to another hub, on one plane or over the bridge. -/
def Mail.sameWay (a b : Mail) (away : Bool) : Bool :=
  decide (a.hub = b.hub) && bits a.name 63 53 == bits b.name 63 53 && a.plane == b.plane && (away || decide (nameHub b.name ≠ b.hub))

/-- R190, R419, R426, R433: whether mail must wait: its package is in recovery; an earlier mail of its sender to the same name has no
answer, or one that travels before it has not arrived; or a forward for the name has not been acknowledged. -/
def State.mailHeld (s : State) (m : Mail) : Bool :=
  s.mailPaused m ||
  (s.mails.takeWhile (fun x => x.id != m.id)).any (fun x => x.outcome.isNone &&
    ((x.name == m.name && ((x.team == m.team && x.gid == m.gid) || x.forward)) || (!x.forward && x.sameWay m (s.nameAway m.name))))

/-- What the directory's answer leaves: mail that waits comes again. -/
def State.directed (s : State) (m : Mail) (again : Instr) : Directed → State
  | .answer s1 r => (s1.modMail m.id (fun m => { m with outcome := some r })).due (.mailAck m.id)
  | .forward s1 => (s1.modMail m.id (fun m => { m with forward := true })).due (.mailForward m.id)
  | .wait => s.due again

/-- R190: MAIL_ARRIVAL, of mail that is on its way. -/
def execMailArrival (mail : Nat) (s : State) : Host.Outcome State Fault Refusal :=
  match s.mails.find? (fun m => m.id == mail) with
  | none => .next s
  | some m =>
    if m.outcome.isSome || m.forward || (s.nameAway m.name && m.plane == heldPlane) then .next s
    else if s.mailHeld m then .next (s.due (.mailArrival mail))
    else .next (s.directed m (.mailArrival mail) (s.direct m false))

/-- R190, R426: MAIL_FORWARD: the mail reaches the hub that the target has migrated to. -/
def execMailForward (mail : Nat) (s : State) : Host.Outcome State Fault Refusal :=
  match s.mails.find? (fun m => m.id == mail) with
  | none => .next s
  | some m =>
    if !m.forward ∨ m.outcome.isSome then .next s
    else .next (s.directed m (.mailForward mail) (s.direct m true))

/-- R182, R190: a refusal reaches the sender, or the packet of a sender that has retired. -/
def State.refuseMail (s : State) (m : Mail) (reason : Nat) : State :=
  match s.team? m.team, s.group? m.team m.gid with
  | some t, some g =>
    if g.retired then s.modPacket t.hub t.queue t.packet (fun p => { p with mailRefused := some 0x64 })
    else s.post m.team m.gid (.mail m.name reason m.reg)
  | some t, none => s.modPacket t.hub t.queue t.packet (fun p => { p with mailRefused := some 0x64 })
  | none, _ => s

/-- R190, R426: MAIL_ACK: the entry is free, and a refusal is told. -/
def execMailAck (mail : Nat) (s : State) : Host.Outcome State Fault Refusal :=
  match s.mails.find? (fun m => m.id == mail) with
  | none => .next s
  | some m => match m.outcome with
    | none => .next s
    | some r =>
      let s1 := { s.heard m.plane with mails := s.mails.filter (fun x => x.id != mail) }
      .next (if r = 0 then s1 else s1.refuseMail m r)

/-- R190: MAIL_UNDELIVERABLE: the sender takes 0x64 at its issue boundary. -/
def execMailUndeliverable (team gid : Nat) (s : State) : Host.Outcome State Fault Refusal :=
  .next (s.takeNow team gid (fun c => match c with
    | .mail _ _ _ => true
    | _ => false))

/-! ## HOLD -/

/-- The vector register budget of the group that issues. -/
def State.issuerBudget (s : State) : Nat :=
  match s.issuer with
  | some (_, g, _, _) => g.regs.vregs.length
  | none => 128

/-- R189: D of HOLD names a v register of the group. -/
def holdBad (s : State) (w : MainWord) : Option Nat :=
  if isV w.d && decide (w.d.toNat < s.issuerBudget) then none else some 0

/-- R189: mailbox misuse. -/
def Ctx.mailMisuse (c : Ctx) (code reg : Nat) : TrapInfo := c.whole 0x12 (BitVec.ofNat 64 code) (BitVec.ofNat 64 reg)

/-- R189, R371: the checks of HOLD: harvest, the misuses, and the shape. -/
def Ctx.holdTrap (c : Ctx) (reg : Nat) (misuse : Option TrapInfo) : Option TrapInfo :=
  if c.group.harvest then some (c.whole 0x11 3 0)
  else if c.group.name.isNone then some (c.mailMisuse 1 reg)
  else match misuse with
    | some t => some t
    | none => if (c.group.regs.v reg).shape = .general then none
        else some (c.whole 0x08 (BitVec.ofNat 64 reg) (BitVec.ofNat 64 ((c.group.regs.v reg).shape.code + 12)))

/-- R189: arms a mailbox. -/
def Group.arm (g : Group) (reg : Nat) (key : Half) (scope : Nat) : Group :=
  { g with
    mailboxes := g.mailboxes.filter (fun m => m.reg != reg) ++
      [{ reg := reg, key := key, scope := scope, armed := true, delivered := false, senderClock := 0, senderInScope := true }]
    armedSince := if g.armedSince.contains reg then g.armedSince else g.armedSince ++ [reg] }

/-- R403: logged mail for a register that a rollback left to be delivered again is delivered when the register is armed. -/
def Group.replayMail (g : Group) (reg : Nat) : Group :=
  match g.replay.zipIdx.find? (fun x => x.1.pending && x.1.reg == reg) with
  | none => g
  | some (m, i) =>
    { (g.receive reg m.words).released reg 0 (fun _ => true) with replay := g.replay.set i { m with pending := false } }

/-- R189: HOLD.arm. -/
def execHoldArm (w : MainWord) (s : State) : Host.Outcome State Fault Refusal :=
  let g : Sig := { op := 0x38D, inS := false, d := .code, b := uniformSource, mOk := w.m == 0, xMask := 0x007,
                   fieldsOk := decide (xScope w < 6), operandsBad := holdBad s w }
  runMain s g w (fun s c =>
    if c.active = 0 then .done s
    else
      let n := w.d.toNat
      let armed := c.group.mailboxes.filter (fun m => m.armed)
      match c.holdTrap n (if armed.any (fun m => m.reg == n) || decide (8 ≤ armed.length) then some (c.mailMisuse 2 n) else none) with
      | some t => .trap t
      | none =>
        let key := ((g.opB c w).val (lowestLane c.active)).setWidth 16
        .done (s.modGroup c.tid c.gid (fun x => (x.arm n key (xScope w)).replayMail n)))

/-- R189: the mailbox of a register is closed, and its hold ends. -/
def Group.disarm (g : Group) (reg : Nat) : Group :=
  { g with
    mailboxes := g.mailboxes.filter (fun m => !(m.armed && m.reg == reg))
    waits := g.waits.filter (fun v => decide (v.kind ≠ .heldRegister reg)) }

/-- R189: whether the directory has accepted mail for a register of a group that has not reached it yet. -/
def State.mailComing (s : State) (g : Group) (reg : Nat) : Bool :=
  s.mails.any (fun m => m.forward && m.outcome.isNone && decide (g.name = some m.name) && m.reg == reg)

/-- R189: HOLD.off; it waits until mail that was accepted has been delivered. -/
def execHoldOff (w : MainWord) (s : State) : Host.Outcome State Fault Refusal :=
  let g : Sig := { op := 0x38D, inS := false, d := .code, b := uniformSource, mOk := w.m == 1, xMask := 0x007,
                   fieldsOk := decide (xScope w < 6), operandsBad := holdBad s w }
  runMain s g w (fun s c =>
    if c.active = 0 then .done s
    else
      let n := w.d.toNat
      match c.holdTrap n (if c.group.mailboxes.any (fun m => m.armed && m.reg == n) then none else some (c.mailMisuse 3 n)) with
      | some t => .trap t
      | none =>
        if s.mailComing c.group n then .wait s (.closing n)
        else .done (s.modGroup c.tid c.gid (fun x => x.disarm n)))

/-! ## RSTV -/

/-- R430: mail that the name directory's table does not admit is refused with reason 5. -/
def State.mailDenied (s : State) (c : Ctx) (name : Dword) : Bool :=
  let target : AccessTarget := if namePackage name = s.flash.package then .names (nameHub name) else .peerNames (bits name 63 53)
  !s.admits target c.space 0 mailRight

/-- R190: the mail is sent, staged, or refused at once. -/
def State.sendMail (s : State) (c : Ctx) (name : Dword) (reg : Nat) (key : Half) (words : List Word) (scope : Nat) : State :=
  if s.mailDenied c name then
    s.enterMail
      { id := s.nextTxn, team := c.tid, gid := c.gid, hub := c.hub, name := name, reg := reg, key := key, words := words, scope := scope
        clock := 0, plane := heldPlane, outcome := some 5, forward := false, issued := s.tbase }
  else if c.stages then
    s.stage c.tid { gid := c.gid, instr := s.tick, kernel := c.space.kernel, kind := 4, op := 0, address := 0, va := name, bytes := words.flatMap bytesOfWord, operand := [],
                    scope := scope, release := true, durable := false, mailReg := reg, mailKey := key }
  else s.postMail c.tid c.gid c.hub name reg key words scope

/-- R190: RSTV. -/
def execRstv (w : MainWord) (s : State) : Host.Outcome State Fault Refusal :=
  let g : Sig := { op := 0x38E, inS := false, d := .code, a := uniformSource, b := .src tN32 isV, c := uniformSource,
                   mOk := w.m == 0, xMask := 0x007, fieldsOk := decide (xScope w < 6),
                   operandsBad := if isV w.d then none else some 0 }
  runMain s g w (fun s c =>
    if c.active = 0 then .done s
    else if c.awaitsCommit then .wait s .commit
    else
      let l := lowestLane c.active
      let r := c.group.regs.v w.b.toNat
      if r.poison ≠ 0 then .trap (c.whole 0x0C c.origin 2)
      else (s.release c (xScope w) false).andThen (fun s1 =>
        .done (s1.sendMail c ((g.opA c w).val l) w.d.toNat (((g.opC c w).val l).setWidth 16)
          (lanes64.map r.lane) (xScope w))))

end Sys2Proof.Machine
end

