-- ==== Sys2Proof/Machine/Waits.lean ====
section
/-! DEFINITION. What the hardware does for waiting entries, fetches and stores on their way: wakes (R207, R256), the rereads
of WAITE (R179), reservations that expire (R133), the store-combining path (R316), line fills (R20, R450), and an entry
that stands inside an instruction (R20, R64, R264). -/

namespace Sys2Proof.Machine

/-! ## Wakes -/

/-- A main word of zeros, for the context of an entry whose instruction has issued. -/
def zeroWord : MainWord :=
  { lits := .none, neg := false, pred := 0, d := 0, a := 0, b := 0, c := 0, m := 0, x := 0 }

/-- The lanes of a wait's entry for which its instruction has been executed: those that reached it since issue it yet, where it is an
access (R208). -/
def Group.waitLanes (g : Group) (w : EntryWait) : Dword :=
  match w.kind with
  | .fence _ lanes => g.entryLanes w.entry &&& lanes
  | _ => g.entryLanes w.entry

/-- The wait itself completed the instruction: the lanes of the entry go to its fall-through address. -/
def Group.endWait (g : Group) (w : EntryWait) : Group :=
  let m := g.waitLanes w
  let g1 := (g.unwait w.entry).place (fun l => if laneBit m l then some { w.entry with pc := w.fall } else none)
  { g1.arriveLoop (some w.entry.pc) with
    byTarget := g.byTarget &&& ~~~m
    ages := g.ages.filter (fun a => !(decide (a.entry = w.entry) && a.kernel == g.kernel)) }

/-- The instruction of a wait completes (R408). -/
def State.finishWait (s : State) (tid gid : Nat) (w : EntryWait) : State :=
  (s.modGroup tid gid (fun g => g.endWait w)).progress tid gid w.kernel

/-- R138, R323: a wait that completes its instruction, once its event has come. -/
def State.completeWait (s : State) (t : Team) (g : Group) (u : CoreUnit) (w : EntryWait) : State :=
  match w.kind with
  | .barrier n gen =>
    if gen = (t.barrier n).gen then s
    else (s.acquire t.id g.gid g.coreIx 1 u false).finishWait t.id g.gid w
  | .fence scope _ =>
    let c := ctxFor t g u w.entry zeroWord
    match s.settleStores c scope true with
    | (s1, none) => (match s1.reportFailures c true with
        | .fails s2 f => s2.meetTrap c (g.waitLanes w) { f with lanes := g.waitLanes w }
        | _ => (s1.acquire t.id g.gid g.coreIx scope u false).finishWait t.id g.gid w)
    | (s1, some _) => s1
  | .closing n => if s.mailComing g n then s
      else (s.modGroup t.id g.gid (fun g => g.disarm n)).finishWait t.id g.gid w
  | .reorder n => if (t.barrier n).expected ≤ (t.barrier n).arrivals then s.countComplete t.id n else s
  | _ => s

/-- R191: the vector cores of a team. -/
def Team.vectorCores (t : Team) : List CoreId :=
  t.cores.filterMap (fun c => match c.unit with
    | .vector id => some id
    | _ => none)

/-- Whether a revocation is in progress on a core of a team. -/
def State.revoking (s : State) (t : Team) : Bool := s.revocations.any (fun r => t.vectorCores.contains r.core)

/-- R207: whether what an entry waits for has come, where the state tells. -/
def State.waitOver (s : State) (t : Team) (g : Group) (u : CoreUnit) (w : EntryWait) : Bool :=
  let c := ctxFor t g u w.entry zeroWord
  match w.kind with
  | .absentLine n => !(t.share? g.coreIx).any (fun x => x.scratch.absent.contains n)
  | .heldRegister n => !g.mailboxes.any (fun m => m.armed && m.reg == n)
  | .tileSet => !s.noTileSet c
  | .copyCapacity => !s.copyFull c
  | .engineQueue e signals => t.cluster.any (fun k =>
      if signals then !(k.engine e).sigs.isEmpty else decide ((k.engine e).cmds.length < 4))
  | .commit => g.arrivedAt.isEmpty && t.committing.isNone && t.commitQueue.isEmpty
  | .revocation => !s.revoking t
  | .behind => g.completingAt.isNone
  | _ => false

/-- R207: what becomes of one wait: it completes its instruction, or its entry is ready again, or issues again to see, or it goes
on waiting. -/
def State.wakeWait (s : State) (tid gid : Nat) (w : EntryWait) : State :=
  match s.team? tid with
  | none => s
  | some t => match t.group? gid with
    | none => s
    | some g => match t.coreOf g with
      | none => s
      | some u =>
        let again := fun (k : WaitKind) => s.modGroup tid gid (fun g => { g with
          waits := updateWhere (fun x => decide (x = w)) (fun x => { x with kind := k }) g.waits })
        if !g.waits.contains w ∨ w.kernel ≠ g.kernel then s
        else match w.kind with
          | .barrier _ _ | .fence _ _ | .closing _ | .reorder _ => s.completeWait t g u w
          | .memoryWord _ _ _ | .rereading _ | .completing _ | .retrying | .remote _ true => s
          | .remote start false =>
            if s.txns.any (fun x => decide (x.asker = some (.agent (.group tid gid)))) then s else again (.remote start true)
          | .completes every => again (.completing every)
          | .copies | .transaction | .bankFormat | .twin => again .retrying
          | _ => if s.waitOver t g u w then s.modGroup tid gid (fun g => g.unwait w.entry) else s

/-- R207, R256: ENTRY_WAKE: the waiting entries of a group whose events may have come. -/
def execEntryWake (team gid : Nat) (s : State) : Host.Outcome State Fault Refusal :=
  match s.group? team gid with
  | none => .next s
  | some g => .next (g.waits.foldl (fun s w => s.wakeWait team gid w) s)

/-- R179: WAITE_RECHECK: parked WAITEs of a group read again. -/
def execWaiteRecheck (team gid : Nat) (s : State) : Host.Outcome State Fault Refusal :=
  .next (s.modGroup team gid (fun g => { g with
    waits := g.waits.map (fun w => match w.kind with
      | .memoryWord _ start _ => { w with kind := .rereading start }
      | _ => w) }))

/-! ## Reservations -/

/-- R133: RESERVATION_EXPIRY: a reservation is lost 4,096 cycles after its LDR. -/
def execReservationExpiry (hub : HubId) (index : Nat) (s : State) : Host.Outcome State Fault Refusal :=
  match (s.hub hub).reservations[index]? with
  | none => .next s
  | some r =>
    if (s.cycle - r.cycle).toNat < 4096 then .next s
    else .next (s.modHub hub (fun h => { h with reservations := h.reservations.eraseIdx index }))

/-! ## The store-combining path -/

/-- R316, R351: whether an entry of a core may be performed now: its home has room, and every older one of its group waits there for
room. -/
def State.mayDrain (s : State) (u : CoreUnit) (e : Combining) : Bool :=
  decide (((s.core u).heldBy e.team e.gid).find? s.entryRoom = some e)

/-- R316: STORE_COMBINING_DRAIN. -/
def execStoreCombiningDrain (core : CoreId) (index : Nat) (s : State) : Host.Outcome State Fault Refusal :=
  let u := CoreUnit.vector core
  match (s.core u).combining[index]? with
  | none => .next s
  | some e =>
    if s.mayDrain u e then
      .next (s.drainEntry u e)
    else .next s

/-- The entries of the store-combining paths that may be performed. -/
def State.openDrains (s : State) : List Instr :=
  s.cores.flatMap (fun c => match c.unit with
    | .vector id => c.combining.zipIdx.filterMap (fun x =>
        if s.mayDrain c.unit x.1 then some (Instr.storeCombiningDrain id x.2) else none)
    | _ => [])

/-! ## Line fills -/

/-- A group of an address space on a core, with its team. -/
def State.fetcher (s : State) (u : CoreUnit) (asn : Half) : Option (Team × Group) :=
  s.teams.findSome? (fun t => if t.asn = asn then (t.groups.find? (fun g => decide (t.coreOf g = some u))).map (fun g => (t, g)) else none)

/-- R20, R450: CODE_LINE_FILL: a line of an address space is filled into a core's instruction cache. -/
def execCodeLineFill (unit : CoreUnit) (asn : Half) (va : Dword) (s : State) : Host.Outcome State Fault Refusal :=
  match s.fetcher unit asn with
  | none => .next s
  | some (t, g) =>
    match translate s (fetchSpace t g unit) va .fetch with
    | .bad _ => .next s
    | .ok x =>
      if (s.linkError (unitHub unit) (lineOfKey x.key)).isSome then .next s
      else .next (s.closeEvent (.codeLineFill unit asn va) ((s.touch (fetchSpace t g unit) va .fetch x).fillLine unit asn (lineOf va) x))

/-- The fills on their way for the groups that issue next. -/
def State.openFills (s : State) : List Instr :=
  (s.teams.filter (fun t => decide (t.life = .running))).flatMap (fun t => t.groups.filterMap (fun g =>
    match t.coreOf g, g.issuing with
    | some u, some p => if ((s.core u).codeLine t.asn (lineOf p.pc)).isSome then none
        else some (Instr.codeLineFill u t.asn (lineOf p.pc))
    | _, _ => none))

/-! ## An entry inside an instruction -/

/-- R20, R264: whether the mark of the word at a PC makes it a branch into literal. -/
def Mark.inside (m : Mark) (byTarget : Bool) : Bool :=
  match m with
  | .start => false
  | .badLength => false
  | .pad => byTarget
  | _ => true

/-- R20, R64: BRANCH_INTO_LITERAL: an entry whose PC is no start word takes 0x06 before it issues. -/
def execBranchIntoLiteral (s : State) : Host.Outcome State Fault Refusal :=
  match s.issuer with
  | none => .next s
  | some (t, g, u, p) =>
    let m := g.entryLanes p
    let take := fun (s : State) (val val2 : Dword) =>
      s.fetchFault t.id g.gid m { cause := 0x06, pc := p.pc, lanes := m, val := val, val2 := val2 }
    if bits p.pc 1 0 ≠ 0 then .next (take s 5 p.pc).answersUsed
    else match translate s (fetchSpace t g u) p.pc .fetch with
      | .bad _ => .next s
      | .ok x =>
        let r := s.codeAt t g u (lineOf p.pc) x
        let mark := (lineMarks r.2).getD (p.pc.toNat % 64 / 4) .unmarked
        if mark.inside (decide (m &&& g.byTarget ≠ 0)) then
          .next (take r.1 (BitVec.ofNat 64 mark.code) (mark.owner (lineOf p.pc) p.pc)).answersUsed
        else .next r.1

end Sys2Proof.Machine
end

