-- ==== Sys2Proof/Machine/Harvest.lean ====
section
/-! DEFINITION. Harvesting: HARV and HCHK (R191, R192), the revocation of harvest teams (R230, R259, R260) and the trap of a
resumed one (R192). -/

namespace Sys2Proof.Machine

/-! ## HARV -/

/-- R191: a limit word that is not admitted. -/
def limitBad (a : Dword) : Bool :=
  decide (64 < bits a 6 0) || a.getLsbD 7 || decide (192 < bits a 15 8) || a >>> 16 != 0

/-- R258: the groups of a team that a core still holds. -/
def Team.held (t : Team) : List Group := t.groups.filter (fun g => !g.slotFreed)

/-- The harvest teams on a core that a revocation has not already taken, the earliest placed first, with their groups there. -/
def State.harvestGroups (s : State) (c : CoreId) : List (Nat × Nat × Nat) :=
  let going := s.revocations.flatMap (fun r => if r.core = c then r.teams else [])
  ((s.teams.filter (fun t => (s.harvestOn c).contains t.id && !going.contains t.id)).map (fun t =>
    (t.commitSeq, t.id, t.held.length))).mergeSort (fun a b => decide (a.1 ≤ b.1))

/-- R259: the most recently placed teams beyond a number of groups; the list stands in the order of placing. -/
def excess (limit : Nat) : Nat → List (Nat × Nat × Nat) → List Nat
  | _, [] => []
  | n, (_, id, k) :: rest => if limit < n + k then id :: rest.map (fun x => x.2.1) else excess limit (n + k) rest

/-- R191, R259: HARV.on sets a team's limits and revokes the groups in excess of them. -/
def State.harvestLimit (s : State) (t : Team) (a : Dword) : State :=
  let s1 := s.modTeam t.id (fun x => { x with hlim := a })
  t.vectorCores.foldl (fun s c => s.revoke c (excess (bits a 6 0) 0 (s.harvestGroups c))) s1

/-- R191: the misuses of HARV by its group. -/
def Ctx.harvTrap (c : Ctx) : Option TrapInfo :=
  if !c.team.latencyCritical || c.group.harvest then some (c.whole 0x11 4 0) else none

/-- R191: HARV.on. -/
def execHarvOn (w : MainWord) (s : State) : Host.Outcome State Fault Refusal :=
  let g : Sig := { op := 0x38F, inS := false, privileged := true, a := uniformSource, mOk := w.m == 0, imm := true }
  runMain s g w (fun s c =>
    if c.active = 0 then .done s
    else
      let a := (g.opA c w).val (lowestLane c.active)
      match c.harvTrap with
      | some t => .trap t
      | none =>
        if limitBad a then .trap (c.whole 0x11 5 0)
        else .done (s.harvestLimit c.team a))

/-- R191: HARV.off: no more placement; every harvest context of the cores is revoked, and the instruction completes when the
revocation has finished. -/
def execHarvOff (w : MainWord) (s : State) : Host.Outcome State Fault Refusal :=
  let g : Sig := { op := 0x38F, inS := false, privileged := true, a := uniformSource, mOk := w.m == 1, imm := true }
  runMain s g w (fun s c =>
    if c.active = 0 then .done s
    else match c.harvTrap with
      | some t => .trap t
      | none =>
        if limitBad ((g.opA c w).val (lowestLane c.active)) then .trap (c.whole 0x11 5 0)
        else
        let s1 := s.modTeam c.tid (fun x => { x with hlim := 0 })
        let s2 := c.team.vectorCores.foldl (fun s id => s.revoke id (s.harvestOn id)) s1
        if s2.revoking c.team then .wait s2 .revocation else .done s2)

/-! ## HCHK -/

/-- R192: HCHK, which writes 0 in a group that is no harvest context. -/
def hchk (s : State) (w : MainWord) (m : BitVec 4) (value : Group → Dword) (after : Group → Group) :
    Host.Outcome State Fault Refusal :=
  let g : Sig := { op := 0x390, inS := false, d := .dst 64 statusCode, mOk := w.m == m }
  runMain s g w (fun s c =>
    if c.active = 0 then .done s
    else
      let v := if c.group.harvest then value c.group else 0
      .done (s.modGroup c.tid c.gid (fun x =>
        writeScalar (if c.group.harvest then after x else x) w.d v (decide (c.guardPoison ≠ 0)))))

/-- R192: HCHK.lost. -/
def execHchkLost (w : MainWord) (s : State) : Host.Outcome State Fault Refusal := hchk s w 0 (fun g => g.lost) id

/-- R192: HCHK.lostc, which clears the mask. -/
def execHchkLostc (w : MainWord) (s : State) : Host.Outcome State Fault Refusal :=
  hchk s w 1 (fun g => g.lost) (fun g => { g with lost := 0 })

/-- R192: HCHK.revs. -/
def execHchkRevs (w : MainWord) (s : State) : Host.Outcome State Fault Refusal := hchk s w 2 (fun g => g.revocations) id

/-! ## Revocation -/

/-- R192: the regions that hold a line of a scratchpad of n lines. -/
def regionMask (n : Nat) : Dword :=
  (List.range n).foldl (fun (m : Dword) i => m ||| BitVec.twoPow 64 (64 * i / n)) 0

/-- R230, R231: a scratchpad whose every line was discarded: each line is absent. -/
def Scratchpad.discarded (x : Scratchpad) : Scratchpad :=
  { Scratchpad.clear x.size with absent := List.range (x.size / 128) }

/-- R232: an .out copy issued before a revocation keeps the scratchpad that it was to read. -/
def Team.keepSource (t : Team) (c : Copy) : Copy :=
  let now := ((t.group? c.gid).bind (fun g => t.share? g.coreIx)).map (fun x => x.scratch)
  { c with source := some (c.reads (now.getD (Scratchpad.clear 0))) }

/-- R230, R232, R260: a harvest team parks in the reserve banks: its scratchpad and L1 partitions are discarded, and its copies
into scratchpad are complete. -/
def Team.park (t : Team) : Team :=
  let lines := ((t.cores.head?.map (fun c => c.scratch.size)).getD 0) / 128
  { t with
    life := .parked
    cores := t.cores.map (fun c => { c with scratch := c.scratch.discarded, l1 := { c.l1 with lines := [] } })
    groups := t.groups.map (fun g => { g with lost := g.lost ||| regionMask lines, revocations := g.revocations + 1 })
    copies := t.copies.map (fun c => if c.dir = .outward then t.keepSource c else { c with left := [], stopped := false }) }

/-- R232: the pieces of a team's .out copies that can be written at the stop are; the others go on after it. -/
def State.finishOut (s : State) (tid : Nat) : State :=
  match s.team? tid with
  | none => s
  | some t =>
    (t.copies.filter (fun c => decide (c.dir = .outward))).foldl (fun s c =>
      c.left.foldl (fun s p => match s.copyAt tid c.id with
        | none => s
        | some x => if (s.openPieces x).contains p && decide (s.pieceFate x p = .lands ∨ s.pieceFate x p = .fails) then s.writePiece x p
          else s) s) s

/-- R192: HARVEST_REVOKE: a resumed harvest context takes 0x71 before it issues. -/
def execHarvestRevoke (team gid : Nat) (s : State) : Host.Outcome State Fault Refusal :=
  .next (s.takeNow team gid (fun c => decide (c = .harvestRevoke)))

end Sys2Proof.Machine
end

