-- ==== Sys2Proof/Machine/Slots.lean ====
section
/-! DEFINITION. The end of groups and teams after EXIT: slots are freed (R65, R215), the final commit of a staged team (R216,
R398, R406), retirement (R216, R217, R220), the report of a failed completion record (R449) and the end of a rollback (R402). -/

namespace Sys2Proof.Machine

/-! ## Slots -/

/-- R65: whether every access that a group issued has completed. -/
def State.accessesOver (s : State) (t : Team) (gid : Nat) : Bool :=
  !s.txns.any (fun x => x.team == t.id && x.gid == gid) && !s.mails.any (fun m => m.team == t.id && m.gid == gid) &&
  !t.copies.any (fun c => c.gid == gid) && !s.cores.any (fun c => !(c.heldBy t.id gid).isEmpty)

/-- R65, R216: whether a retired group's slot may be freed: its accesses are complete, which in a staged team they are with the
final commit. -/
def State.slotReady (s : State) (t : Team) (g : Group) : Bool :=
  g.retired && !g.slotFreed && s.accessesOver t g.gid && (!t.staging || t.lastCommitted)

/-! ## The final commit -/

/-- R216, R406: the retirement of a staged team's last group is a commit barrier. -/
def State.finalCommit (s : State) (t : Team) : State := s.queueCommit t.id finalBarrier

/-! ## Retirement -/

/-- R216: whether every group of a team has retired and freed its slot. -/
def Team.over (t : Team) : Bool := t.groups.all (fun g => g.retired && g.slotFreed) && decide (t.life = .running)

/-- R216: whether a staged team's last group has retired, its copies have landed, so that what they stage is there, and its final commit
is still to begin. -/
def Team.commitsLast (t : Team) : Bool :=
  t.staging && t.groups.all (fun g => g.retired) && t.copies.isEmpty && decide (t.life = .running) && t.committing.isNone &&
  t.commitQueue.isEmpty && !t.lastCommitted

/-- R216: a team whose groups are over retires; a staged one commits when its last group has retired. -/
def State.settleTeam (s : State) (tid : Nat) : State :=
  match s.team? tid with
  | none => s
  | some t =>
    if t.commitsLast then s.finalCommit t
    else if !t.over then s
    else match t.cls with
      | .array => s.settleArray tid
      | _ => if t.groups.all (fun g => s.accessesOver t g.gid) then s.retireTeam tid else s

/-- R65, R215: GROUP_SLOT_FREE: a failure that was held for the retired group kills the team, with its cause; else the slot is
freed, and with the last one the team retires. -/
def execGroupSlotFree (team gid : Nat) (s : State) : Host.Outcome State Fault Refusal :=
  match s.team? team, s.group? team gid with
  | some t, some g =>
    if s.slotReady t g then
      match firstFailure g.failures with
      | some f => .next (s.killTeam team f.cause)
      | none => .next ((s.modGroup team gid (fun g => { g with slotFreed := true })).settleTeam team)
    else .next (s.settleTeam team)
  | _, _ => .next s

/-- The slots that may be freed, and the teams that may retire. -/
def State.openSlots (s : State) : List Instr :=
  s.teams.flatMap (fun t =>
    (t.groups.filter (fun g => s.slotReady t g)).map (fun g => Instr.groupSlotFree t.id g.gid) ++
    (if t.commitsLast || (t.over && t.groups.all (fun g => s.accessesOver t g.gid)) then
      (t.groups.take 1).map (fun g => Instr.groupSlotFree t.id g.gid) else []))

/-! ## Completion records -/

/-- R375, R449: COMPLETION_RECORD_FAULT: event 0x76, with the cause and the status that was not written. -/
def execCompletionRecordFault (hub : HubId) (va : Dword) (cause status : Byte) (s : State) : Host.Outcome State Fault Refusal :=
  .next (s.modHub hub (fun h => h.queueEvent 0x76 va (BitVec.ofNat 64 (cause.toNat % 128 + 256 * status.toNat))))

/-! ## Rollbacks -/

/-- R252: a team that has rolled back and is to leave takes its pre-emption on the state that was rolled back. -/
def Team.preemptAfter (t : Team) : Team :=
  if t.preempting && t.cluster.isNone then
    { t with groups := t.groups.map (fun g => if g.retired || g.saved then g else g.post (.preemption false)) }
  else t

/-- R252, R402: ROLLBACK_COMPLETE: the team's groups go on after their arrivals, or leave. -/
def execRollbackComplete (team : Nat) (s : State) : Host.Outcome State Fault Refusal :=
  .next (s.modTeam team (fun t => if t.life = .rollingBack then { t.preemptAfter with life := .running } else t))

end Sys2Proof.Machine
end

