-- ==== Sys2Proof/Machine/Bundle.lean ====
section
/-! DEFINITION. The checks of a packet at the head of its queue: its bundle (R35 to R39), its fields (R181, R210, R224, R240,
R257, R387), its placement map (R244, R245), and its dependence signals (R240). -/

namespace Sys2Proof.Machine

/-! ## Reads of the hub -/

/-- Bytes that the hub reads, with the offsets of the words that are poisoned. -/
structure HubBytes where
  bytes : List Byte
  bad : List Nat

/-- The hub reads a range in an address space; none where a translation or an access fails (R39, R240, R245). -/
def State.hubReadAll (s : State) (sp : Space) (va : Dword) (n : Nat) : Option (State × HubBytes) :=
  (linePieces va.toNat n).foldl (fun (acc : Option (State × HubBytes)) p => acc.bind (fun a =>
    let v := va + BitVec.ofNat 64 p.1
    match translate a.1 sp v .read with
    | .bad _ => none
    | .ok x =>
      if (a.1.hubReach sp.masterHub x p.2).isSome then none
      else
        let r := a.1.hubFetch sp v p.2 x
        let bad := if r.2.2 = 0 then [] else (List.range (p.2 / 4)).filterMap (fun i =>
          if a.1.originSeen sp.masterHub (x.key + 4 * i) 4 = 0 then none else some (p.1 / 4 + i))
        if linkOrigin r.2.2 then none else some (r.1, { bytes := a.2.bytes ++ r.2.1, bad := a.2.bad ++ bad })))
    (some (s, { bytes := [], bad := [] }))

/-- A range that must be read without poison: a header, a record or a map. DESIGN CHOICE (log 24): one with uncorrectable
data counts as a read that faults. -/
def State.hubReadClean (s : State) (sp : Space) (va : Dword) (n : Nat) : Option (State × List Byte) :=
  (s.hubReadAll sp va n).bind (fun r => if r.2.bad = [] then some (r.1, r.2.bytes) else none)

/-- A little-endian field of bytes. -/
def fieldAt (bs : List Byte) (offset size : Nat) : Nat := ofBytes ((bs.drop offset).take size)

/-- Whether a range of bytes is zero. -/
def zeroAt (bs : List Byte) (offset size : Nat) : Bool := fieldAt bs offset size == 0

/-! ## The bundle -/

/-- R38: the bundle's address and the kernel's index in a code field. -/
def bundleAddress (code : Dword) : Dword := sextDword 57 (BitVec.ofNat 64 (bits code 50 0 * 64))
def kernelIndex (code : Dword) : Nat := bits code 63 51

/-- R36: the profile and kind of each slot of a descriptor. -/
def slotKinds : List (Nat × Nat) := [(2, 1), (1, 2), (1, 3), (3, 4), (3, 5), (3, 6), (3, 7)]

/-- A directory record (R36), with its slot in the descriptor. -/
structure DirRecord where
  slot : Nat
  profile : Nat
  kind : Nat
  reserved : Nat
  offset : Nat
  size : Nat
  entry : Nat

def DirRecord.read (slot : Nat) (bs : List Byte) : DirRecord :=
  { slot := slot, profile := fieldAt bs 0 1, kind := fieldAt bs 1 1, reserved := fieldAt bs 2 2, offset := fieldAt bs 4 4,
    size := fieldAt bs 8 4, entry := fieldAt bs 12 4 }

/-- R37: the seven directory indices of a descriptor. -/
def descEntries (d : List Byte) : List Nat := (List.range 7).map (fun i => fieldAt d (2 * i) 2)

/-- R39: the first row, of a header. -/
def headerBad (h : List Byte) : Bool :=
  let size := fieldAt h 8 8
  fieldAt h 0 4 != 0x4F424E2E || fieldAt h 4 2 != 1 || !decide (1 ≤ fieldAt h 6 2 ∧ fieldAt h 6 2 ≤ 64) ||
  !decide (1 ≤ fieldAt h 0x10 4 ∧ fieldAt h 0x10 4 ≤ 8192) || !zeroAt h 0x14 4 || !zeroAt h 0x28 24 ||
  decide (size < fieldAt h 0x18 8 + 16 * fieldAt h 6 2) || decide (size < fieldAt h 0x20 8 + 128 * fieldAt h 0x10 4)

/-- R39: the first row, of a descriptor. -/
def descBad (d : List Byte) : Bool :=
  !zeroAt d 0x0E 2 || decide (2 ^ 60 ≤ fieldAt d 0x38 8) ||
  (List.range 4).any (fun j => !zeroAt d (0x43 + 8 * j) 1)

/-- R37: the code of a v register in a regmap. -/
def regmapCode (raw : List Byte) (n : Nat) : Nat := (raw.getD (n / 4) 0).toNat / 4 ^ (n % 4) % 4

def shapeOfCode : Nat → Option Shape
  | 1 => some .uniform
  | 2 => some .affine
  | 3 => some .general
  | _ => none

/-- The codes of the 128 registers of a regmap. -/
def regmapCodes (raw : List Byte) : List Nat := (List.range 128).map (regmapCode raw)

/-- R37: what a descriptor and its target's record give. -/
def descKernel (d : List Byte) (image : Dword) (entry : Nat) (engines : List (Option (List Half × Nat)))
    (consts : List (List Word)) (constPoison : List (List Nat)) : KernelDesc :=
  let raw := (d.drop 0x10).take 32
  { regmap := (regmapCodes raw).filterMap shapeOfCode, regmapRaw := raw, poolR := fieldAt d 0x30 2, poolS := fieldAt d 0x32 2,
    poolL := fieldAt d 0x34 2, barriers := fieldAt d 0x36 1
    roles := (List.range (fieldAt d 0x37 1)).map (fun j =>
      if j < 4 then { groups := fieldAt d (0x40 + 8 * j) 2, budget := fieldAt d (0x42 + 8 * j) 1, entry := fieldAt d (0x44 + 8 * j) 4 }
      else { groups := 0, budget := 0, entry := 0 })
    tokens := BitVec.ofNat 64 (fieldAt d 0x38 8), image := image, entry := entry, engines := engines, consts := consts,
    constPoison := constPoison }

/-- R38: the slot of a target class; none for a class that is not valid. -/
def classSlot : Nat → Option Nat
  | 1 => some 0
  | 2 => some 1
  | 3 => some 2
  | _ => none

/-- R39: whether an image's record is out of bounds. -/
def imageBad (size : Nat) (r : DirRecord) : Bool :=
  r.offset % 64 != 0 || decide (size < r.offset + r.size) ||
  (r.profile != 3 && (r.entry % 4 != 0 || decide (r.size ≤ r.entry)))

/-- R39: whether a constant image is invalid. -/
def constBad (size : Nat) (d : List Byte) (j : Nat) : Bool :=
  let off := fieldAt d (0x60 + 8 * j) 4
  let n := fieldAt d (0x64 + 8 * j) 4
  decide (16384 < n) || n % 4 != 0 || (n != 0 && decide (size < off + n))

/-- R39: the reason of the first row that a descriptor and its records fail; size and count are those of the header. -/
def descReason (size count cls : Nat) (staged : Bool) (d : List Byte) (records : List DirRecord) : Option Nat :=
  let idx := descEntries d
  let target := (classSlot cls).map (fun k => idx.getD k 0)
  let rows : List (Bool × Nat) :=
    [(descBad d || records.any (fun r => r.reserved != 0), 0x01),
     (decide (target = some 0xFFFF), 0x03),
     (idx.any (fun i => i != 0xFFFF && decide (count ≤ i)) ||
       records.any (fun r => decide (slotKinds[r.slot]? ≠ some (r.profile, r.kind))), 0x04),
     (records.any (imageBad size), 0x05),
     (records.any (fun r => r.profile == 3 && (decide (4096 < r.size) || decide (2048 ≤ r.entry))), 0x06),
     (decide ((if staged then 768 else 1536) < fieldAt d 0x30 2 + fieldAt d 0x32 2 + fieldAt d 0x34 2), 0x07),
     ((List.range 4).any (constBad size d), 0x08),
     (decide (idx.getD 0 0 = 0xFFFF) && !(zeroAt d 0x10 0x28 && zeroAt d 0x40 0x20), 0x0B)]
  (rows.find? (fun r => r.1)).map (fun r => r.2)

/-- What the checks of a packet answer. -/
inductive Checked where
  | good (s : State) (d : KernelDesc) (vsize : Nat)
  | bad (s : State) (reason : Nat)

/-- R38, R39: the constant and E images are read. DESIGN CHOICE (log 24): an E image with uncorrectable data counts as one whose
read faults. -/
def State.readImages (s : State) (sp : Space) (base : Dword) (cls : Nat) (d : List Byte) (records : List DirRecord) : Checked :=
  let get := fun (acc : Option (State × List HubBytes)) (x : Nat × Nat) => acc.bind (fun a =>
    if x.2 = 0 then some (a.1, a.2 ++ [{ bytes := [], bad := [] }])
    else (a.1.hubReadAll sp (base + BitVec.ofNat 64 x.1) x.2).map (fun r => (r.1, a.2 ++ [r.2])))
  let consts := (List.range 4).map (fun j => (fieldAt d (0x60 + 8 * j) 4, fieldAt d (0x64 + 8 * j) 4))
  let engines := (List.range 4).map (fun e => records.find? (fun r => r.slot == 3 + e))
  match consts.foldl get (some (s, [])) with
  | none => .bad s 0x09
  | some (s1, cs) =>
    match (engines.map (fun r => (r.map (fun r => (r.offset, r.size))).getD (0, 0))).foldl get (some (s1, [])) with
    | none => .bad s1 0x09
    | some (s2, es) =>
      if es.any (fun e => e.bad != []) then .bad s2 0x09
      else
        let images := (engines.zip es).map (fun x => x.1.map (fun r => (halvesOf x.2.bytes, r.entry)))
        let target := (classSlot cls).bind (fun k => records.find? (fun r => r.slot == k))
        let image := base + BitVec.ofNat 64 ((target.map (fun r => r.offset)).getD 0)
        let entry := (target.map (fun r => r.entry)).getD 0
        .good s2 (descKernel d image entry images (cs.map (fun c => wordsOf c.bytes)) (cs.map (fun c => c.bad)))
          ((target.map (fun r => r.size)).getD 0)
where
  /-- The 16-bit words of bytes. -/
  halvesOf (bs : List Byte) : List Half := (List.range (bs.length / 2)).map (fun i => BitVec.ofNat 16 (fieldAt bs (2 * i) 2))

/-- R181: the reliability mode; 3 is reserved. -/
def Packet.mode (p : Packet) : Mode :=
  match p.field 1 1 % 4 with
  | 1 => .checkpointed
  | 2 => .paired
  | _ => .plain

/-- R39: the bundle of a packet is read and checked. -/
def State.readBundle (s : State) (sp : Space) (p : Packet) : Checked :=
  let code := BitVec.ofNat 64 (p.field 8 8)
  let base := bundleAddress code
  let cls := p.field 0 1
  match s.hubReadClean sp base 64 with
  | none => .bad s 0x09
  | some (s1, h) =>
    if headerBad h then .bad s1 0x01
    else if fieldAt h 0x10 4 ≤ kernelIndex code then .bad s1 0x02
    else match s1.hubReadClean sp (base + BitVec.ofNat 64 (fieldAt h 0x20 8 + 128 * kernelIndex code)) 128 with
      | none => .bad s1 0x09
      | some (s2, d) =>
        let named := (descEntries d).zipIdx.filter (fun x => x.1 != 0xFFFF && decide (x.1 < fieldAt h 6 2))
        let r := named.foldl (fun (acc : State × List DirRecord × Bool) x =>
          match acc.1.hubReadClean sp (base + BitVec.ofNat 64 (fieldAt h 0x18 8 + 16 * x.1)) 16 with
          | none => (acc.1, acc.2.1, true)
          | some (s3, bs) => (s3, acc.2.1 ++ [DirRecord.read x.2 bs], acc.2.2)) (s2, [], false)
        match descReason (fieldAt h 8 8) (fieldAt h 6 2) cls (decide (p.mode ≠ .plain)) d r.2.1 with
        | some reason => .bad r.1 reason
        | none => if r.2.2 then .bad r.1 0x09 else r.1.readImages sp base cls d r.2.1

/-! ## The packet's fields -/

/-- R181: the fields of a packet by name. -/
def Packet.cls (p : Packet) : Nat := p.field 0 1
def Packet.waits (p : Packet) : Nat := p.field 2 1
def Packet.cores (p : Packet) : Nat := p.field 4 2
def Packet.depth (p : Packet) : Nat := p.field 0x21 1
def Packet.count (p : Packet) (k : Nat) : Nat := p.field (0x10 + 4 * k) 4
/-- The loop at a nesting position. -/
def Packet.loop (p : Packet) (k : Nat) : Nat := p.field 0x20 1 / 4 ^ k % 4
def Packet.placement (p : Packet) : Dword := BitVec.ofNat 64 (p.field 0x30 8)
def Packet.signalAddress (p : Packet) (k : Nat) : Dword := BitVec.ofNat 64 (p.field (0x40 + 8 * k) 8)
def Packet.signalValue (p : Packet) (k : Nat) : Nat := p.field (0x60 + 8 * k) 8

def Packet.latencyCritical (p : Packet) : Bool := p.field 1 1 / 4 % 2 == 1

/-- R181, R182, R240: whether a field of a packet is invalid. -/
def Packet.fieldsBad (p : Packet) : Bool :=
  let c := p.cores
  let d := p.depth
  let loops := (List.range d).map p.loop
  (classSlot p.cls).isNone || p.field 1 1 % 4 == 3 || p.field 1 1 / 8 != 0 || decide (4 < p.waits) ||
  p.field 3 1 != 0 || p.field 6 2 != 0 || p.field 0x22 6 != 0 ||
  !decide (1 ≤ c ∧ c ≤ (if p.cls = 1 then 16 else if p.cls = 2 then 64 else 1)) ||
  !decide (1 ≤ d ∧ d ≤ 4) || !(List.range d).all loops.contains || p.field 0x20 1 / 4 ^ d != 0 ||
  (List.range 4).any (fun k => decide (k < d) && p.count k == 0 || decide (d ≤ k) && p.count k != 0) ||
  p.field 0x38 8 % 16 != 0 ||
  (List.range 4).any (fun k => if k < p.waits then (p.signalAddress k).toNat % 8 != 0
    else p.signalAddress k != 0 || p.signalValue k != 0)

/-- R224: the cost of a shape in the register range. -/
def shapeCost : Shape → Nat
  | .general => 264
  | _ => 16

/-- R224: the footprint of a group of a role. -/
def KernelDesc.footprint (d : KernelDesc) (budget : Nat) : Nat :=
  (((d.regmap.take budget).map shapeCost).sum + 63) / 64 * 64

/-- The budgets of the groups of a kernel, by gid (R211). -/
def KernelDesc.budgets (d : KernelDesc) : List Nat := d.roles.flatMap (fun r => List.replicate r.groups r.budget)

/-- A quotient rounded up. -/
def ceilDiv (a b : Nat) : Nat := (a + b - 1) / b

/-- R210, R224: whether a vector kernel does not fit its packet; vsize is the size of the V image. -/
def KernelDesc.vectorBad (d : KernelDesc) (c vsize : Nat) : Bool :=
  let n := (d.roles.map (fun r => r.groups)).sum
  let codes := regmapCodes d.regmapRaw
  let a := d.regmap.length
  let prints := (d.budgets.map d.footprint).mergeSort (fun x y => decide (y ≤ x))
  decide (64 * c < n) || decide (1024 < n) || !decide (1 ≤ d.roles.length ∧ d.roles.length ≤ 4) ||
  d.roles.any (fun r => r.groups == 0 || r.budget == 0 || decide (a < r.budget) || r.entry % 4 != 0 || decide (vsize ≤ r.entry)) ||
  (codes.take a).any (fun x => x == 0) || decide (1024 * d.poolR < (prints.take (ceilDiv n c)).sum)

/-- R387: the bytes that a team's save area needs. -/
def saveBytes (cls n c p : Nat) : Nat :=
  if cls = 1 then 0x10000 + 0x12000 * n + c * (ceilDiv (1065 * p) 4096 * 4096)
  else if cls = 2 then 0x2000 + 0x1000 * c
  else 0x13A0000

/-- R181, R210, R224, R257, R387: whether a packet does not fit its queue or its kernel. -/
def Packet.bad (p : Packet) (q : Queue) (d : KernelDesc) (vsize : Nat) : Bool :=
  p.fieldsBad || (p.cls == 1 && d.vectorBad p.cores vsize) ||
  (q.hcls && (p.cls != 1 || p.cores != 1 || p.field 1 1 % 8 != 0 || decide (48 < d.barriers))) ||
  decide (q.savs.toNat < saveBytes p.cls d.budgets.length p.cores d.poolS)

/-! ## Placement maps -/

/-- R244: an entry of a map that is absent: every core of the queue's hub. -/
def defaultMap (h : HubId) (cls : Nat) : PlacementMap :=
  { loop := 0, shift := 0
    entries := [{ hubs := if hubNumber h = 0 then 1 else 2, chiplets := if cls = 1 then 0x0F else if cls = 3 then 0x07 else 0,
                  cores := if cls = 3 then 0x0F else 0xFFFFFFFF }] }

/-- R244: reads the entries of a map. -/
def mapEntry (bs : List Byte) (e : Nat) : MapEntry :=
  { hubs := bs.getD (16 * e) 0, chiplets := bs.getD (16 * e + 1) 0, cores := BitVec.ofNat 64 (fieldAt bs (16 * e + 8) 8) }

/-- R244, R245: whether an entry has a reserved bit set. -/
def entryReserved (cls : Nat) (bs : List Byte) (e : Nat) : Bool :=
  let m := mapEntry bs e
  decide (4 ≤ m.hubs.toNat) || !zeroAt bs (16 * e + 2) 6 ||
  decide ((if cls = 1 then 16 else if cls = 3 then 8 else 1) ≤ m.chiplets.toNat) ||
  decide ((if cls = 3 then 16 else 2 ^ 32) ≤ m.cores.toNat)

/-- R434: whether a unit is present, by its chiplet's capability table. -/
def Hub.presentAt (h : Hub) (pos unit : Nat) : Bool :=
  h.fit.getLsbD pos && h.caps.any (fun c => c.pos == pos && decide (unit < c.units))

/-- R434: the record of a unit in its chiplet's capability table. -/
def Hub.unitRecord (h : Hub) (pos unit : Nat) : Byte :=
  ((h.caps.find? (fun c => c.pos == pos)).map (fun c => c.records.getD unit 0)).getD 0

/-- R434: a unit that its record marks isolated. -/
def unitIsolated (r : Byte) : Bool := r.getLsbD 7 || decide (9 ≤ r.toNat % 16)

/-- R221, R436: whether a unit may be used: present, its chiplet live and itself not isolated. -/
def State.usable (s : State) (u : CoreUnit) : Bool :=
  let h := s.hub (unitHub u)
  let unit := unitCore u
  let pos := unitChiplet u
  h.presentAt pos unit && h.live.getLsbD pos && !unitIsolated (h.unitRecord pos unit)

/-- R221: the pool capacity of a vector core in KiB. -/
def State.poolCapacity (s : State) (u : CoreUnit) : Nat :=
  1536 - 32 * (((s.hub (unitHub u)).unitRecord (unitChiplet u) (unitCore u)).toNat % 16)

/-- The hubs that an entry allows. -/
def MapEntry.hubList (m : MapEntry) : List HubId :=
  (if m.hubs.getLsbD 0 then [HubId.h0] else []) ++ (if m.hubs.getLsbD 1 then [HubId.h1] else [])

/-- R244: the units that an entry allows, by chiplet, the scalar cores of all its hubs together. -/
def MapEntry.units (m : MapEntry) (cls : Nat) : List (List CoreUnit) :=
  let cores := fun (n : Nat) => (List.range n).filter (fun i => m.cores.getLsbD i)
  match cls with
  | 1 => m.hubList.flatMap (fun h => ((List.range 4).filter (fun k => m.chiplets.getLsbD k)).map (fun k =>
      (cores 32).map (fun i => CoreUnit.vector { hub := h, chiplet := k, core := i })))
  | 2 => [m.hubList.flatMap (fun h => (cores 32).map (fun i => CoreUnit.scalar h i))]
  | _ => m.hubList.flatMap (fun h => ((List.range 3).filter (fun k => m.chiplets.getLsbD k)).map (fun k =>
      (cores 4).map (fun i => CoreUnit.control { hub := h, chiplet := 4 + k, core := i })))

/-- R245: whether the check of an entry counts a unit: a vector core in use whose pool holds the division, of need KiB with its
shadow; a scalar core or a cluster that a map allows when it is present, isolated or not. -/
def State.countsUnit (s : State) (mapped : Bool) (need : Nat) (u : CoreUnit) : Bool :=
  match u with
  | .vector _ => s.usable u && decide (need ≤ s.poolCapacity u)
  | .scalar _ _ => if mapped then (s.hub (unitHub u)).presentAt (unitChiplet u) (unitCore u) else s.usable u
  | .control _ => (s.hub (unitHub u)).presentAt (unitChiplet u) (unitCore u)

/-- R245: whether an entry is legal: it names no hub that the form lacks (R1), it can hold a team, twice over for a pair, and it
leaves some unit that may be used (R434). -/
def State.entryHolds (s : State) (m : MapEntry) (mapped : Bool) (cls c need : Nat) (paired : Bool) : Bool :=
  let units := m.units cls
  let holds := units.map (fun us => (us.filter (s.countsUnit mapped need)).length / c)
  m.hubList.all s.hubPresent && decide ((if paired then 2 else 1) ≤ holds.sum) && units.any (fun us => us.any s.usable)

/-- R244, R245: the placement map of a packet, read and checked. -/
def State.readMap (s : State) (sp : Space) (h : HubId) (p : Packet) (d : KernelDesc) : State × Option PlacementMap :=
  let need := (d.poolR + d.poolS + d.poolL) * (if p.mode = .plain then 1 else 2)
  let holds := fun (s : State) (mapped : Bool) (m : PlacementMap) =>
    (s, if m.entries.all (fun e => s.entryHolds e mapped p.cls p.cores need (decide (p.mode = .paired))) then some m else none)
  if p.placement = 0 then holds s false (defaultMap h p.cls)
  else if p.placement.toNat % 64 ≠ 0 then (s, none)
  else match s.hubReadClean sp p.placement 16 with
    | none => (s, none)
    | some (s1, hd) =>
      let n := fieldAt hd 0 1
      if n = 0 ∨ 64 < n ∨ p.depth ≤ fieldAt hd 1 1 ∨ 63 < fieldAt hd 2 1 ∨ zeroAt hd 3 13 = false then (s1, none)
      else match s1.hubReadClean sp (p.placement + 16) (16 * n) with
        | none => (s1, none)
        | some (s2, bs) =>
          if (List.range n).any (entryReserved p.cls bs) then (s2, none)
          else holds s2 true { loop := fieldAt hd 1 1, shift := fieldAt hd 2 1, entries := (List.range n).map (mapEntry bs) }

/-! ## Steps -/

/-- R182, R239: a packet retires with launch error. -/
def State.launchError (s : State) (h : HubId) (q seq reason : Nat) : State :=
  s.retirePacket h q seq 1 (BitVec.ofNat 8 reason) []

/-- R239: a packet whose checks pass waits on its signals, or is placed at once. -/
def State.passPacket (s : State) (h : HubId) (q : Nat) (p : Packet) (d : KernelDesc) (m : PlacementMap) : State :=
  s.modPacket h q p.seq (fun x => { x with
    life := if p.waits = 0 then .placing else .waiting, desc := some d, map := some m, index := some [0, 0, 0, 0] })

/-- R39, R239: BUNDLE_VALIDATION: the head packet of a queue is checked. -/
def execBundleValidation (hub : HubId) (queue : Nat) (s : State) : Host.Outcome State Fault Refusal :=
  let q := (s.hub hub).queue queue
  match q.head with
  | none => .next s
  | some p =>
    if p.life ≠ .queued then .next s
    else
      let verdict := match s.readBundle (queueSpace hub q) p with
        | .bad s1 reason => s1.launchError hub queue p.seq reason
        | .good s1 d vsize =>
          if p.bad q d vsize then s1.launchError hub queue p.seq 0x0A
          else match s1.readMap (queueSpace hub q) hub p d with
            | (s2, none) => s2.launchError hub queue p.seq 0x0A
            | (s2, some m) => s2.passPacket hub queue p d m
      .next (s.closeEvent (.bundleValidation hub queue) verdict)

/-- R240, R326, R345: what an acquire of a hub at system scope asks before it reads a line: the releases that it is promoted
against are published, as far as they can be. Whether none is left. -/
def State.hubAsks (s : State) (h : HubId) (line : Nat) : State × Bool :=
  let a : AgentAt := { team := hubTeam h, gid := 0, hub := h }
  let s1 := s.publishFor a 5 [line]
  (s1, (s1.unpublished a 5 [line]).isEmpty)

/-- R341: an acquire of a hub raises its clock by the stamps that its reads have shown, the line's among them. -/
def State.hubAcquire (s : State) (h : HubId) (line : Nat) : State :=
  s.modHub h (fun x => { x.raise (maxTime x.readStamp (s.wtsOf line)) with readStamp := 0 })

/-- R240: a signal of the head packet is satisfied; with the last one it is placed. -/
def Packet.satisfy (p : Packet) (k : Nat) : Packet :=
  let done := k :: p.satisfied
  { p with satisfied := done, life := if (List.range p.waits).all done.contains then .placing else p.life }

/-- R240: DEPENDENCE_SIGNAL_READ. -/
def execDependenceSignalRead (hub : HubId) (queue signal : Nat) (s : State) : Host.Outcome State Fault Refusal :=
  let q := (s.hub hub).queue queue
  match q.head with
  | none => .next s
  | some p =>
    if p.life ≠ .waiting ∨ p.waits ≤ signal ∨ p.satisfied.contains signal = true then .next s
    else
      let sp := queueSpace hub q
      match translate s sp (p.signalAddress signal) .read with
      | .bad _ => .next (s.launchError hub queue p.seq 0x0A)
      | .ok x =>
        if (s.hubReach hub x 8).isSome then .next (s.launchError hub queue p.seq 0x0A)
        else
          let (s1, clear) := s.hubAsks hub (lineOfKey x.key)
          if !clear then .next s1
          else
            let r := s1.hubFetch sp (p.signalAddress signal) 8 x
            let s2 := r.1.hubAcquire hub (lineOfKey x.key)
            .next (s.closeEvent (.dependenceSignalRead hub queue signal)
              (if linkOrigin r.2.2 then s2.launchError hub queue p.seq 0x0A
               else if r.2.2 = 0 ∧ p.signalValue signal ≤ ofBytes r.2.1 then s2.modPacket hub queue p.seq (fun y => y.satisfy signal)
               else s2))

/-- The head packets that are to be checked, or whose signals are to be read. -/
def State.openHeads (s : State) : List Instr :=
  [HubId.h0, .h1].flatMap (fun h => (s.hub h).queues.flatMap (fun q => match q.head with
    | none => []
    | some p =>
      if p.life = .queued then [Instr.bundleValidation h q.index]
      else if p.life = .waiting then
        ((List.range p.waits).filter (fun k => !p.satisfied.contains k)).map (fun k => Instr.dependenceSignalRead h q.index k)
      else []))

end Sys2Proof.Machine
end

