-- ==== Sys2Proof/Machine/Capacity.lean ====
section
/-! DEFINITION. What cores can take: ranges of the pool (R222, R233), group slots (R246), harvest limits (R230, R258), and the
choice of cores among those a placement map allows (R234, R244, R246). -/

namespace Sys2Proof.Machine

/-! ## What is held -/

/-- Whether a team holds slots and ranges on its cores. -/
def Team.occupies (t : Team) : Bool := decide (t.life ≠ .saved) && decide (t.life ≠ .parked)

/-- The teams that hold something on a unit, but for some. -/
def State.holders (s : State) (u : CoreUnit) (released : List Nat) : List Team :=
  s.teams.filter (fun t => t.occupies && !released.contains t.id && t.cores.any (fun c => decide (c.unit = u)))

/-- The shares that teams hold on a unit. -/
def State.sharesOn (s : State) (u : CoreUnit) (released : List Nat) : List CoreShare :=
  (s.holders u released).flatMap (fun t => t.cores.filter (fun c => decide (c.unit = u)))

/-- R222: the ranges in use on a core. -/
def CoreShare.ranges (c : CoreShare) : List PoolRange := [c.poolr, c.pools, c.pooll, c.shadow].filter (fun r => r.size != 0)

/-- The groups of a team on a unit that hold a slot: until it is freed (R65), or their residence ends (R251). -/
def Team.groupsOn (t : Team) (u : CoreUnit) : List Group :=
  t.groups.filter (fun g => !g.slotFreed && !g.saved && decide (t.coreOf g = some u))

def State.slotsUsed (s : State) (u : CoreUnit) (released : List Nat) : List Nat :=
  (s.holders u released).flatMap (fun t => (t.groupsOn u).map (fun g => g.slot))

/-! ## Ranges and slots -/

/-- Whether a range of a core is free. -/
def rangeFree (used : List PoolRange) (base size : Nat) : Bool :=
  used.all (fun r => decide (base + size ≤ r.base) || decide (r.base + r.size ≤ base))

/-- A free range of a size below a capacity, the lowest; the hub chooses where ranges lie (log 25). -/
def allocRange (used : List PoolRange) (cap size : Nat) : Option PoolRange :=
  if size = 0 then some PoolRange.none
  else ((0 :: used.map (fun r => r.base + r.size)).mergeSort.find? (fun b => decide (b + size ≤ cap) && rangeFree used b size)).map
    (fun b => { base := b, size := size })

/-- Ranges of several sizes, one after another. -/
def allocRanges (cap : Nat) : List PoolRange → List Nat → Option (List PoolRange)
  | _, [] => some []
  | used, n :: ns => match allocRange used cap n with
    | none => none
    | some r => (allocRanges cap (if r.size = 0 then used else r :: used) ns).map (fun rs => r :: rs)

/-- R246: the lowest free slot of a quadrant, else of the next in turn. -/
def pickSlot (used : List Nat) (quadrant : Nat) : Option Nat :=
  ((List.range 4).flatMap (fun i => (List.range 16).map (fun j => (quadrant + i) % 4 * 16 + j))).find? (fun x => !used.contains x)

/-- R246: slots for n groups on a core, in gid order, the k-th from quadrant k mod 4. -/
def pickSlots (used : List Nat) (k : Nat) : Nat → Option (List Nat)
  | 0 => some []
  | n + 1 => match pickSlot used (k % 4) with
    | none => none
    | some x => (pickSlots (x :: used) (k + 1) n).map (fun xs => x :: xs)

/-! ## What a team needs -/

/-- What a team asks of its cores: by core in order, the groups it places there and its range sizes in KiB. -/
structure Need where
  cls : Nat
  /-- Per core: gids that take a slot, and the register range. -/
  cores : List (List Nat × Nat)
  poolS : Nat
  poolL : Nat
  /-- Each core's division is shadowed (R233). -/
  shadowed : Bool
  /-- A harvest team's footprints, which the reserve banks must hold (R230). -/
  harvest : Option Nat

/-- R246: the gids of the j-th of c cores. -/
def coreGids (n c j : Nat) : List Nat :=
  let p := ceilDiv n c
  (List.range n).filter (fun g => decide (j * p ≤ g ∧ g < (j + 1) * p))

/-- R222, R233, R246: the need of a team of n groups on c cores; away are groups that have retired. -/
def KernelDesc.need (d : KernelDesc) (cls n c : Nat) (staged harvest : Bool) (away : List Nat) : Need :=
  let stays := (List.range n).filter (fun g => !away.contains g)
  { cls := cls
    cores := (List.range c).map (fun j => ((coreGids n c j).filter (fun g => !away.contains g), d.poolR))
    poolS := d.poolS, poolL := d.poolL, shadowed := staged
    harvest := if harvest then some ((stays.map (fun g => d.footprint (d.budgets.getD g 0) + 1024)).sum) else none }

/-- R234: the need of a team spread over c cores, each register range as its groups ask. -/
def KernelDesc.spread (d : KernelDesc) (n c : Nat) (staged : Bool) (away : List Nat) : Need :=
  let need := d.need 1 n c staged false away
  let size := fun (gids : List Nat) => ceilDiv ((gids.map (fun g => d.footprint (d.budgets.getD g 0))).sum) 1024
  { need with cores := need.cores.map (fun x => (x.1, size x.1)) }

/-- The number of a class (R181). -/
def classNumber : TeamClass → Nat
  | .scalar => 2
  | .array => 3
  | _ => 1

/-- The gids of a team that take no slot. -/
def Team.away (t : Team) : List Nat := (t.groups.filter (fun g => g.retired && g.slotFreed)).map (fun g => g.gid)

/-- R234: the ways in which a saved team may be placed, the full division first, then spread over more cores. -/
def Team.resumeNeeds (t : Team) : List Need :=
  let n := t.groups.length
  let c := t.savedOn
  let full := t.desc.need (classNumber t.cls) n c t.staging t.harvest t.away
  if t.cls = .vector ∧ t.desc.poolS = 0 ∧ t.pairs.all (fun p => p.isNone) ∧ t.harvest = false then
    full :: (List.range (16 - c)).map (fun i => t.desc.spread n (c + 1 + i) t.staging t.away)
  else [full]

/-- What a team in reservation needs: the need that its number of cores comes from. -/
def Team.needNow (t : Team) : Need :=
  let c := t.wantCores.length
  match t.source with
  | .launch => t.desc.need (classNumber t.cls) (if t.cls = .vector then t.desc.budgets.length else c) c t.staging t.harvest []
  | _ => (t.resumeNeeds.find? (fun n => n.cores.length == c)).getD
      (t.desc.spread t.groups.length c t.staging t.away)

/-! ## Fit -/

/-- R230: the footprints of a team's groups that a core still holds, with their slot states. -/
def Team.heldBytes (t : Team) : Nat := (t.held.map (fun g => t.desc.footprint (t.desc.budgets.getD g.gid 0) + 1024)).sum

/-- R230, R258: whether harvest may take more on a core. -/
def State.harvestFits (s : State) (u : CoreUnit) (released : List Nat) (groups size prints : Nat) : Bool :=
  let on := (s.holders u released).filter (fun t => t.harvest)
  let kib := (on.flatMap (fun t => t.cores.filter (fun c => decide (c.unit = u)))).flatMap (fun c => c.ranges)
  (s.holders u []).any (fun t => decide (t.life = .running) && decide (t.hlim ≠ 0) &&
    decide ((on.map (fun t => t.held.length)).sum + groups ≤ bits t.hlim 6 0) &&
    decide ((kib.map (fun r => r.size)).sum + size ≤ 8 * bits t.hlim 15 8)) &&
  decide ((on.map Team.heldBytes).sum + prints ≤ 262144)

/-- R222, R246: the ranges of a part of a team and the slots of its groups, beside what is held on a vector core. -/
def Need.takes (n : Need) (cap j : Nat) (ranges : List PoolRange) (slots : List Nat) : Option (List PoolRange × List Nat) :=
  let part := n.cores.getD j ([], 0)
  match allocRanges cap ranges [part.2, n.poolS, n.poolL, if n.shadowed then part.2 + n.poolS + n.poolL else 0],
      pickSlots slots 0 part.1.length with
  | some rs, some ss => some (rs, ss)
  | _, _ => none

/-- A team's reservation on its way, from its next core on. -/
def Team.pending (t : Team) (u : CoreUnit) : Option Nat :=
  match t.life with
  | .reserving k =>
    let i := t.wantCores.findIdx (fun x => decide (x = u))
    if k ≤ i ∧ i < t.wantCores.length then some (t.wantParts.getD i i) else none
  | _ => none

/-- R247: what a vector core holds, and what the reservations on their way will take there. -/
def State.heldOn (s : State) (u : CoreUnit) (released : List Nat) : List PoolRange × List Nat :=
  (s.teams.filter (fun t => !released.contains t.id)).foldl (fun acc t => match t.pending u with
    | none => acc
    | some j => match t.needNow.takes (s.poolCapacity u) j acc.1 acc.2 with
      | some r => (acc.1 ++ r.1.filter (fun x => x.size != 0), acc.2 ++ r.2)
      | none => acc) ((s.sharesOn u released).flatMap CoreShare.ranges, s.slotsUsed u released)

/-- The share that a core can give to the j-th part of a team, with the slots of its groups; none when it cannot. -/
def State.shareOf (s : State) (n : Need) (released : List Nat) (j : Nat) (u : CoreUnit) : Option (CoreShare × List Nat) :=
  let part := n.cores.getD j ([], 0)
  match u with
  | .vector _ =>
    let held := s.heldOn u released
    match n.takes (s.poolCapacity u) j held.1 held.2 with
    | some ([r, sp, l, sh], slots) =>
      let fits := match n.harvest with
        | none => true
        | some prints => s.harvestFits u released part.1.length (part.2 + n.poolS + n.poolL) prints
      if fits then
        some ({ unit := u, poolr := r, pools := sp, pooll := l, shadow := sh, scratch := Scratchpad.clear (1024 * n.poolS),
                shadowScratch := if n.shadowed then some (Scratchpad.clear (1024 * n.poolS)) else none,
                l1 := { gen := 0, lines := [] }, firstGid := part.1.headD 0, groups := part.1.length }, slots)
      else none
    | _ => none
  | u =>
    if (s.holders u released).isEmpty && s.teams.all (fun t => released.contains t.id || (t.pending u).isNone) then
      some (CoreShare.bare u (part.1.headD 0), part.1.map (fun _ => 0))
    else none

/-- Whether a unit that is not claimed can take the j-th part of a team once some teams are released. -/
def State.fits (s : State) (n : Need) (released : List Nat) (claimed : List CoreUnit) (j : Nat) (u : CoreUnit) : Bool :=
  s.usable u && !claimed.contains u && (s.shareOf n released j u).isSome

/-- R247: whether some team reserves on a chiplet of units; harvest's reservations yield to those of owners (R258). -/
def State.reservingOn (s : State) (owner : Bool) (us : List CoreUnit) : Bool :=
  s.teams.any (fun t => !(owner && t.harvest) && (match t.life with
    | .reserving _ => t.wantCores.any (fun x => us.any (fun u => decide (unitHub x = unitHub u) && unitChiplet x == unitChiplet u))
    | _ => false))

/-! ## Choice of cores -/

/-- Cores that take the parts of a team from the j-th on; k parts are left. The parts of a team at its launch stand on ascending
cores (R246), those of a saved team on any (R234); seed numbers the choice that the hub has (log 25). -/
def chooseCores (fits : Nat → CoreUnit → Bool) (ordered : Bool) (seed : Option Nat) : Nat → Nat → List CoreUnit → Option (List CoreUnit)
  | _, 0, _ => some []
  | j, k + 1, us =>
    (turned seed k us.zipIdx).findSome? (fun x =>
      if fits j x.1 then
        (chooseCores fits ordered seed (j + 1) k (if ordered then us.drop (x.2 + 1) else us.eraseIdx x.2)).map (fun r => x.1 :: r)
      else none)
where
  /-- A list from a freely chosen element on, the ones before it at its end. -/
  turned {α : Type} (seed : Option Nat) (k : Nat) (xs : List α) : List α :=
    match seed with
    | none => xs
    | some n => let i := Config.freePlacement (n + k) % xs.length
      xs.drop i ++ xs.take i

/-- R244: the entry of a map for an iteration. -/
def PlacementMap.entryFor (m : PlacementMap) (ix : List Nat) : MapEntry :=
  m.entries.getD ((ix.getD m.loop 0 / 2 ^ m.shift) % m.entries.length) { hubs := 0, chiplets := 0, cores := 0 }

/-- R244: the unit lists in which a hub's scheduler places: of its own chiplets, the scalar cores of all allowed hubs together. -/
def MapEntry.unitsFor (m : MapEntry) (h : HubId) (cls : Nat) : List (List CoreUnit) :=
  if cls = 2 then (if m.hubList.contains h then m.units 2 else [])
  else (m.units cls).filter (fun us => us.any (fun u => decide (unitHub u = h)))

/-- What a placement looks for: parts of a team, in order or not, once or as twins, with the unit lists of the first and of the
second. -/
structure Wanted where
  need : Need
  ordered : Bool
  paired : Bool
  lists : List (List CoreUnit)
  twinLists : List (List CoreUnit)

/-- Cores of one of some lists for the parts of a team. -/
def State.coresIn (s : State) (w : Wanted) (released : List Nat) (claimed : List CoreUnit) (seed : Option Nat)
    (lists : List (List CoreUnit)) : Option (List CoreUnit) :=
  (chooseCores.turned seed 64 lists).findSome? (fun us => chooseCores (s.fits w.need released claimed) w.ordered seed 0 w.need.cores.length us)

/-- Whether two units stand on one chiplet. -/
def sameChiplet (u v : CoreUnit) : Bool := decide (unitHub u = unitHub v) && unitChiplet u == unitChiplet v

/-- The units of some lists, a chiplet at a time. -/
def byChiplet (lists : List (List CoreUnit)) : List (List CoreUnit) :=
  lists.flatMap (fun us => (us.map (fun u => (unitHub u, unitChiplet u))).eraseDups.map (fun c =>
    us.filter (fun u => decide ((unitHub u, unitChiplet u) = c))))

/-- The cores of a team in one of some lists, and those of its twin among the twin's units that the team's cores leave over. -/
def State.pairIn (s : State) (w : Wanted) (released : List Nat) (claimed : List CoreUnit) (seed : Option Nat)
    (lists : List (List CoreUnit)) (left : List CoreUnit → CoreUnit → Bool) : Option (List CoreUnit × List CoreUnit) :=
  (chooseCores.turned seed 128 lists).findSome? (fun us =>
    (chooseCores (s.fits w.need released claimed) w.ordered seed 0 w.need.cores.length us).bind (fun cs =>
      (s.coresIn w released claimed seed (w.twinLists.map (fun us => us.filter (left cs)))).map (fun cs2 => (cs, cs2))))

/-- R246: the cores of a placement, and of the twin, on another chiplet where map and capacity allow, else others of the same one. -/
def State.coresFor (s : State) (w : Wanted) (released : List Nat) (claimed : List CoreUnit) (seed : Option Nat) :
    Option (List CoreUnit × List CoreUnit) :=
  if !w.paired then (s.coresIn w released claimed seed w.lists).map (fun cs => (cs, []))
  else
    let apart := fun (cs : List CoreUnit) u => !cs.any (sameChiplet u)
    ((s.pairIn w released claimed seed (byChiplet w.lists) apart).or (s.pairIn w released claimed seed w.lists apart)).or
      (s.pairIn w released claimed seed w.lists (fun cs u => !cs.contains u))

/-- R246, R247: the cores of a placement that may begin now: on chiplets where no team reserves. -/
def State.coresNow (s : State) (w : Wanted) (owner : Bool) (claimed : List CoreUnit) : Option (List CoreUnit × List CoreUnit) :=
  let free := fun (lists : List (List CoreUnit)) => lists.filter (fun us => !s.reservingOn owner us)
  let w1 := { w with lists := free w.lists, twinLists := free w.twinLists }
  (s.coresFor w1 [] claimed (some (256 * s.tick))).or (s.coresFor w1 [] claimed none)

end Sys2Proof.Machine
end

