-- ==== Sys2Proof/Machine/Placement.lean ====
section
/-! DEFINITION. Placing teams: the traverse (R214, R242, R243), the scheduler's order (R241), reservations and the commit point
(R212, R213, R228, R233, R247, R313), withdrawal (R248), pre-emption requests (R249), harvest placement (R258, R259) and the
placing of saved and parked teams (R231, R234, R253). -/

namespace Sys2Proof.Machine

/-! ## The traverse -/

/-- R242: the next point of the loop nest after one, from a nesting position inwards out; none when the walk has ended. -/
def nextPoint (p : Packet) (ix : List Nat) : Nat → Option (List Nat)
  | 0 => none
  | k + 1 =>
    let m := p.loop k
    let v := ix.getD m 0 + 1
    if v < p.count m then some (ix.set m v) else nextPoint p (ix.set m 0) k

/-- R242, R243: the traverse emits while its window has room; n is the room. -/
def Packet.emit : Nat → Packet → Packet
  | 0, p => p
  | n + 1, p =>
    match p.index with
    | none => p
    | some ix => Packet.emit n { p with window := p.window ++ [ix], index := nextPoint p ix p.depth }

/-- R243, R248: the room in a packet's window of 8: the iterations of teams that may still be withdrawn keep theirs. -/
def State.windowRoom (s : State) (h : HubId) (q : Nat) (p : Packet) : Nat :=
  8 - p.window.length - (s.teams.filter (fun t => t.ofPacket h q p.seq && t.leader && (match t.life with
    | .clearing _ => decide (t.source = .launch)
    | .withdrawing => true
    | _ => false))).length

/-- The traverses of a hub's queues go on. -/
def State.emitAll (s : State) (h : HubId) : State :=
  s.modHub h (fun x => { x with
    queues := x.queues.map (fun q => { q with
      packets := q.packets.map (fun p => if p.life = .placing then Packet.emit (s.windowRoom h q.index p) p else p) }) })

/-! ## Candidates -/

/-- R237, R241: the rank of a queue, harvest class last. -/
def Queue.rank (q : Queue) : Nat := if q.hcls then 0 else q.pri.toNat + 1

/-- A candidate for placement (R241): a packet with iterations in its window, or a team saved or parked. -/
inductive Candidate where
  | packet (hub : HubId) (queue seq : Nat)
  | team (hub : HubId) (queue id : Nat)

def Candidate.hub : Candidate → HubId
  | .packet h _ _ => h
  | .team h _ _ => h

def Candidate.queue : Candidate → Nat
  | .packet _ q _ => q
  | .team _ q _ => q

/-- Teams before packets (R241). -/
def Candidate.kind : Candidate → Nat
  | .team _ _ _ => 0
  | .packet _ _ _ => 1

/-- R241: how recently a hub's scheduler served a queue: 0 when never, else its place. -/
def Hub.servedAt (h : Hub) (q : HubId × Nat) : Nat :=
  match h.lastServed.findIdx? (fun x => decide (x = q)) with
  | none => 0
  | some i => i + 1

/-- R241: whether one candidate stands before another. -/
def State.before_ (s : State) (h : HubId) (a b : Candidate) : Bool :=
  let rank := fun (c : Candidate) => ((s.hub c.hub).queue c.queue).rank
  if rank a ≠ rank b then decide (rank b < rank a)
  else if a.kind ≠ b.kind then decide (a.kind < b.kind)
  else decide ((s.hub h).servedAt (a.hub, a.queue) ≤ (s.hub h).servedAt (b.hub, b.queue))

/-- R241, R244: the candidates of a hub's scheduler in their order. -/
def State.candidatesOf (s : State) (h : HubId) : List Candidate :=
  let packets := [HubId.h0, .h1].flatMap (fun k => (s.hub k).queues.flatMap (fun q =>
    (q.packets.filter (fun p => p.window != [])).map (fun p => Candidate.packet k q.index p.seq)))
  let teams := (s.teams.filter (fun t => !t.occupies)).map (fun t => Candidate.team t.hub t.queue t.id)
  (teams ++ packets).mergeSort (s.before_ h)

/-- The map of a team's packet. -/
def State.mapOf (s : State) (t : Team) : PlacementMap :=
  ((((s.hub t.hub).queue t.queue).packet? t.packet).bind (fun p => p.map)).getD
    (defaultMap t.hub (match t.cls with | .scalar => 2 | .array => 3 | _ => 1))

/-! ## Groups and teams as placed -/

/-- R228: a register cleared in its declared shape. -/
def VReg.cleared : Shape → VReg
  | .uniform => { store := .uniform 0, poison := 0 }
  | .affine => { store := .affine 0 0, poison := 0 }
  | .general => { store := .general (List.replicate 64 0), poison := 0 }

/-- R211: the role of a gid: the role records cover the gids in order. -/
def roleOf : List Role → Nat → Nat → Nat × Role
  | [], i, _ => (i, { groups := 0, budget := 0, entry := 0 })
  | r :: rs, i, gid => if gid < r.groups then (i, r) else roleOf rs (i + 1) (gid - r.groups)

/-- R213: the s registers at the start of a team. -/
def startSregs (ix : List Word) (args : Dword) : List SReg :=
  let reg := fun (v : Dword) => ({ value := v, poison := false } : SReg)
  (List.range 4).map (fun k => reg ((ix.getD k 0).setWidth 64)) ++ [reg args] ++ List.replicate 91 (reg 0)

/-- R200, R213, R220: a group or work item at the start of its team, in a slot. -/
def Team.startGroup (t : Team) (gid coreIx slot : Nat) : Group :=
  let r := roleOf t.desc.roles 0 gid
  let g := match t.cls with
    | .vector => Group.fresh gid r.1 coreIx slot .V 64 (BitVec.allOnes 64) (t.desc.image + BitVec.ofNat 64 r.2.entry) .task
    | _ => Group.fresh gid 0 coreIx slot .S 1 1 (t.desc.image + BitVec.ofNat 64 t.desc.entry) .task
  let regs := { g.regs with
    vregs := if t.cls = .vector then (t.desc.regmap.take r.2.budget).map VReg.cleared else []
    sregs := startSregs t.ix t.args }
  { g with regs := regs, shadow := if t.staging then some regs else none, harvest := t.harvest, byTarget := regs.live }

/-- R139, R213: the named barriers at the start of a team of n groups. -/
def startBarriers (n : Nat) : List Barrier :=
  List.replicate 48 { expected := n, arrivals := 0, gen := 0, reord := [], arrived := [], copyArrived := false }

/-- A team as its reservation begins. -/
def newTeam (id : Nat) (h : HubId) (q : Queue) (p : Packet) (d : KernelDesc) (ix : List Nat) (want : List CoreUnit) : Team :=
  let barriers := startBarriers (if p.cls = 1 then d.budgets.length else p.cores)
  let pairs : List (Option PairSlot) := List.replicate 8 none
  { id := id, cls := if p.cls = 1 then .vector else if p.cls = 2 then .scalar else .array, hub := h, queue := q.index, packet := p.seq
    ix := ix.map (fun i => BitVec.ofNat 32 i), args := BitVec.ofNat 64 (p.field 0x28 8), mode := p.mode,
    latencyCritical := p.latencyCritical, harvest := q.hcls, life := .reserving 0, source := .launch, reported := false,
    commitSeq := 0, saveIx := 0, saveArea := 0, desc := d, asn := q.asn, ptroot := q.root, ktvec := q.ktv, hlim := 0,
    tenant := q.tenant, rbcnt := 0, cores := [], wantCores := want, wantParts := List.range want.length, savedOn := 0, groups := [], barriers := barriers, pairs := pairs,
    consts := d.consts, constPoison := d.constPoison, copies := [], nextCopy := 0, cluster := none, staged := [],
    shadowBarriers := barriers, shadowPairs := pairs, dataRollback := false, pairMismatch := false, twin := none, leader := true,
    feed := [], lineCopies := [], commitQueue := [], committing := none, lastCommitted := false, rollBackAfter := none, patrolCount := 0, preempting := false, leftClock := 0 }

/-! ## Returning reservations -/

/-- R247, R248: the iteration of a placement that is returned: it stays in its window before the commit point, and comes to the
window's head after it. -/
def State.returnIteration (s : State) (t : Team) : State :=
  s.modPacket t.hub t.queue t.packet (fun p => { p with
    window := match t.life with
      | .reserving _ => p.window
      | _ => t.ix.map (fun w => w.toNat) :: p.window
    teams := p.teams - (if t.twin.isSome then 2 else 1) })

/-- R247, R248, R253: what a team holds of a placement that has not issued is returned: a new team is no more, and a saved or
parked one is saved or parked as before. -/
def State.returnOne (s : State) (t : Team) : State :=
  match t.source with
  | .launch => s.dropTeam t.id
  | .saved => s.modTeam t.id (fun x => { x with life := .saved, cores := [] })
  | .parked => s.modTeam t.id (fun x => { x with life := .parked })

/-- R248: a placement is returned whole, that of a new pair with both its twins. -/
def State.returnPlacement (s : State) (tid : Nat) : State :=
  match s.team? tid with
  | none => s
  | some t =>
    if t.source ≠ .launch then s.returnOne t
    else
      let s1 := s.returnIteration t
      let s2 := match t.twin.bind s.team? with
        | some w => s1.returnOne w
        | none => s1
      s2.returnOne t

/-! ## Beginning a reservation -/

/-- R241: a queue has been served. -/
def Hub.serve (h : Hub) (q : HubId × Nat) : Hub := { h with lastServed := h.lastServed.filter (fun x => decide (x ≠ q)) ++ [q] }

/-- R239, R243: an iteration leaves the window as its placement commits; with the last one the packet runs. -/
def Packet.handOut (p : Packet) (ix : List Nat) : Packet :=
  let w := p.window.erase ix
  { p with window := w, life := if w = [] ∧ p.index.isNone then .running else p.life }

/-- What the placement of an iteration by a hub's scheduler looks for. -/
def Packet.wanted (p : Packet) (h : HubId) (q : Queue) (d : KernelDesc) (m : PlacementMap) (ix : List Nat) : Wanted :=
  let n := if p.cls = 1 then d.budgets.length else p.cores
  { need := d.need p.cls n p.cores (decide (p.mode ≠ .plain)) q.hcls [], ordered := true, paired := decide (p.mode = .paired)
    lists := (m.entryFor ix).unitsFor h p.cls, twinLists := (m.entryFor ix).units p.cls }

/-- The teams of a queue that are resident, saved, or on their way to a core. -/
def State.teamsOf (s : State) (h : HubId) (q : Nat) : Nat :=
  (s.teams.filter (fun t => decide (t.cls ≠ .boot) && decide (t.hub = h) && t.queue == q)).length

/-- R247, R258: the reservations of harvest teams on the chiplets of cores yield. -/
def State.yieldHarvest (s : State) (us : List CoreUnit) : State :=
  ((s.teams.filter (fun t => t.harvest && (match t.life with
    | .reserving _ => t.wantCores.any (fun x => us.any (fun u => decide (unitHub x = unitHub u) && unitChiplet x == unitChiplet u))
    | _ => false))).map (fun t => t.id)).foldl State.returnPlacement s

/-- R236, R246, R247: one iteration of a packet begins its reservation; none when no cores can take it, or its queue has all the
teams that it may have. -/
def State.placeIteration (s : State) (h k : HubId) (q : Queue) (p : Packet) (d : KernelDesc) (m : PlacementMap)
    (claimed : List CoreUnit) (ix : List Nat) : Option State :=
  let teams := if p.mode = .paired then 2 else 1
  if 1024 < s.teamsOf k q.index + teams then none
  else (s.coresNow (p.wanted h q d m ix) (!q.hcls) claimed).map (fun cs =>
    let s1 := if q.hcls then s else s.yieldHarvest (cs.1 ++ cs.2)
    let t := newTeam s1.nextTeam k q p d ix cs.1
    let w := newTeam (s1.nextTeam + 1) k q p d ix cs.2
    let new := if p.mode = .paired then [{ t with twin := some w.id }, { w with twin := some t.id, leader := false }] else [t]
    ({ s1 with teams := s1.teams ++ new, nextTeam := s1.nextTeam + teams }.modPacket k q.index p.seq (fun x => { x with
      teams := x.teams + teams })).modHub h (fun x => x.serve (k, q.index)))

/-- R243: the iterations of a window that are not being placed, in emission order. -/
def State.unplaced (s : State) (k : HubId) (q : Queue) (p : Packet) : List (List Nat) :=
  p.window.filter (fun ix => !s.teams.any (fun t => t.ofPacket k q.index p.seq && decide (t.source = .launch) &&
    decide (t.ix = ix.map (fun i => BitVec.ofNat 32 i)) && (match t.life with
      | .reserving _ => true
      | _ => false)))

/-- R231, R258: where a parked or spilled harvest team may go: any allowed core, a parked one its own. -/
def Team.resumeLists (t : Team) (m : PlacementMap) (h : HubId) : List (List CoreUnit) :=
  let lists := (m.entryFor (t.ix.map (fun w => w.toNat))).unitsFor h (classNumber t.cls)
  if t.life = .parked then [t.wantCores] else lists

/-- R234: what the placements of a saved or parked team look for, the full division first. -/
def State.resumesAs (s : State) (h : HubId) (t : Team) : List Wanted :=
  t.resumeNeeds.map (fun n => { need := n, ordered := decide (t.cls ≠ .vector), paired := false
                                lists := t.resumeLists (s.mapOf t) h, twinLists := [] })

/-- R234, R247: cores by part, in ascending order of core, with the part that each takes. -/
def byCore (cs : List CoreUnit) : List (CoreUnit × Nat) :=
  let place := fun (u : CoreUnit) => (hubNumber (unitHub u) * 16 + unitChiplet u) * 32 + unitCore u
  cs.zipIdx.mergeSort (fun a b => decide (place a.1 ≤ place b.1))

/-- R234, R253: a saved or parked team begins its reservation; none when no cores can take it. -/
def State.placeTeam (s : State) (h : HubId) (t : Team) (claimed : List CoreUnit) : Option State :=
  ((s.resumesAs h t).findSome? (fun w => s.coresNow w (!t.harvest) claimed)).map (fun cs =>
    let s1 := if t.harvest then s else s.yieldHarvest cs.1
    (s1.modTeam t.id (fun x => { x with
      life := .reserving 0, source := if t.life = .parked then .parked else .saved
      wantCores := (byCore cs.1).map (fun y => y.1), wantParts := (byCore cs.1).map (fun y => y.2), cores := [] })).modHub h
      (fun x => x.serve (t.hub, t.queue)))

/-! ## Making room -/

/-- The first ways to choose k of some things, in order. -/
def choosing {α : Type} : Nat → List α → List (List α)
  | 0, _ => [[]]
  | _ + 1, [] => []
  | k + 1, x :: xs => (choosing k xs).map (fun r => x :: r) ++ choosing (k + 1) xs

/-- R249: the rank of a team's queue. -/
def State.teamRank (s : State) (t : Team) : Nat := ((s.hub t.hub).queue t.queue).rank

/-- Teams whose storage is on its way back. -/
def Team.leaving (t : Team) : Bool :=
  t.preempting || decide (t.life = .saving) || decide (t.life = .clearing true) || decide (t.life = .withdrawing)

/-- A team and its twin. -/
def State.withTwins (s : State) (ids : List Nat) : List Nat :=
  ids ++ ids.filterMap (fun i => (s.team? i).bind (fun t => t.twin))

/-- R249: whether a team stands for itself and its twin among victims: the leader, or a follower whose leader holds no capacity. -/
def State.standsFor (s : State) (t : Team) : Bool :=
  t.leader || !(t.twin.bind s.team?).any (fun x => x.occupies && !x.leaving)

/-- R249: the teams that a packet of a rank may pre-empt, lowest priority first, the most recently committed first among equals;
one of a pair stands for both. -/
def State.victimPool (s : State) (rank : Nat) (units : List CoreUnit) : List Nat :=
  ((s.teams.filter (fun t => t.occupies && decide (t.cls ≠ .boot) && !t.harvest && !t.leaving && s.standsFor t && decide (s.teamRank t < rank) &&
      (s.withTwins [t.id]).any (fun i => ((s.team? i).map (fun x => (x.cores.map (fun c => c.unit) ++ x.wantCores).any units.contains)).getD false))).mergeSort
    (fun a b => if s.teamRank a ≠ s.teamRank b then decide (s.teamRank a < s.teamRank b) else decide (b.commitSeq ≤ a.commitSeq))).map
    (fun t => t.id)

/-- R250, R304: a team is told to leave: its groups take 0x70, an array cluster freezes first, a staged team rolls back first
(R252). -/
def State.requestPreemption (s : State) (tid : Nat) : State :=
  match s.team? tid with
  | none => s
  | some t =>
    let s1 := if t.staging ∧ t.life ≠ .rollingBack then s.rollBackTeam tid false else s
    s1.modTeam tid (fun x =>
      match x.cluster with
      | some c => { x with preempting := true, cluster := some { c with frozen := true } }
      | none => if x.staging then { x with preempting := true } else { x with preempting := true }.preemptAfter)

/-- R248, R249: a victim's placement is returned or withdrawn, or it is pre-empted. One of a pair whose twin already issues completes
its placement and is pre-empted then. -/
def State.evict (s : State) (tid : Nat) : State :=
  match s.team? tid with
  | none => s
  | some t => match t.life with
    | .reserving _ => s.returnPlacement tid
    | .clearing _ =>
      if (t.twin.bind s.team?).any (fun w => decide (w.life = .running)) then s
      else s.modTeam tid (fun x => { x with life := .clearing true })
    | .running => if t.preempting then s else s.requestPreemption tid
    | .rollingBack => if t.preempting then s else s.requestPreemption tid
    | _ => s

/-- R249, R258, R259: harvest yields a core: reservations are returned, resident teams revoked. -/
def State.clearHarvest (s : State) (u : CoreUnit) : State :=
  match u with
  | .vector id =>
    let early := (s.teams.filter (fun t => t.harvest && (match t.life with | .reserving _ => true | _ => false) &&
      t.wantCores.contains u)).map (fun t => t.id)
    let s1 := early.foldl (fun s i => s.returnPlacement i) s
    s1.revoke id (s1.harvestOn id)
  | _ => s

/-- All the cores of a placement, twin and all, once some teams are released. -/
def State.coresWithout (s : State) (w : Wanted) (released : List Nat) (claimed : List CoreUnit) : Option (List CoreUnit) :=
  (s.coresFor w released claimed none).map (fun cs => cs.1 ++ cs.2)

/-- The harvest teams. -/
def State.harvestTeams (s : State) : List Nat := (s.teams.filter (fun t => t.harvest)).map (fun t => t.id)

/-- R249: room for an owner's iteration that has none: harvest first, then the fewest victims whose release suffices. It answers the
cores that the iteration claims. -/
def State.makeWay (s : State) (rank : Nat) (w : Wanted) (claimed : List CoreUnit) : State × List CoreUnit :=
  let leaving := (s.teams.filter Team.leaving).map (fun t => t.id)
  let clear := fun (s : State) (cs : List CoreUnit) => cs.foldl (fun s u => s.clearHarvest u) s
  match (s.coresWithout w s.harvestTeams claimed).or (s.coresWithout w (s.harvestTeams ++ leaving) claimed) with
  | some cs => (clear s cs, cs)
  | none =>
    let pool := s.victimPool rank ((w.lists ++ w.twinLists).flatMap id)
    match (List.range pool.length).findSome? (fun k => (choosing (k + 1) pool).findSome? (fun vs =>
        (s.coresWithout w (s.harvestTeams ++ leaving ++ s.withTwins vs) claimed).map (fun cs => (vs, cs)))) with
    | none => (s, [])
    | some x => ((s.withTwins x.1).foldl (fun s i => s.evict i) (clear s x.2), x.2)

/-- R247, R249: an iteration that no cores can take now claims the cores that it waits for, as a reservation on their chiplet ends;
else it presses for room, which a harvest packet never does. -/
def State.press (s : State) (q : Queue) (w : Wanted) (claimed : List CoreUnit) : State × List CoreUnit :=
  match s.coresWithout w [] claimed with
  | some cs => (s, cs)
  | none => if q.hcls then (s, []) else s.makeWay q.rank w claimed

/-- R234: a team left saved is told of once, by event 0x72. -/
def State.leftSaved (s : State) (h : HubId) (t : Team) : State :=
  if t.reported ∨ t.life ≠ .saved then s
  else (s.modTeam t.id (fun x => { x with reported := true })).modHub h (fun x => x.queueEvent 0x72 t.saveArea 0)

/-- What a candidate answers: the state, whether it took capacity, and the cores that it keeps from those after it. -/
abbrev Considered := State × Bool × List CoreUnit

/-- R241, R243, R249: a packet is considered: its next iteration takes capacity or claims it, and is passed by later ones. -/
def State.considerPacket (s : State) (h k : HubId) (q : Queue) (p : Packet) (claimed : List CoreUnit) : Considered :=
  match p.desc, p.map with
  | some d, some m =>
    match (s.unplaced k q p).filter (fun ix => !((m.entryFor ix).unitsFor h p.cls).isEmpty) with
    | [] => (s, false, [])
    | ix :: rest =>
      match s.placeIteration h k q p d m claimed ix with
      | some s1 => (s1, true, [])
      | none =>
        let r := if 1024 ≤ s.teamsOf k q.index then (s, []) else s.press q (p.wanted h q d m ix) claimed
        match rest.findSome? (fun ix => r.1.placeIteration h k q p d m (claimed ++ r.2) ix) with
        | some s1 => (s1, true, [])
        | none => (r.1, false, r.2)
  | _, _ => (s, false, [])

/-- R234, R259: a saved or parked team is considered: it takes capacity, or claims the cores that it waits for, revoking harvest that
alone blocks them, or is left as it is. -/
def State.considerTeam (s : State) (h : HubId) (t : Team) (claimed : List CoreUnit) : Considered :=
  match s.placeTeam h t claimed with
  | some s1 => (s1, true, [])
  | none =>
    let without := fun (released : List Nat) => (s.resumesAs h t).findSome? (fun w => s.coresWithout w released claimed)
    match without [], (if t.harvest then none else without s.harvestTeams) with
    | some cs, _ => (s, false, cs)
    | none, some cs => (cs.foldl (fun s u => s.clearHarvest u) s, false, cs)
    | none, none => (if t.hub = h then s.leftSaved h t else s, false, [])

/-- R241: one candidate is considered, some cores being claimed by those before it. -/
def State.consider (s : State) (h : HubId) (claimed : List CoreUnit) (c : Candidate) : Considered :=
  match c with
  | .packet k qi seq =>
    let q := (s.hub k).queue qi
    match q.packet? seq with
    | none => (s, false, [])
    | some p => s.considerPacket h k q p claimed
  | .team _ _ id =>
    match s.team? id with
    | none => (s, false, [])
    | some t => s.considerTeam h t claimed

/-- R241: PLACEMENT_CONSIDERATION: capacity goes to the first candidate that can take it; what one claims goes to none after it. -/
def execPlacementConsideration (hub : HubId) (s : State) : Host.Outcome State Fault Refusal :=
  let s1 := s.emitAll hub
  .next (((s1.candidatesOf hub).foldl (fun (acc : Considered) c =>
    if acc.2.1 then acc
    else
      let r := acc.1.consider hub acc.2.2 c
      (r.1, r.2.1, acc.2.2 ++ r.2.2)) (s1, false, [])).1)

/-! ## Reservation and commit -/

/-- R236: the lowest save area index that no other team of the queue holds. -/
def State.freeSaveIx (s : State) (t : Team) : Nat :=
  let used := (s.teams.filter (fun x => decide (x.cls ≠ .boot) && decide (x.hub = t.hub) && x.queue == t.queue && x.id != t.id &&
    (match x.life with | .reserving _ => x.source != .launch | _ => true))).map (fun x => x.saveIx)
  ((List.range 1024).find? (fun k => !used.contains k)).getD 0

/-- The groups of a part of a team, in their slots: new ones at a launch, else those saved or parked, whose slots they take. -/
def Team.seat (t : Team) (coreIx : Nat) (gids slots : List Nat) : List Group :=
  match t.source with
  | .launch => t.groups ++ (gids.zip slots).map (fun x => t.startGroup x.1 coreIx x.2)
  | .saved => t.groups.map (fun g => match (gids.zip slots).find? (fun x => x.1 == g.gid) with
      | some x => { g with coreIx := coreIx, slot := x.2 }
      | none => g)
  | .parked => t.groups.map (fun g => match (gids.zip slots).find? (fun x => x.1 == g.gid) with
      | some x => { g with coreIx := coreIx, slot := x.2 }
      | none => g)

/-- R247: whether another team's reservation on the chiplet of a unit stands before this one's. -/
def State.reservedBefore (s : State) (t : Team) (u : CoreUnit) : Bool :=
  s.teams.any (fun x => decide (x.id < t.id) && (match x.life with
    | .reserving _ => x.wantCores.any (fun y => decide (unitHub y = unitHub u) && unitChiplet y == unitChiplet u)
    | _ => false))

/-- R212, R213, R313: the commit point: the team takes its order and its save area, its clusters are launched, and its cores lose
the code lines of its address space. -/
def State.commitPlacement (s : State) (tid : Nat) : State :=
  match s.team? tid with
  | none => s
  | some t =>
    let q := (s.hub t.hub).queue t.queue
    let ix := if t.source = .launch then s.freeSaveIx t else t.saveIx
    let cluster := match t.cls, t.source, t.cores.head? with
      | .array, .launch, some c => (match c.unit with
          | .control id => some (Cluster.fresh id t.desc.engines)
          | _ => none)
      | _, _, _ => t.cluster
    let seat := fun (x : Team) => { x with
      life := .clearing false, commitSeq := s.commits, saveIx := ix
      saveArea := q.savb + BitVec.ofNat 64 (ix * q.savs.toNat), ktvec := q.ktv, cluster := cluster, savedOn := t.cores.length }
    let s1 := (t.cores.foldl (fun s c => s.modCore c.unit (fun k => { k with
      icache := k.icache.filter (fun l => l.asn != t.asn) })) s).modTeam tid seat
    { s1 with commits := s.commits + 1 }

/-- Whether every core of a team in reservation is reserved. -/
def Team.reserved (t : Team) : Bool := decide (t.life = .reserving t.wantCores.length)

/-- R243, R247, R404: the last core of a placement is acknowledged. A team commits; of a new pair the first so far leads, and both
commit with the second. The iteration is handed out. -/
def State.acknowledge (s : State) (tid : Nat) : State :=
  match s.team? tid with
  | none => s
  | some t =>
    if t.source ≠ .launch then s.commitPlacement tid
    else
      let out := fun (s : State) => (s.modPacket t.hub t.queue t.packet (fun p => p.handOut (t.ix.map (fun w => w.toNat)))).queueProgress t
      match t.twin.bind s.team? with
      | none => out (s.commitPlacement tid)
      | some w =>
        if w.reserved then out ((s.commitPlacement w.id).commitPlacement tid)
        else (s.modTeam tid (fun x => { x with leader := true })).modTeam w.id (fun x => { x with leader := false })

/-- R228, R231, R246, R247: CORE_RESERVATION: one more core of a team is reserved, in ascending order; with the last one it commits.
A core without capacity returns what was reserved. -/
def execCoreReservation (team : Nat) (s : State) : Host.Outcome State Fault Refusal :=
  match s.team? team with
  | none => .next s
  | some t => match t.life with
    | .reserving k =>
      match t.wantCores[k]? with
      | none => .next s
      | some u =>
        if s.reservedBefore t u then .next s
        else
          let n := t.needNow
          let j := t.wantParts.getD k k
          match (if s.usable u then s.shareOf n [t.id] j u else none) with
          | none => .next (s.returnPlacement team)
          | some (share, slots) =>
            let gids := (n.cores.getD j ([], 0)).1
            let s1 := s.modTeam team (fun x => { x with
              cores := x.cores ++ [share], groups := x.seat k gids slots, life := .reserving (k + 1) })
            .next (if k + 1 = t.wantCores.length then s1.acknowledge team else s1)
    | _ => .next s

/-! ## Clearing and withdrawal -/

/-- R330: whether every access that a team issued has completed. -/
def State.teamQuiet (s : State) (t : Team) : Bool :=
  !s.txns.any (fun x => x.team == t.id) && !s.cores.any (fun c => c.combining.any (fun e => e.team == t.id))

/-- R231, R260: a parked team that is placed again: its registers return from the reserve banks, its scratchpad's lost regions
are absent, and each group takes 0x71 before it issues. -/
def State.unpark (s : State) (t : Team) : State :=
  let absent := fun (c : CoreShare) (g : Group) => (List.range (c.scratch.size / 128)).filter (fun n =>
    g.lost.getLsbD (64 * n / (c.scratch.size / 128)))
  let first := t.groups.headD (Group.fresh 0 0 0 0 .V 0 0 0 .task)
  let back := fun (x : Team) => { x with
    life := .running, source := .launch
    cores := x.cores.map (fun c => { c with scratch := { c.scratch with absent := absent c first } })
    groups := x.groups.map (fun g => if g.retired then g else g.post .harvestRevoke) }
  let s1 := s.modTeam t.id back
  { s1 with cores := s1.cores.map (fun c => { c with reserve := c.reserve.filter (fun i => i != t.id) }) }

/-- The clocks of the hubs on which a team stands take a time. -/
def State.raiseFor (s : State) (t : Team) (clock : Dword) : State :=
  t.cores.foldl (fun s c => s.modHub (unitHub c.unit) (fun h => h.raise clock)) s

/-- R326, R331: the start of a team acquires what the acceptance of its packet released. -/
def State.acquireLaunch (s : State) (t : Team) : State :=
  s.raiseFor t (((((s.hub t.hub).queue t.queue).packet? t.packet).map (fun p => p.clock)).getD 0)

/-- R330: the clock that a residence of a team leaves to the next. -/
def State.clockOf (s : State) (t : Team) : Dword := t.cores.foldl (fun c x => maxTime c (s.hub (unitHub x.unit)).lclk) t.leftClock

/-- R319: the read-only paths of a team's chiplets hold, at its start or its resumption, no line that was filled before. -/
def State.freshPaths (s : State) (t : Team) : State :=
  { s with readOnly := s.readOnly.filter (fun p => !t.cores.any (fun c => match c.unit with
      | .vector id => decide (id.hub = p.hub) && id.chiplet == p.chiplet
      | _ => false)) }

/-- R212, R326: a new team issues; one whose twin is already told to leave is told at once (R249). -/
def State.startTeam (s : State) (t : Team) : State :=
  let s1 := ((s.acquireLaunch t).freshPaths t).modTeam t.id (fun x => { x with life := .running })
  if (t.twin.bind s.team?).any (fun w => w.preempting) then s1.requestPreemption t.id else s1

/-- R212, R228, R248, R330: RANGE_CLEAR_DONE: the team issues, is restored first (R253), or is withdrawn. -/
def execRangeClearDone (team : Nat) (s : State) : Host.Outcome State Fault Refusal :=
  match s.team? team with
  | none => .next s
  | some t => match t.life, t.source with
    | .clearing true, .launch => .next (s.modTeam team (fun x => { x with life := .withdrawing }))
    | .clearing true, _ => .next (s.returnPlacement team)
    | .clearing false, .launch => .next (s.startTeam t)
    | .clearing false, .saved => .next (s.modTeam team (fun x => { x with life := .restoring }))
    | .clearing false, .parked => .next (if s.teamQuiet t then s.unpark t else s)
    | _, _ => .next s

/-- R248: WITHDRAWAL: a team that has not issued releases its ranges, a pair's with both, and its iteration returns to its window. -/
def execWithdrawal (team : Nat) (s : State) : Host.Outcome State Fault Refusal :=
  match s.team? team with
  | none => .next s
  | some t =>
    if decide (t.life = .withdrawing) && (t.twin.bind s.team?).all (fun w => decide (w.life = .withdrawing)) then
      .next (s.returnPlacement team)
    else .next s

/-- The steps that stand open for placements. -/
def State.openPlacements (s : State) : List Instr :=
  (s.teams.flatMap (fun t => match t.life with
    | .reserving k => if k < t.wantCores.length then [Instr.coreReservation t.id] else []
    | .clearing _ => [.rangeClearDone t.id]
    | .withdrawing => [.withdrawal t.id]
    | _ => [])) ++
  [HubId.h0, .h1].flatMap (fun h =>
    if (s.hub h).queues.any (fun q => q.packets.any (fun p => decide (p.life = .placing))) || !(s.candidatesOf h).isEmpty then
      [Instr.placementConsideration h] else [])

end Sys2Proof.Machine
end

