-- ==== Sys2Proof/Machine/SaveArea.lean ====
section
/-! DEFINITION. The team save area: its layout for vector, scalar and array teams (R306, R307, R387 to R391), as the hub writes it
and reads it back. -/

namespace Sys2Proof.Machine

/-! ## Pieces of a save area -/

/-- Bytes at an offset of a save area. -/
abbrev Blob := Nat × List Byte

/-- A number of bytes at an offset. -/
def blob (offset size v : Nat) : Blob := (offset, toBytes size v)

/-- R251: the hub writes pieces of a save area; the cause of a write that fails. -/
def State.writeBlobs (s : State) (sp : Space) (base : Dword) (bs : List Blob) : Except Nat State :=
  bs.foldl (fun (acc : Except Nat State) b => acc.bind (fun s =>
    (linePieces (base + BitVec.ofNat 64 b.1).toNat b.2.length).foldl (fun (acc : Except Nat State) p => acc.bind (fun s =>
      let a := base + BitVec.ofNat 64 (b.1 + p.1)
      match translate s sp a .write with
      | .bad f => .error f.cause
      | .ok x =>
        match s.hubReach sp.masterHub x p.2 with
        | some e => .error e.toNat
        | none => .ok (s.hubStore sp a x ((b.2.drop p.1).take p.2)))) (.ok s))) (.ok s)

/-- R253, R308: the hub reads a range of a save area; the cause of a read that fails. -/
def State.readBlob (s : State) (sp : Space) (va : Dword) (n : Nat) : Except Nat (State × List Byte) :=
  (linePieces va.toNat n).foldl (fun (acc : Except Nat (State × List Byte)) p => acc.bind (fun a =>
    let v := va + BitVec.ofNat 64 p.1
    match translate a.1 sp v .read with
    | .bad f => .error f.cause
    | .ok x =>
      match a.1.hubReach sp.masterHub x p.2 with
      | some e => .error e.toNat
      | none =>
        let r := a.1.hubFetch sp v p.2 x
        if r.2.2 = 0 then .ok (r.1, a.2 ++ r.2.1) else .error (if linkOrigin r.2.2 then r.2.2.toNat else 0x50))) (.ok (s, []))

/-- Flags as bytes, and back. -/
def flagAt (bs : List Byte) (offset n : Nat) : Bool := (bs.getD (offset + n / 8) 0).getLsbD (n % 8)

/-- Memory from bytes, the first at address 0. -/
def memoryOf (bs : List Byte) : Memory := bs.zipIdx.filterMap (fun x => if x.1 = unlisted then none else some (x.2, x.1))

/-! ## Scratchpads -/

/-- R390: the record of a scratchpad. -/
def scratchBlob (p : Scratchpad) : List Byte :=
  p.readBytes 0 p.size ++ flagBytes (p.size / 32) p.poison.contains ++
  flagBytes (p.size / 1024) (fun n => !p.absent.contains n) ++ (List.range (p.size / 128)).map (fun l => p.origins.read l)

/-- R390: a scratchpad of a size from its record. -/
def scratchFrom (size : Nat) (bs : List Byte) : Scratchpad :=
  let word := size
  let line := size + size / 32
  let origin := line + size / 1024
  { size := size, bytes := memoryOf (bs.take size), poison := (List.range (size / 4)).filter (flagAt bs word)
    origins := memoryOf ((bs.drop origin).take (size / 128)), absent := (List.range (size / 128)).filter (fun n => !flagAt bs line n) }

/-- R387: the size of a scratchpad's record for P KiB. -/
def scratchBytes (p : Nat) : Nat := ceilDiv (1065 * p) 4096 * 4096

/-! ## Vector teams -/

/-- R389: the offset of a group's block. -/
def groupBlock (gid : Nat) : Nat := 0x10000 + 0x12000 * gid

/-- R388: a barrier's word: BARQ's layout and the flag of REORD arrivals. -/
def barrierWord (b : Barrier) : Nat :=
  b.arrivals % 65536 + b.expected % 65536 * 2 ^ 16 + b.gen.toNat * 2 ^ 32 + (if b.reord = [] then 0 else 2 ^ 48)

/-- R234: the per-core group set that stands on a core of a team. -/
def Team.partOn (t : Team) (k : Nat) : Nat := t.wantParts.getD k k

/-- R388: the core records, by per-core group set. -/
def coreBlobs (t : Team) : List Blob :=
  t.cores.zipIdx.flatMap (fun x =>
    let c := x.1
    let o := 0x1280 + 16 * t.partOn x.2
    [blob o 8 (groupBlock t.groups.length + scratchBytes t.desc.poolS * t.partOn x.2), blob (o + 8) 2 c.firstGid, blob (o + 10) 2 c.groups,
     blob (o + 12) 2 t.desc.poolS, blob (o + 14) 2 0])

/-- R389: the arrival generations of a group. -/
def arrivalBlob (g : Group) : Blob :=
  (groupBlock g.gid + 0x0B00,
   (List.range 48).flatMap (fun n => toBytes 2 (((g.arrGen[n]?).getD none).getD 0).toNat) ++
   flagBytes 8 (fun n => ((g.arrGen[n]?).getD none).isSome))

/-- R388 to R390: what the hub writes of a vector team. -/
def vectorBlobs (t : Team) (mode : Nat) : List Blob :=
  let n := t.groups.length
  let d := t.desc
  let c := t.cores.length
  [(0x1000, zeros 0xF000), blob 0x1000 2 1, blob 0x1002 2 1, blob 0x1004 4 (saveBytes 1 n c d.poolS), blob 0x1008 2 n, blob 0x100A 1 c,
   blob 0x100B 1 d.roles.length, blob 0x100C 1 mode, blob 0x1010 2 d.poolR, blob 0x1012 2 d.poolS, blob 0x1014 2 d.poolL,
   blob 0x1016 2 (ceilDiv n c), blob 0x1018 8 t.asn.toNat, blob 0x1020 8 t.ptroot.toNat, blob 0x1028 8 t.hlim.toNat,
   blob 0x1030 8 (t.queue + 64 * hubNumber t.hub + 65536 * t.saveIx), (0x1060, d.regmapRaw)] ++
  (d.roles.zipIdx.flatMap (fun x =>
    [blob (0x1040 + 8 * x.2) 2 x.1.groups, blob (0x1042 + 8 * x.2) 1 x.1.budget, blob (0x1044 + 8 * x.2) 4 (d.footprint x.1.budget)])) ++
  (t.barriers.zipIdx.map (fun x => blob (0x1080 + 8 * x.2) 8 (barrierWord x.1))) ++
  (t.pairs.zipIdx.flatMap (fun x => match x.1 with
    | some p => [blob (0x1200 + 16 * x.2) 4 p.base, blob (0x1204 + 16 * x.2) 4 p.size, blob (0x1208 + 16 * x.2) 4 (if p.side then 3 else 1)]
    | none => [])) ++
  coreBlobs t ++ (t.groups.map arrivalBlob) ++
  (t.cores.zipIdx.map (fun x => (groupBlock n + scratchBytes d.poolS * t.partOn x.2, scratchBlob x.1.scratch)))

/-- R177, R389: the trap register block of a group. -/
def trapBlock (g : Group) : List Byte :=
  bytesOfDword (tstat g) ++ toBytes 8 g.trap.cause.toNat ++ bytesOfDword g.trap.epc ++ bytesOfDword g.trap.val ++
  bytesOfDword g.trap.val2 ++ bytesOfDword g.trap.mask ++ ((List.range 8).flatMap (fun i => bytesOfDword (g.ts.getD i 0))) ++ zeros 144

/-- R389: for a harvest context spilled under R231, the parts of its groups that a handler writes. -/
def spillBlobs (t : Team) (base : Dword) : List Blob :=
  t.groups.flatMap (fun g =>
    let o := groupBlock g.gid
    [(o, trapBlock g), (o + 0x100, stateImage g (base + BitVec.ofNat 64 (o + 0x9100))), (o + 0x700, sregsImage g), (o + 0x9100, vregsImage t g)])

/-- R388: a barrier read back; what the image does not hold is as the hub kept it. -/
def barrierFrom (v : Nat) (b : Barrier) : Barrier :=
  { b with arrivals := v % 65536, expected := v / 2 ^ 16 % 65536, gen := BitVec.ofNat 16 (v / 2 ^ 32),
           reord := if v / 2 ^ 48 % 2 = 1 then b.reord else [] }

/-- R388: a pair slot read back. -/
def pairFrom (bs : List Byte) (o : Nat) : Option PairSlot :=
  let flags := fieldAt bs (o + 8) 4
  if flags % 2 = 1 then some { base := fieldAt bs o 4, size := fieldAt bs (o + 4) 4, side := flags / 2 % 2 == 1 } else none

/-- R389: arrival generations read back. -/
def arrivalsFrom (bs : List Byte) : List (Option Half) :=
  (List.range 48).map (fun n => if flagAt bs 96 n then some (BitVec.ofNat 16 (fieldAt bs (2 * n) 2)) else none)

/-- R388: what the header of a vector team gives it back; the bytes start at offset 0x1000. -/
def Team.fromHeader (t : Team) (bs : List Byte) : Team :=
  { t with
    asn := BitVec.ofNat 16 (fieldAt bs 0x18 8), ptroot := BitVec.ofNat 64 (fieldAt bs 0x20 8), hlim := BitVec.ofNat 64 (fieldAt bs 0x28 8)
    barriers := t.barriers.zipIdx.map (fun x => barrierFrom (fieldAt bs (0x80 + 8 * x.2) 8) x.1)
    pairs := (List.range 8).map (fun i => pairFrom bs (0x200 + 16 * i)) }

/-- A read that goes on with the next. -/
def readThen {α : Type} (r : Except Nat (State × List Byte)) (k : State → List Byte → Except Nat α) : Except Nat α := r.bind (fun x => k x.1 x.2)

/-- R389: the arrival generations of every group. -/
def State.readArrivals (s : State) (sp : Space) (t : Team) : Except Nat (State × Team) :=
  t.groups.foldl (fun (acc : Except Nat (State × Team)) g => acc.bind (fun a =>
    (a.1.readBlob sp (t.saveArea + BitVec.ofNat 64 (groupBlock g.gid + 0x0B00)) 104).map (fun r =>
      (r.1, a.2.modGroup g.gid (fun x => { x with arrGen := arrivalsFrom r.2 }))))) (.ok (s, t))

/-- R234, R390: the scratchpads of every core, each set's image to its own core. -/
def State.readScratches (s : State) (sp : Space) (t : Team) : Except Nat (State × Team) :=
  if t.desc.poolS = 0 then .ok (s, t)
  else (List.range t.cores.length).foldl (fun (acc : Except Nat (State × Team)) j => acc.bind (fun a =>
    let o := groupBlock t.groups.length + scratchBytes t.desc.poolS * t.partOn j
    let size := 1024 * t.desc.poolS
    (a.1.readBlob sp (t.saveArea + BitVec.ofNat 64 o) (size + size / 32 + size / 1024 + size / 128)).map (fun r =>
      let p := scratchFrom size r.2
      (r.1, a.2.modShare j (fun c => { c with scratch := p, shadowScratch := c.shadowScratch.map (fun _ => p) }))))) (.ok (s, t))

/-- R177, R389: the trap registers of a block, from its eight-byte words. -/
def TrapRegs.fromBlock (t : TrapRegs) (word : Nat → Dword) : TrapRegs :=
  let s := word 0
  let level := fun (b : Bool) => if b then Level.kernel else .task
  { t with
    level := level (s.getLsbD 0), plvl := level (s.getLsbD 2), nest := s.getLsbD 4, lsus := s.getLsbD 6
    epri := BitVec.ofNat 8 (bits s 15 8), edep := BitVec.ofNat 8 (bits s 23 16), rstg := s.getLsbD 24
    cause := (word 1).setWidth 7, epc := word 2, val := word 3, val2 := word 4, mask := word 5 }

/-- R231, R389: a spilled group as its block gives it. Of one that was parked inside its handler the lane records are the aside ones
(R365), and the handler's own positions, for which a block has no place, are as the hub keeps them (log 73). -/
def Group.fromBlock (g : Group) (regmap : List Shape) (trap state sregs vregs : List Byte) : Group :=
  let word := fun (i : Nat) => BitVec.ofNat 64 (fieldAt trap (8 * i) 8)
  let y := g.restoreState state
  let lanes := y.staged.getD []
  let t := g.trap.fromBlock word
  let positions := lanes.map (fun l => l.pos)
  { y with
    regs := { ((y.regs.restoreVregs regmap vregs []).restoreSregs sregs []) with
      pos := if t.level = .kernel then g.regs.pos else positions
      live := maskOf (fun l => ((lanes[l]?).map (fun z => z.live)).getD false) }
    aside := if t.level = .kernel then positions else g.aside
    staged := g.staged, ts := (List.range 8).map (fun i => word (6 + i)), trap := t }

/-- R389: a spilled group read back by the hub. -/
def State.readSpilled (s : State) (sp : Space) (t : Team) : Except Nat (State × Team) :=
  if !t.harvest then .ok (s, t)
  else t.groups.foldl (fun (acc : Except Nat (State × Team)) g => acc.bind (fun a =>
    let o := t.saveArea + BitVec.ofNat 64 (groupBlock g.gid)
    readThen (a.1.readBlob sp o 0x70) (fun s1 trap =>
      readThen (s1.readBlob sp (o + 0x100) 0x540) (fun s2 st =>
        readThen (s2.readBlob sp (o + 0x700) 0x380) (fun s3 sr =>
          readThen (s3.readBlob sp (o + 0x9100) (recordOffset g.regs.shapes g.regs.vregs.length)) (fun s4 vr =>
            .ok (s4, a.2.modGroup g.gid (fun x => x.fromBlock t.desc.regmap trap st sr vr)))))))) (.ok (s, t))

/-! ## Array teams -/

/-- R307: an operation of an engine. -/
def opBlobs (o : Nat) (x : EngOp) : List Blob :=
  let flag := fun (b : Bool) (n : Nat) => if b then n else 0
  [blob o 1 x.code, blob (o + 1) 1 (1 + flag x.started 2 + flag x.stopped 4 + flag x.declined 8), blob (o + 2) 1 (16 * x.pop + x.push),
   blob (o + 4) 4 x.row, blob (o + 8) 4 x.offset, blob (o + 0x10) 8 x.gaddr.toNat, blob (o + 0x18) 4 x.saddr] ++
  x.params.zipIdx.map (fun p => blob (o + 0x20 + 4 * p.2) 4 p.1.toNat)

def engStateCode : EngState → Nat
  | .stopped => 0
  | .running => 1
  | .faulted => 3

/-- R307: an engine record. -/
def engineBlobs (o : Nat) (e : Engine) : List Blob :=
  let words := fun (a : Nat) (ws : List Word) => ws.zipIdx.map (fun w => blob (a + 4 * w.2) 4 w.1.toNat)
  [(o, zeros 512), blob o 2 e.pc, blob (o + 2) 1 (engStateCode e.state), blob (o + 3) 1 e.stack.length,
   blob (o + 4) 1 (if e.state = .faulted then e.cause.toNat else 0), blob (o + 5) 1 e.cmds.length, blob (o + 6) 1 e.sigs.length,
   blob (o + 7) 1 e.ops.length] ++
  words (o + 8) e.stack.reverse ++
  (e.loops.zipIdx.flatMap (fun l => [blob (o + 0x28 + 12 * l.2) 4 l.1.n.toNat, blob (o + 0x2C + 12 * l.2) 4 l.1.m.toNat,
    blob (o + 0x30 + 12 * l.2) 4 l.1.start])) ++
  words (o + 0x50) e.cmds ++ words (o + 0x60) e.sigs ++ (e.ops.zipIdx.flatMap (fun x => opBlobs (o + 0x80 + 64 * x.2) x.1))

/-- R306: the record and the contents of a weight set. -/
def setBlobs (i : Nat) (w : WeightSet) : List Blob :=
  let o := 0x1040 + 16 * i
  let a := 0x22000 + 0x28000 * i
  [blob o 1 w.fmt.toNat, blob (o + 1) 1 ((if w.sparse then 1 else 0) + (if w.scaled then 2 else 0) + (if w.origin = 0 then 0 else 4)),
   blob (o + 2) 2 w.band.toNat, blob (o + 4) 4 w.k, (a, w.rows.flatMap id), (a + 0x20000, w.scales), (a + 0x22000, w.metadata)]

/-- R306: what the hub writes of an array team; it is laid over zeros. -/
def clusterBlobs (c : Cluster) : List Blob :=
  let entries := fun (o size : Nat) (q : List QueueEntry) => q.zipIdx.map (fun x => ((o + size * x.2, x.1.bytes) : Blob))
  let p := c.scratch
  [(0x1000, zeros 0x139F000), blob 0x1000 2 1, blob 0x1002 2 3, blob 0x1004 4 0x13A0000, blob 0x1008 1 (coreIndex (.control c.id)),
   blob 0x1009 1 (if c.exited then 0 else 1), blob 0x1010 8 c.efpst.toNat, blob 0x1018 8 c.bfmtl.toNat, blob 0x1020 8 c.bfmth.toNat,
   (0x1028, c.tokens.map (fun n => BitVec.ofNat 8 n)), blob 0x1038 1 c.metaQueue.length, blob 0x1039 1 c.scaleQueue.length] ++
  setBlobs 0 c.active ++ setBlobs 1 c.shadowSet ++
  [EngineKind.access, .array, .drain, .kiln].zipIdx.flatMap (fun x => engineBlobs (0x1100 + 512 * x.2) (c.engine x.1)) ++
  (c.gens.zipIdx.flatMap (fun x =>
    let o := 0x1900 + 32 * x.2
    [blob o 8 x.1.base.toNat, blob (o + 8) 4 x.1.s0.toNat, blob (o + 12) 4 x.1.s1.toNat, blob (o + 16) 4 x.1.c0.toNat,
     blob (o + 20) 4 x.1.i.toNat, blob (o + 24) 4 x.1.j.toNat, blob (o + 28) 4 x.1.wrap.toNat])) ++
  entries 0x2000 0x4000 c.metaQueue ++ entries 0x12000 0x2000 c.scaleQueue ++
  (c.acc.map (fun r => ((0x80000 + 1024 * r.row, r.cols.flatMap bytesOfWord) : Blob))) ++
  [(0x280000, flagBytes 256 (fun n => c.acc.any (fun r => r.row == n && r.origin != 0))),
   (0x300000, p.readBytes 0 p.size), (0x1300000, flagBytes 0x80000 p.poison.contains),
   (0x1380000, (List.range (p.size / 128)).map (fun l => p.origins.read l))]

/-- An origin read back from a poison bit: the one the hub kept, else uncorrectable data. -/
def originFrom (bad : Bool) (kept : Byte) : Byte := if !bad then 0 else if kept = 0 then 0x50 else kept

/-- R307: an operation read back; a stopped one has no request. -/
def opFrom (bs : List Byte) (o : Nat) (kept : EngOp) : EngOp :=
  let f := fieldAt bs (o + 1) 1
  { kept with
    code := fieldAt bs o 1 % 32, started := f / 2 % 2 == 1, stopped := f / 4 % 2 == 1, declined := f / 8 % 2 == 1, tag := none
    pop := fieldAt bs (o + 2) 1 / 16, push := fieldAt bs (o + 2) 1 % 16, row := fieldAt bs (o + 4) 4, offset := fieldAt bs (o + 8) 4
    gaddr := BitVec.ofNat 64 (fieldAt bs (o + 0x10) 8), saddr := fieldAt bs (o + 0x18) 4
    params := (List.range 8).map (fun i => BitVec.ofNat 32 (fieldAt bs (o + 0x20 + 4 * i) 4)) }

/-- R307: an engine read back. -/
def engineFrom (bs : List Byte) (o : Nat) (kept : Engine) : Engine :=
  let words := fun (a n : Nat) => (List.range n).map (fun i => BitVec.ofNat 32 (fieldAt bs (a + 4 * i) 4))
  { kept with
    pc := fieldAt bs o 2 % 2048
    state := match fieldAt bs (o + 2) 1 with
      | 1 => .running
      | 3 => .faulted
      | _ => .stopped
    stack := (words (o + 8) (min 8 (fieldAt bs (o + 3) 1))).reverse, cause := BitVec.ofNat 8 (fieldAt bs (o + 4) 1)
    loops := (List.range 3).map (fun i =>
      { n := BitVec.ofNat 32 (fieldAt bs (o + 0x28 + 12 * i) 4), m := BitVec.ofNat 32 (fieldAt bs (o + 0x2C + 12 * i) 4),
        start := fieldAt bs (o + 0x30 + 12 * i) 4 })
    cmds := words (o + 0x50) (min 4 (fieldAt bs (o + 5) 1)), sigs := words (o + 0x60) (min 4 (fieldAt bs (o + 6) 1))
    ops := kept.ops.zipIdx.filterMap (fun x =>
      if flagAt bs (o + 0x81 + 64 * x.2) 0 then some (opFrom bs (o + 0x80 + 64 * x.2) x.1) else none) }

/-- R306: a weight set read back; its rows are as many and as long as they were. -/
def setFrom (bs : List Byte) (i : Nat) (kept : WeightSet) : WeightSet :=
  let o := 0x1040 + 16 * i
  let a := 0x22000 + 0x28000 * i
  let flags := fieldAt bs (o + 1) 1
  let n := (kept.rows.headD []).length
  { k := fieldAt bs (o + 4) 4, fmt := BitVec.ofNat 8 (fieldAt bs o 1), sparse := flags % 2 == 1, scaled := flags / 2 % 2 == 1,
    band := BitVec.ofNat 16 (fieldAt bs (o + 2) 2), origin := originFrom (flags / 4 % 2 == 1) kept.origin
    rows := kept.rows.zipIdx.map (fun r => (bs.drop (a + n * r.2)).take n)
    scales := (bs.drop (a + 0x20000)).take kept.scales.length, metadata := (bs.drop (a + 0x22000)).take kept.metadata.length }

/-- R306, R308: a cluster read back from a save area of 0x13A0000 bytes. -/
def clusterFrom (bs : List Byte) (id : CoreId) (kept : Cluster) : Cluster :=
  let dword := fun (o : Nat) => BitVec.ofNat 64 (fieldAt bs o 8)
  let entries := fun (o size n : Nat) (q : List QueueEntry) => (q.take n).zipIdx.map (fun x =>
    { x.1 with bytes := (bs.drop (o + size * x.2)).take x.1.bytes.length })
  let row := fun (r : Nat) => (List.range 256).map (fun c => BitVec.ofNat 32 (fieldAt bs (0x80000 + 1024 * r + 4 * c) 4))
  { kept with
    id := id, bfmtl := dword 0x1018, bfmth := dword 0x1020, efpst := dword 0x1010
    access := engineFrom bs 0x1100 kept.access, array := engineFrom bs 0x1300 kept.array
    drain := engineFrom bs 0x1500 kept.drain, kiln := engineFrom bs 0x1700 kept.kiln
    tokens := (List.range 16).map (fun n => fieldAt bs (0x1028 + n) 1)
    gens := (List.range 8).map (fun i =>
      let o := 0x1900 + 32 * i
      let w := fun (k : Nat) => BitVec.ofNat 32 (fieldAt bs (o + k) 4)
      { base := dword o, s0 := w 8, s1 := w 12, c0 := w 16, i := w 20, j := w 24, wrap := w 28 })
    metaQueue := entries 0x2000 0x4000 (fieldAt bs 0x1038 1) kept.metaQueue
    scaleQueue := entries 0x12000 0x2000 (fieldAt bs 0x1039 1) kept.scaleQueue
    active := setFrom bs 0 kept.active, shadowSet := setFrom bs 1 kept.shadowSet
    acc := (List.range 2048).filterMap (fun r =>
      let origin := originFrom (flagAt bs 0x280000 r) (((kept.acc.find? (fun a => a.row == r)).map (fun a => a.origin)).getD 0)
      if (row r).all (fun w => w == 0) && origin == 0 then none else some { row := r, cols := row r, origin := origin })
    scratch := { size := clusterScratchSize, bytes := memoryOf ((bs.drop 0x300000).take clusterScratchSize)
                 poison := (List.range (clusterScratchSize / 4)).filter (flagAt bs 0x1300000)
                 origins := memoryOf ((bs.drop 0x1380000).take (clusterScratchSize / 128)), absent := [] } }

end Sys2Proof.Machine
end

