-- ==== Sys2Proof/Machine/Preempt.lean ====
section
/-! DEFINITION. Pre-emption: the trap (R250), the freeze of a cluster (R304, R305), the hub's save of a team (R251, R387 to R391)
and its restore (R253, R308), and the parking of revoked harvest teams (R230, R231, R260). -/

namespace Sys2Proof.Machine

/-! ## The trap and its budget -/

/-- R250: PREEMPTION: a group takes 0x70 before anything else that it may take. -/
def execPreemption (team gid : Nat) (s : State) : Host.Outcome State Fault Refusal :=
  .next (s.takeNow team gid (fun c => match c with
    | .preemption _ => true
    | _ => false))

/-- R251: whether a group has not ended its residence 64 × PSAVB cycles after its trap entry. -/
def State.overBudget (s : State) (t : Team) (g : Group) : Bool :=
  !g.saved && !g.retired && decide (t.life = .running) &&
  (match g.preemptedAt with
   | none => false
   | some c => decide (64 * (s.hub (s.agentHub t.id g.gid)).psavb.toNat ≤ (s.cycle - c).toNat))

/-- R251: SAVE_BUDGET_EXPIRY: the packet is killed with 0x70. -/
def execSaveBudgetExpiry (team gid : Nat) (s : State) : Host.Outcome State Fault Refusal :=
  match s.team? team, s.group? team gid with
  | some t, some g => .next (if s.overBudget t g then s.killTeam team 0x70 else s)
  | _, _ => .next s

/-! ## The freeze of a cluster -/

/-- R304: whether every operation of a cluster is at a stop point. -/
def State.atStops (s : State) (t : Team) : Bool :=
  [EngineKind.access, .array, .drain, .kiln].all (fun k => match s.engineAt t.id k with
    | none => true
    | some x => x.engine.ops.all (fun o => !x.mayMove o))

/-- R304: a word in any wait is rolled back: HALT waits anew, and a launch word returns the token that it removed. -/
def Cluster.rollBackWord (c : Cluster) (k : EngineKind) : Cluster :=
  let e := c.engine k
  let c1 := c.setEngine k { e with halting := false, took := false }
  let n := bits (e.wordAt e.pc) 7 4
  if e.took && n != 0 then c1.setTokens n (c1.tokenCount n + 1) else c1

/-- R304, R305: whether a cluster's freeze can be completed: the pre-emption of its team has not gone on from there. -/
def State.freezable (s : State) (t : Team) : Bool :=
  t.preempting && decide (t.life = .running) && (match t.cluster, t.groups.head? with
    | some c, some g => c.frozen && g.preemptedAt.isNone && !g.async.contains (.preemption false) && s.atStops t
    | _, _ => false)

/-- R304, R305: CLUSTER_FREEZE_DONE: a resident control core takes 0x70; without one the hub saves. -/
def execClusterFreezeDone (team : Nat) (s : State) : Host.Outcome State Fault Refusal :=
  match s.team? team with
  | none => .next s
  | some t =>
    if !s.freezable t then .next s
    else
      let s1 := s.modCluster team (fun c => [EngineKind.access, .array, .drain, .kiln].foldl Cluster.rollBackWord c)
      match t.cluster with
      | some c =>
        if c.exited then .next ((s1.modTeam team (fun t => { t with life := .saving })).due (.teamSaveComplete team))
        else .next (s1.post team 0 (.preemption false))
      | none => .next s

/-! ## The hub's save -/

/-- R388: the mode byte of a team's packet. -/
def State.modeByte (s : State) (t : Team) : Nat :=
  ((((s.hub t.hub).queue t.queue).packet? t.packet).map (fun p => p.field 1 1)).getD 0

/-- R387 to R391, R306: what the hub writes of a team. -/
def State.saveBlobs (s : State) (t : Team) : List Blob :=
  match t.cls, t.cluster with
  | .vector, _ => vectorBlobs t (s.modeByte t) ++ (if t.harvest then spillBlobs t t.saveArea else [])
  | .array, some c => clusterBlobs c
  | _, _ => [blob 0x1000 2 1, blob 0x1002 2 2, blob 0x1004 4 (saveBytes 2 t.groups.length t.groups.length 0)]

/-- R251, R259, R386: a team whose state is in its save area: its ranges return. -/
def State.markSaved (s : State) (t : Team) : State :=
  let s1 := (s.revokeFor t).modTeam t.id (fun x => { x with
    life := .saved, cores := [], wantCores := [], preempting := false, reported := false, leftClock := s.clockOf x })
  match t.cls with
  | .array => s1.dropEngineRequest t.id
  | _ => s1

/-- R251: the hub writes a team's state; a write that fails ends the packet with its cause. -/
def State.hubSave (s : State) (t : Team) : State :=
  match s.writeBlobs (queueSpace t.hub ((s.hub t.hub).queue t.queue)) t.saveArea (s.saveBlobs t) with
  | .ok s1 => s1.markSaved t
  | .error cause => s.killPacket t.hub t.queue t.packet (BitVec.ofNat 8 cause)

/-- R251: whether every group of a team has ended its residence. -/
def Team.allSaved (t : Team) : Bool :=
  decide (t.life = .saving) ||
  (decide (t.life = .running) && t.groups.any (fun g => g.saved) && t.groups.all (fun g => g.saved || g.retired))

/-- R251: TEAM_SAVE_COMPLETE. -/
def execTeamSaveComplete (team : Nat) (s : State) : Host.Outcome State Fault Refusal :=
  match s.team? team with
  | none => .next s
  | some t => .next (if t.allSaved then s.hubSave t else s)

/-! ## The hub's restore -/

/-- R187, R192, R253, R402: a resumed group starts in its handler; what the hub keeps of it stands. -/
def Team.resumedGroup (t : Team) (g : Group) : Group :=
  if g.retired then g
  else { t.startGroup g.gid g.coreIx g.slot with
    name := g.name, savedVregs := g.savedVregs, savedState := g.savedState, savedBoxes := g.savedBoxes, harvest := g.harvest,
    lost := g.lost, revocations := g.revocations, shadow := g.shadow, shadowArr := g.shadowArr, replay := g.replay, failures := g.failures,
    async := g.async.filter AsyncCause.isEngine, reordAt := g.reordAt, reordFailed := g.reordFailed, arrGen := g.arrGen, prqRes := g.prqRes,
    readStamp := g.readStamp }

/-- R408, R410: a team that issues again counts its patrol anew; its shadow is the restored state (R252). -/
def Team.resume (t : Team) : Team :=
  { t with
    life := .running, source := .launch, patrolCount := 0, preempting := false, shadowBarriers := t.barriers, shadowPairs := t.pairs
    groups := t.groups.map (fun g => { g with patrolCount := 0 }) }

/-- R253: every resumed group takes 0x70 with TVAL 1. -/
def State.enterResumed (s : State) (t : Team) : State :=
  t.groups.foldl (fun s g => if g.retired then s else s.takeAsync t.id g.gid 0x70 1 t.saveArea) s

/-- R253, R388 to R390: a vector team is restored. -/
def State.restoreVector (s : State) (t : Team) (sp : Space) : Except Nat State :=
  readThen (s.readBlob sp (t.saveArea + 0x1000) 0x380) (fun s1 header =>
    (s1.readArrivals sp (t.fromHeader header)).bind (fun a =>
      (a.1.readScratches sp a.2).bind (fun b =>
        if t.harvest then
          (b.1.readSpilled sp b.2).map (fun c =>
            let x := { c.2 with groups := c.2.groups.map (fun (g : Group) => if g.retired then g else g.post .harvestRevoke) : Team }
            c.1.setTeam x.resume)
        else
          let x := { b.2 with groups := b.2.groups.map b.2.resumedGroup : Team }
          .ok ((b.1.setTeam x.resume).enterResumed x))))

/-- R308: an operation restored as stopped at 0x43 translates again at once: a new page request comes due when the page at its
cursor is still absent, else the operation may go on, up to a later page of the row that is absent. -/
def State.retryStop (s : State) (tid : Nat) : State :=
  match s.stoppedOp tid with
  | none => s
  | some (x, i) => match x.engine.ops[i]? with
    | none => s
    | some o => match s.rowFate x o with
      | .stops off f =>
        if off = o.offset then
          (s.modOp x i (fun o => { o with stopCause := BitVec.ofNat 8 f.cause, stopWalk := f.val2.setWidth 8 })).due
            (.pageRequest (.engine tid))
        else s.modOp x i (fun o => { o with stopped := false })
      | _ => s.modOp x i (fun o => { o with stopped := false })

/-- R306, R308: an array team is restored: the engines stay frozen until the handler's ERET while a control core is resident. -/
def State.restoreArray (s : State) (t : Team) (sp : Space) : Except Nat State :=
  match t.cluster, t.cores.head? with
  | some c, some share =>
    let id := match share.unit with
      | .control id => id
      | _ => c.id
    readThen (s.readBlob sp (t.saveArea + 0x1000) 0x139F000) (fun s1 bs =>
      (s1.writeBlobs sp t.saveArea [blob 0x1008 1 (coreIndex (.control id))]).map (fun s2 =>
        let k := clusterFrom (zeros 0x1000 ++ bs) id c
        let x := { t with cluster := some { k with frozen := !c.exited }, groups := t.groups.map t.resumedGroup : Team }
        ((s2.setTeam x.resume).enterResumed x).retryStop t.id))
  | _, _ => .ok s

/-- R391: a scalar team is restored: its work items start in their handlers. -/
def State.restoreScalar (s : State) (t : Team) : State :=
  let x := { t with groups := t.groups.map t.resumedGroup : Team }
  (s.setTeam x.resume).enterResumed x

/-- R319, R330, R410: what a resumption finds in the memory of its hubs is no older than its last residence left it. -/
def State.resumed (s : State) (t : Team) : State := ((s.raiseFor t t.leftClock).freshPaths t).queueProgress t

/-- R253: the hub restores a team; a read that fails ends the packet with its cause (log 27). -/
def State.hubRestore (s : State) (t : Team) : State :=
  let sp := queueSpace t.hub ((s.hub t.hub).queue t.queue)
  let r := match t.cls with
    | .vector => s.restoreVector t sp
    | .array => s.restoreArray t sp
    | _ => .ok (s.restoreScalar t)
  match r with
  | .ok s1 => s1.resumed t
  | .error cause => s.killPacket t.hub t.queue t.packet (BitVec.ofNat 8 cause)

/-- R253, R330: TEAM_RESTORE_COMPLETE. -/
def execTeamRestoreComplete (team : Nat) (s : State) : Host.Outcome State Fault Refusal :=
  match s.team? team with
  | none => .next s
  | some t => .next (if t.life = .restoring ∧ s.teamQuiet t then s.closeEvent (.teamRestoreComplete team) (s.hubRestore t) else s)

/-! ## Parking -/

/-- R230: what a parked team takes of the reserve banks. -/
def Team.reserveBytes (t : Team) : Nat :=
  ((t.groups.filter (fun g => !g.retired)).map (fun g => t.desc.footprint g.regs.vregs.length + 1024)).foldl (· + ·) 0

/-- R230: whether the contexts in a core's reserve banks exceed them. -/
def State.reserveOver (s : State) (core : CoreId) : Bool :=
  decide (262144 < (((s.core (.vector core)).reserve.filterMap s.team?).map Team.reserveBytes).foldl (· + ·) 0)

/-- R231: the oldest parked context of a core is written to its save area. -/
def State.spillOldest (s : State) (core : CoreId) : State :=
  match (s.core (.vector core)).reserve with
  | [] => s
  | tid :: rest =>
    let s1 := s.modCore (.vector core) (fun c => { c with reserve := rest })
    match s1.team? tid with
    | none => s1
    | some t => s1.hubSave t

/-- R231: room is made in the reserve banks; n bounds the number of contexts. -/
def State.spill (core : CoreId) : Nat → State → State
  | 0, s => s
  | n + 1, s => if s.reserveOver core then State.spill core n (s.spillOldest core) else s

/-- One team of a revocation. -/
def State.parkTeam (s : State) (core : CoreId) (tid : Nat) : State :=
  match s.team? tid with
  | none => s
  | some t =>
    let s1 := (s.finishOut tid).modTeam tid Team.park
    let s2 := t.groups.foldl (fun s g => s.loseReservations tid g.gid) s1
    s2.modCore (.vector core) (fun c => { c with reserve := c.reserve ++ [tid] })

/-- R231, R260: REVOCATION_COMPLETE: the teams of a core's revocation park, and their slots and ranges return to the scheduler. -/
def execRevocationComplete (core : CoreId) (s : State) : Host.Outcome State Fault Refusal :=
  match s.revocations.find? (fun r => decide (r.core = core)) with
  | none => .next s
  | some r =>
    if (s.cycle - r.start).toNat < 384 then .next s
    else
      let s1 := r.teams.foldl (fun s tid => s.parkTeam core tid) s
      let s2 := State.spill core (s1.core (.vector core)).reserve.length s1
      .next { s2 with revocations := s2.revocations.filter (fun x => decide (x.core ≠ core)) }

/-- The revocations that may complete. -/
def State.openRevocations (s : State) : List Instr :=
  s.revocations.filterMap (fun r => if (s.cycle - r.start).toNat < 384 then none else some (.revocationComplete r.core))

/-! ## Open steps -/

/-- The steps that stand open for saves and restores. -/
def State.openSaves (s : State) : List Instr :=
  s.teams.flatMap (fun t =>
    (if t.allSaved then [Instr.teamSaveComplete t.id] else []) ++
    (if decide (t.life = .restoring) && s.teamQuiet t then [.teamRestoreComplete t.id] else []) ++
    (if s.freezable t then [.clusterFreezeDone t.id] else []) ++
    (t.groups.filter (fun g => s.overBudget t g)).map (fun g => Instr.saveBudgetExpiry t.id g.gid))

end Sys2Proof.Machine
end

