-- ==== Sys2Proof/Machine/Patrol.lean ====
section
/-! DEFINITION. The patrol: its three counters (R408, R409), when they pause (R410), and what an expiry does. -/

namespace Sys2Proof.Machine

/-! ## Pauses -/

/-- R410: a page request that the kernel has consumed and not completed. -/
def Hub.consumed (h : Hub) (r : PageRequest) : Bool :=
  let n := (h.prqh - r.slot).toNat
  decide (1 ≤ n ∧ n < 2 ^ 31)

/-- R410: whether a copy of a team is stopped at a consumed request. -/
def State.copyConsumed (s : State) (t : Team) (c : Copy) : Bool :=
  c.stopped && (s.hub t.hub).requests.any (fun r => decide (r.source = .copy t.id c.id) && (s.hub t.hub).consumed r)

/-- R123, R127: whether a piece of a copy that has not landed fills a scratchpad line. -/
def Copy.fills (c : Copy) (line : Nat) : Bool :=
  decide (c.dir ≠ .outward) && c.left.any (fun p => redirect c.pairs (c.scratchAt p.1 p.2.1) / 128 == line)

/-- R410: whether the access engine of a team is stopped at a consumed request. -/
def State.engineConsumed (s : State) (t : Team) : Bool :=
  (s.hub t.hub).requests.any (fun r => decide (r.source = .engine t.id) && (s.hub t.hub).consumed r)

/-- R410: whether a group has a transaction outstanding to a peer in recovery. -/
def State.peerRecovering (s : State) (tid gid : Nat) : Bool :=
  s.txns.any (fun x => x.team == tid && x.gid == gid && s.packages.any (fun p =>
    p.package == s.packageOf (keyHome (x.line * 128) / 2) && decide (p.state = .recovering)))

/-- R410: whether a wait is on a copy or an engine stopped at a consumed request, or on a peer in recovery. -/
def State.waitPaused (s : State) (t : Team) (g : Group) (w : EntryWait) : Bool :=
  let copies := t.copies.filter (fun c => s.copyConsumed t c)
  match w.kind with
  | .absentLine n => copies.any (fun c => c.fills n && (t.group? c.gid).any (fun x => x.coreIx == g.coreIx))
  | .copyCapacity => !copies.isEmpty
  | .barrier n _ => copies.any (fun c => decide (c.barrier = some n))
  | .copies => copies.any (fun c => c.gid == g.gid) || s.peerRecovering t.id g.gid
  | .completes _ => copies.any (fun c => c.gid == g.gid) || s.peerRecovering t.id g.gid
  | .transaction => s.peerRecovering t.id g.gid
  | .fence _ _ => s.peerRecovering t.id g.gid
  | .remote _ _ => s.peerRecovering t.id g.gid
  | .engineQueue _ _ => s.engineConsumed t
  | .bankFormat => s.engineConsumed t
  | _ => false

/-- The waits of a group's current frontier. -/
def Group.waitsNow (g : Group) : List EntryWait := g.waits.filter (fun w => w.kernel == g.kernel && w.holds)

/-- R410: whether the counters of a team's groups run: it is resident, and neither commits nor rolls back. -/
def State.counts (s : State) (t : Team) : Bool :=
  decide (t.life = .running) && t.commitQueue.isEmpty && t.committing.isNone && !s.revocations.any (fun r => r.teams.contains t.id)

/-- R207, R408: a group parked at task level whose counter advances. -/
def State.parkCounts (s : State) (t : Team) (g : Group) : Bool :=
  !g.retired && !g.saved && !g.kernel && decide (g.current ≠ 0) && g.readyEntries.isEmpty &&
  !g.waitsNow.any (fun w => s.waitPaused t g w)

/-- R410: whether nothing pauses the counters of a team as a whole: neither itself nor a wait of one of its groups. -/
def State.teamCounts (s : State) (t : Team) : Bool :=
  s.counts t && !s.engineConsumed t && !t.groups.any (fun g => !g.retired && g.waitsNow.any (fun w => s.waitPaused t g w))

/-- R408, R410: whether a team's cluster counter advances. -/
def State.clusterCounts (s : State) (t : Team) : Bool := decide (t.cls = .vector ∨ t.cls = .array) && s.teamCounts t

/-- R408, R410: whether a packet keeps its queue's counter going: it is Placing or Running, it has not ended (R217), and not each of its
teams pauses. -/
def State.packetCounts (s : State) (h : HubId) (q : Queue) (p : Packet) : Bool :=
  let teams := s.teams.filter (fun t => t.ofPacket h q.index p.seq)
  decide (p.life = .placing ∨ p.life = .running) && !s.retiring.any (fun r => r.hub == h && r.queue == q.index && r.seq == p.seq) &&
    (teams.isEmpty || teams.any s.teamCounts)

/-! ## Counting -/

/-- The counters of a team after a number of cycles. -/
def State.countTeam (s : State) (cycles : Nat) (t : Team) : Team :=
  { t with
    patrolCount := if s.clusterCounts t then t.patrolCount + cycles else t.patrolCount
    groups := if s.counts t then t.groups.map (fun g =>
        if s.parkCounts t g then { g with patrolCount := g.patrolCount + cycles } else g) else t.groups }

/-- The counter of a queue after a number of cycles. -/
def State.countQueue (s : State) (h : HubId) (cycles : Nat) (q : Queue) : Queue :=
  if q.packets.any (s.packetCounts h q) then { q with patrolCount := q.patrolCount + cycles } else q

/-- R408: every counter that runs advances. -/
def State.patrol (s : State) (cycles : Nat) : State :=
  let queues := fun (h : HubId) (x : Hub) => { x with queues := x.queues.map (s.countQueue h cycles) }
  { s with teams := s.teams.map (s.countTeam cycles), hub0 := queues .h0 s.hub0, hub1 := queues .h1 s.hub1 }

/-! ## Expiry -/

/-- R409: whether a count has reached a limit; 0 disables the tier. -/
def patrolOver (limit : Word) (count : Nat) : Bool := limit != 0 && decide (1024 * limit.toNat ≤ count)

/-- R408: the values of a group patrol's trap; a value that no rule states is free (log 16). -/
def patrolValues (tick : Nat) (k : WaitKind) : Dword × Dword :=
  match k with
  | .barrier n _ => (1, BitVec.ofNat 64 n)
  | .reorder n => (1, BitVec.ofNat 64 n)
  | .absentLine n => (2, BitVec.ofNat 64 (128 * n))
  | .heldRegister _ => (3, Config.freeReading tick 408)
  | .memoryWord a _ _ => (4, a)
  | _ => (5, Config.freeReading tick 408)

/-- The wait that a group patrol tells of: that of the entry which takes the trap. -/
def Group.patrolWait (g : Group) : Option EntryWait :=
  match g.entries.head? with
  | none => none
  | some p => match g.waitsNow.find? (fun w => decide (w.entry = p)) with
    | some w => some w
    | none => g.waitsNow.head?

def State.groupOver (s : State) (t : Team) (g : Group) : Bool :=
  patrolOver (s.hub (s.agentHub t.id g.gid)).patg g.patrolCount && s.counts t && s.parkCounts t g

/-- R408: GROUP_PATROL_EXPIRY: a group parked beyond the limit takes 0x53 at its issue boundary. -/
def execGroupPatrolExpiry (team gid : Nat) (s : State) : Host.Outcome State Fault Refusal :=
  match s.team? team, s.group? team gid with
  | some t, some g =>
    if !s.groupOver t g then .next s
    else match g.patrolWait with
      | none => .next s
      | some w =>
        let v := patrolValues s.tick w.kind
        .next (s.modGroup team gid (fun g => { g.post (.patrol 0x53 v.1 v.2) with patrolCount := 0 }))
  | _, _ => .next s

def State.teamOver (s : State) (t : Team) : Bool :=
  patrolOver (s.hub (s.agentHub t.id 0)).patc t.patrolCount && s.clusterCounts t

/-- R408: a team's groups take 0x54; a team whose control core has executed EXIT is killed. -/
def State.clusterExpiry (s : State) (tid : Nat) : State :=
  match s.team? tid with
  | none => s
  | some t =>
    if t.cluster.any (fun c => c.exited) then s.killTeam tid 0x54
    else
      let cause := AsyncCause.patrol 0x54 (Config.freeReading s.tick 409) (Config.freeReading s.tick 410)
      s.modTeam tid (fun t => { t with
        patrolCount := 0, groups := t.groups.map (fun g => if g.retired then g else g.post cause) })

/-- R408: CLUSTER_PATROL_EXPIRY, in a pair at both twins. -/
def execClusterPatrolExpiry (team : Nat) (s : State) : Host.Outcome State Fault Refusal :=
  match s.team? team with
  | none => .next s
  | some t =>
    if !s.teamOver t then .next s
    else match t.twin with
      | some w => .next ((s.clusterExpiry team).clusterExpiry w)
      | none => .next (s.clusterExpiry team)

/-- The packets of a queue that its patrol, once at the limit, finds without progress in the count; one that pauses is none of them
(log 55). -/
def State.packetsOver (s : State) (h : HubId) (q : Queue) : List Packet :=
  if patrolOver (s.hub h).patq q.patrolCount then q.packets.filter (s.packetCounts h q) else []

/-- R408: QUEUE_PATROL_EXPIRY: those packets are killed with 0x55, and the count begins anew. -/
def execQueuePatrolExpiry (hub : HubId) (queue : Nat) (s : State) : Host.Outcome State Fault Refusal :=
  match s.packetsOver hub ((s.hub hub).queue queue) with
  | [] => .next s
  | ps => .next (ps.foldl (fun s p => s.killPacket hub queue p.seq 0x55) (s.modQueue hub queue (fun q => { q with patrolCount := 0 })))

/-- The expiries that are due. -/
def State.openPatrol (s : State) : List Instr :=
  s.teams.flatMap (fun t =>
    (t.groups.filter (fun g => s.groupOver t g)).map (fun g => Instr.groupPatrolExpiry t.id g.gid) ++
    (if s.teamOver t then [Instr.clusterPatrolExpiry t.id] else [])) ++
  [HubId.h0, .h1].flatMap (fun h => ((s.hub h).queues.filter (fun q => !(s.packetsOver h q).isEmpty)).map (fun q =>
    Instr.queuePatrolExpiry h q.index))

end Sys2Proof.Machine
end

