-- ==== Sys2Proof/Machine/Coherence.lean ====
section
/-! DEFINITION. The home's side of coherence: the directory among hub peers (R338, R339), requests of other packages (R342, R426),
lease clocks and fencing (R341, R344, R424), the publication of releases (R345), and persist buffers (R351). -/

namespace Sys2Proof.Machine

/-! ## The directory -/

/-- R350: whether a line lies in a durable window of this package. -/
def State.durableLine (s : State) (line : Nat) : Bool := s.inDurableWindow (keyHome (line * 128)) (keyAddress (line * 128))

/-- R338: PEER_READ, with the page's DUR, which only a line of a durable window has. A line in transition answers later; a cache that
holds the line makes no request. -/
def execPeerRead (home : HubId) (peer : Nat) (line : PageLine) (s : State) : Host.Outcome State Fault Refusal :=
  let hub := s.hub home
  if !homed home line.line || decide (44 ≤ peer) || (hub.copyOf peer line.line).isSome || (hub.entry line.line).pending.isSome ||
    (line.durable && !s.durableLine line.line) then .next s
  else .next (s.sharedBy home peer line.line line.durable)

/-- R338: a read-exclusive or an upgrade: granted at once when no other cache holds the line, else with the last
acknowledgement. -/
def State.exclusive (s : State) (h : HubId) (peer line : Nat) : State :=
  let others := ((s.hub h).peers.filter (fun p => p.line == line && p.peer != peer)).map (fun p => p.peer)
  let s1 := s.invalidateOthers h peer line
  if others = [] then s1.grantM h peer line
  else s1.modHub h (fun x => x.setEntry { line := line, state := .I, owner := peer, sharers := [], pending := some (peer, others) })

/-- R338: READ_EXCLUSIVE, of a page that is not durable: peers write those through and ask for no copy to write. -/
def execReadExclusive (home : HubId) (peer line : Nat) (s : State) : Host.Outcome State Fault Refusal :=
  if !homed home line || decide (44 ≤ peer) || ((s.hub home).entry line).pending.isSome then .next s
  else .next (s.exclusive home peer line)

/-- R338: UPGRADE: a listed sharer keeps its data; a cache that is no longer listed is answered as a read-exclusive. -/
def execUpgrade (home : HubId) (peer line : Nat) (s : State) : Host.Outcome State Fault Refusal :=
  if !homed home line || decide (44 ≤ peer) || ((s.hub home).entry line).pending.isSome then .next s
  else .next (s.exclusive home peer line)

/-- R338: INVALIDATION_ACKNOWLEDGEMENT: the last one moves the line to M. -/
def execInvalidationAcknowledgement (home : HubId) (peer line : Nat) (s : State) : Host.Outcome State Fault Refusal :=
  let d := (s.hub home).entry line
  match d.pending with
  | none => .next s
  | some (requester, owing) =>
    let left := owing.filter (fun p => p != peer)
    if left = [] then .next (s.grantM home requester line)
    else .next (s.modHub home (fun x => x.setEntry { d with pending := some (requester, left) }))

/-- R338: WRITE_BACK: an owner's dirty data reach the L2 and its copy leaves; the data of a cache that is no owner are
discarded. -/
def execWriteBack (home : HubId) (peer line : Nat) (s : State) : Host.Outcome State Fault Refusal :=
  let hub := s.hub home
  let d := hub.entry line
  match hub.copyOf peer line with
  | none => .next s
  | some p =>
    if !homed home line || d.pending.isSome || d.owner != peer || d.state == .I || d.state == .S then .next s
    else
      let s1 := if p.dirty then { s with mem := s.mem.writeBytes (line * 128) (p.data.take 128) } else s
      let next := if d.state = .O ∧ d.sharers ≠ [] then DirState.S else .I
      .next (s1.modHub home (fun x => (x.dropCopy peer line).setEntry { d with state := next, owner := 0 }))

/-- R338: IO_COHERENT_READ: a dirty owner supplies the data and keeps or takes O. -/
def execIoCoherentRead (home : HubId) (line : Nat) (s : State) : Host.Outcome State Fault Refusal :=
  .next (if homed home line then s.ioRead line else s)

/-- R338: IO_COHERENT_WRITE: every copy is invalidated, a dirty owner's data merged first, and the access is performed; the
bytes are given by their offsets in the line. With the page's DUR the write is durable and waits for room (R350, R351). -/
def execIoCoherentWrite (home : HubId) (line : PageLine) (bytes : List (Nat × Byte)) (s : State) :
    Host.Outcome State Fault Refusal :=
  let cells := (bytes.filter (fun b => decide (b.1 < 128))).map (fun b => (line.line * 128 + b.1, b.2))
  if !homed home line.line || (line.durable && !(s.durableLine line.line && s.roomForKeys (cells.map (fun c => c.1)))) then .next s
  else .next (s.homeWriteLine line.line cells { hubWriter home with durable := line.durable })

/-! ## Requests to other packages -/

/-- R328, R419, R420, R425: a request is not performed yet: its home's package is in recovery, or a request that the hub sent before it,
on its plane to the same hub or for the same line, is still to be performed. The outstanding requests stand in the order in which they
were sent. -/
def State.txnBehind (s : State) (x : Txn) : Bool :=
  s.txnHeld x ||
  (s.txns.takeWhile (fun y => y.id != x.id)).any (fun y => decide (y.hub = x.hub) && y.answer.isNone && y.error.isNone &&
    (y.line == x.line || (y.plane == x.plane && keyHome (y.line * 128) == keyHome (x.line * 128))))

/-- R342, R426: a request of a kind is performed at its home, when its turn has come. -/
def State.performIn (s : State) (id : Nat) (is : TxnKind → Bool) (again : Instr) : State :=
  match s.txn? id with
  | none => s
  | some x =>
    if !(is x.kind && x.onTheWay) then s
    else if s.txnBehind x then s.due again
    else s.performTxn x

/-- R342: PLAIN_READ: the home answers data and wts. -/
def execPlainRead (txn : Nat) (s : State) : Host.Outcome State Fault Refusal :=
  .next (s.performIn txn (fun k => decide (k = .read false)) (.plainRead txn))

/-- R342: LEASED_READ: the home answers data, wts and the lease end. -/
def execLeasedRead (txn : Nat) (s : State) : Host.Outcome State Fault Refusal :=
  .next (s.performIn txn (fun k => decide (k = .read true)) (.leasedRead txn))

/-- R342, R426: HOME_WRITE: a write or RMW is performed at its home, which answers its new wts. -/
def execHomeWrite (txn : Nat) (s : State) : Host.Outcome State Fault Refusal :=
  .next (s.performIn txn TxnKind.writes (.homeWrite txn))

/-- R373, R422, R430: the values with which a failed request is reported: of one that a plane carried, that plane; of a write that its
target refused, the target. -/
def State.txnFailure (s : State) (x : Txn) (cause : Byte) : HeldFailure :=
  let f := s.planeFailure x.hub x.line (if x.plane = heldPlane then s.planeFor x.hub x.line else x.plane) cause
  let late := fun (right : Nat) (cells : List (Nat × Byte)) (how : WriteHow) =>
    s.lateFailure x.line ((s.refusedLate x.hub x.team x.gid x.line right how.made.kernel).getD 0) cells how.made
  match x.kind with
  | .write bytes how =>
    if cause = 0x26 then late 1 bytes how
    else
      { copy := (match how.made.source with | .copy _ => true | _ => false)
        place := (match how.made.source with | .copy p => p | _ => 0), cause := cause
        val := f.1, val2 := f.2 }
  | .rmw r how =>
    if cause = 0x26 then late 2 [(r.key, 0)] how
    else
      { copy := false, place := 0, cause := cause
        val := f.1, val2 := f.2 }
  | .read _ => { copy := false, place := 0, cause := cause, val := f.1, val2 := f.2 }

/-- The answer to a request reaches the turn that asked it. -/
def State.answerArrives (s : State) (x : Txn) (a : TxnAnswer) : State :=
  match x.asker with
  | none => s
  | some t => { s with arrived := s.arrived ++ [{ asker := t, ask := { hub := x.hub, line := x.line, kind := x.kind }, answer := a }] }

/-- R135, R299, R422, R448, R449: a request completes with error: a write's group reports it at a fence, as a store or a copy of its
own; an access engine faults at the row, and a hub queues the event of its record. A turn that asked has an answer poisoned with the
cause, whose data are free (log 16). -/
def State.failTxn (s : State) (x : Txn) (cause : Byte) : State :=
  let free := (List.range 128).map (fun i => (Config.freeReading s.tick (4000 + i)).setWidth 8)
  let s1 := s.answerArrives x { data := free, origins := [], wts := 0, lease := 0, failed := cause }
  match x.kind with
  | .read _ => s1
  | .write _ how | .rmw _ how => match how.made.source with
    | .engine _ op row => s1.engineRefused x.team op row cause
    | .record _ va status => s1.recordFails x.hub va status cause.toNat
    | _ => s1.holdFailure x.team x.gid (s.txnFailure x cause)

/-- R341, R343, R449: an answer arrives: a lease enters the RDC, an acknowledged write or RMW raises the hub's clock, and a completion
record goes on to its add. -/
def State.answerTxn (s : State) (x : Txn) (a : TxnAnswer) : State :=
  let s2 := (s.heard x.plane).answerArrives x a
  match x.kind with
  | .read true => s2.modHub x.hub (fun h => h.takeLease x.line a (s.txns.any (fun y => decide (y.hub = x.hub) && y.line == x.line && y.kind.writes)))
  | .read false => s2
  | .rmw _ _ => s2.modHub x.hub (fun h => h.raise a.wts)
  | .write _ how =>
    let s3 := s2.modHub x.hub (fun h => h.raise a.wts)
    match how.made.source with
    | .record q va status => s3.addOne x.hub q va status
    | _ => s3

/-- R426: TRANSACTION_RESPONSE: the answer or the error completion of a request frees its entry. -/
def execTransactionResponse (txn : Nat) (s : State) : Host.Outcome State Fault Refusal :=
  match s.txn? txn with
  | none => .next s
  | some x =>
    let s1 := { s with txns := s.txns.filter (fun y => y.id != txn) }
    match x.error, x.answer with
    | some e, _ => .next (s1.failTxn x e)
    | none, some a => .next (s1.answerTxn x a)
    | none, none => .next s

/-! ## Planes and the reference -/

/-- R424: the packages that this one can reach. -/
def State.reached (s : State) : List Nat :=
  if s.hub0.plst = 0 ∧ s.hub1.plst = 0 then []
  else (s.packages.filter (fun p => decide (p.state = .up ∨ p.state = .recovering))).map (fun p => p.package)

/-- R424: the reference package: the live one of the lowest number. -/
def State.referencePackage (s : State) : Nat := s.reached.foldl (fun m p => min m p) s.flash.package

/-- R424, R432: PODREF and REFSRC show the reference package. -/
def State.electReference (s : State) : State :=
  let r := s.referencePackage
  let shown := fun (src : Bool) (h : Hub) => { h with podref := BitVec.ofNat 10 r, refsrc := src }
  (s.modHub .h0 (shown (decide (r = s.flash.package)))).modHub .h1 (shown false)

/-! ## Planes that die -/

/-- R421: a plane dies on a hub: its PLST bit clears, and its messages drain. -/
def Hub.planeDies (h : Hub) (plane : Nat) : Hub :=
  if h.plst.getLsbD plane then
    { h with plst := h.plst &&& ~~~(BitVec.twoPow 8 plane), dying := if plane < 8 then (plane :: h.dying).eraseDups else h.dying }
  else h

/-- R421: what a hub holds for other packages completes with error when no plane is live. -/
def State.dropHeld (s : State) (hub : HubId) : State :=
  if (s.hub hub).plst ≠ 0 then s
  else
    let held := s.txns.filter (fun x => decide (x.hub = hub) && x.plane == heldPlane && x.error.isNone)
    (held.foldl (fun s x => s.txnError x.id 0x61) s).mailErrors (fun m => decide (m.hub = hub) && m.plane == heldPlane && s.nameAway m.name)

/-- R421: a plane dies on a hub of the package. -/
def State.planeDies (s : State) (hub : HubId) (plane : Nat) : State := (s.modHub hub (fun h => h.planeDies plane)).dropHeld hub

/-- R421, R432: a plane's port leaves service in a state, 2 stopped or 3 down: the plane is dead on both hubs, which share the port. -/
def State.portLeaves (s : State) (plane : Nat) (state : BitVec 2) : State :=
  (((s.modPort plane (fun l => { l with state := state, trained := false })).planeDies .h0 plane).planeDies .h1 plane).electReference

/-! ## Lease clocks and fencing -/

/-- R341, R344: a hub takes a reference: LREF and LCLK have it, and its fence ends. -/
def State.takeRef (s : State) (hub : HubId) (ref : Dword) : State :=
  s.modHub hub (fun h => { h.raise ref with lref := ref, lastRef := s.tbase, fenced := false, cut := false })

/-- The planes that are live on a hub. -/
def Hub.livePlanes (h : Hub) : List Nat := (List.range 8).filter (fun p => h.plst.getLsbD p)

/-- R341, R344, R424: REF_UPDATE: a hub receives a reference, which comes on every plane that is live there. -/
def execRefUpdate (hub : HubId) (ref : Dword) (s : State) : Host.Outcome State Fault Refusal :=
  .next (((s.hub hub).livePlanes.foldl State.heard s).takeRef hub ref)

/-- R424: REF now: it goes on from the largest value received, at the rate of the timebase (log 28). -/
def State.refNow (s : State) : Dword :=
  maxTime (s.hub0.lref + (s.tbase - s.hub0.lastRef)) s.hub1.lref

/-- R418: one control message leaves on each of some planes that can carry it. -/
def State.broadcast (s : State) (planes : List Nat) : State := planes.foldl (fun s p => if s.spent p then s else s.sent p) s

/-- R424: REF_BROADCAST: hub 0 of the reference package sends REF on every live plane, and to both of its own hubs, to hub 1 and to that
hub's planes over the bridge. -/
def execRefBroadcast (s : State) : Host.Outcome State Fault Refusal :=
  if s.referencePackage ≠ s.flash.package then .next s
  else
    let s1 := s.electReference
    let ref := s1.refNow
    let s2 := (s1.broadcast (s1.hub0.livePlanes.filter (fun p => !s1.planeCut .h0 p))).takeRef .h0 ref
    .next (if s.bridgeUp && s.hubPresent .h1 then s2.takeRef .h1 ref else s2)

/-- R344: GUARD_ANSWER. -/
def execGuardAnswer (hub : HubId) (s : State) : Host.Outcome State Fault Refusal :=
  .next (s.modHub hub (fun h => h.fence s.tbase))

/-- R445: ticks of a number of microseconds. -/
def micros (n : Nat) : Nat := 1024 * n

/-- R424, R437: whether the package's own reference reaches a hub of it: its hub 0 delivers it, to hub 1 over the bridge. -/
def State.ownReference (s : State) (h : HubId) : Bool :=
  decide (s.referencePackage = s.flash.package) && (decide (h = .h0) || s.bridgeUp)

/-- R344, R424: whether a hub has had no update for 1,024 µs; one that the package's own reference reaches is never without. -/
def State.unreferenced (s : State) (h : HubId) : Bool :=
  !(s.hub h).fenced && decide (micros 1024 ≤ (s.tbase - (s.hub h).lastRef).toNat) && !s.ownReference h

/-- R344: LEASE_FENCE_TIMEOUT. -/
def execLeaseFenceTimeout (hub : HubId) (s : State) : Host.Outcome State Fault Refusal :=
  .next (if s.unreferenced hub then s.modHub hub (fun h => h.fence s.tbase) else s)

/-- R344: whether a fenced hub has had no update for a further 1,024 µs. -/
def State.cutOff (s : State) (h : HubId) : Bool :=
  (s.hub h).fenced && !(s.hub h).cut && decide (micros 1024 ≤ (s.tbase - (s.hub h).fencedAt).toNat)

/-- R344: LEASE_CUT. -/
def execLeaseCut (hub : HubId) (s : State) : Host.Outcome State Fault Refusal :=
  .next (if s.cutOff hub then s.modHub hub (fun h => { h with cut := true }) else s)

/-! ## Publication -/

/-- R345: the capacity of a hub's note store. -/
def noteCapacity : Nat := 4096

/-- R345: RELEASE_PUBLISHED: the unpublished releases of a line are published, and a full note store drops its oldest note. -/
def execReleasePublished (hub : HubId) (line : Nat) (s : State) : Host.Outcome State Fault Refusal :=
  let notes := (s.hub hub).notes.filter (fun n => n.line == line && !n.published)
  let s1 := notes.foldl (fun s n => s.publish n) s
  .next (s1.modHub hub (fun h => match h.notes with
    | n :: rest =>
      if noteCapacity < h.notes.length ∧ n.line = line ∧ n.published then { h with notes := rest, dropped := line :: h.dropped } else h
    | [] => h))

/-- The publications that are due. -/
def State.openNotes (s : State) : List Instr :=
  [HubId.h0, .h1].flatMap (fun h =>
    (((s.hub h).notes.filter (fun n => !n.published && s.noteSettled n)).map (fun n => Instr.releasePublished h n.line)) ++
    (if noteCapacity < (s.hub h).notes.length then
      ((s.hub h).notes.take 1).map (fun n => Instr.releasePublished h n.line) else []))

/-! ## Persist buffers -/

/-- R351: PERSIST_BUFFER_DRAIN. -/
def execPersistBufferDrain (hub : HubId) (index : Nat) (s : State) : Host.Outcome State Fault Refusal :=
  .next (s.drainPersist hub index)

/-- R351: ENERGY_STORE_DECLINE: the hub lowers its capacity. -/
def execEnergyStoreDecline (hub : HubId) (cap : Nat) (s : State) : Host.Outcome State Fault Refusal :=
  .next (s.modHub hub (fun h => if cap < h.pbcap.toNat then { h with pbcap := BitVec.ofNat 24 cap } else h))

/-- The drains that may come. -/
def State.openPersists (s : State) : List Instr :=
  [HubId.h0, .h1].flatMap (fun h => (List.range (s.hub h).persist.length).map (fun i => Instr.persistBufferDrain h i))

/-- R341, R344, R424: the steps of lease clocks that are due. -/
def State.openLeases (s : State) : List Instr :=
  (if decide (s.referencePackage = s.flash.package) && decide (micros 1 ≤ (s.tbase - s.hub0.lastRef).toNat) then
    [Instr.refBroadcast] else []) ++
  [HubId.h0, .h1].flatMap (fun h =>
    (if s.unreferenced h then [Instr.leaseFenceTimeout h] else []) ++ (if s.cutOff h then [Instr.leaseCut h] else []) ++
    (if s.guards h then [Instr.guardAnswer h] else []))

end Sys2Proof.Machine
end

