-- ==== Sys2Proof/Machine/Events.lean ====
section
/-! DEFINITION. Page requests (R385), the delivery of events (R375), errors of the stores (R393, R397), and the isolation and
re-enumeration of chiplets (R434 to R438). -/

namespace Sys2Proof.Machine

/-! ## Page requests -/

/-- What a page request tells (R385). -/
structure PageAsk where
  team : Team
  va : Dword
  cause : Byte
  walk : Byte
  requester : Nat
  location : Dword
deriving DecidableEq, Repr

/-- R385: the request of a stopped copy or engine that has none pending. -/
def State.pageAsk (s : State) (source : StopSource) : Option PageAsk :=
  match source with
  | .copy tid id =>
    match s.copyAt tid id with
    | none => none
    | some x =>
      if x.copy.stopped && x.copy.tag.isNone then
        (x.team.group? x.copy.gid).map (fun g =>
          { team := x.team, va := x.copy.stopVa, cause := x.copy.stopCause, walk := x.copy.stopWalk, requester := 1,
            location := groupLoc s.flash.package x.unit g : PageAsk })
      else none
  | .engine tid =>
    match s.stoppedOp tid with
    | none => none
    | some (x, i) =>
      match x.engine.ops[i]? with
      | none => none
      | some o =>
        if o.tag.isNone then
          some { team := x.team, va := o.gaddr + BitVec.ofNat 64 (o.offset / 16 * 16), cause := o.stopCause, walk := o.stopWalk,
                 requester := 2
                 location := locWord s.flash.package x.cluster.id.hub x.cluster.id.chiplet (coreIndex (.control x.cluster.id)) 0 }
        else none

/-- R385: a tag that no pending request of the hub has. -/
def Hub.freeTag (h : Hub) : Half :=
  let used := h.requests.map (fun r => r.tag)
  ((List.range (used.length + 1)).map (fun i => h.nextTag + BitVec.ofNat 16 i)).find? (fun t => !used.contains t) |>.getD h.nextTag

/-- R385: whether the ring is full. -/
def Hub.ringFull (h : Hub) : Bool := decide (2 ^ h.prqLsz.toNat ≤ (h.prqt - h.prqh).toNat)

/-- R385: the 32 bytes of an entry. -/
def PageAsk.bytes (a : PageAsk) (tag : Half) : List Byte :=
  toBytes 8 a.va.toNat ++ toBytes 2 a.team.asn.toNat ++ toBytes 2 tag.toNat ++ [a.cause, a.walk, BitVec.ofNat 8 a.requester, 0] ++
  toBytes 8 a.location.toNat ++ toBytes 2 (a.team.queue + 64 * hubNumber a.team.hub) ++ toBytes 2 a.team.saveIx ++ zeros 4

/-- R385: the tag of a written request stands with its copy or operation. -/
def State.tagSource (s : State) (source : StopSource) (tag : Half) : State :=
  match source with
  | .copy tid id => s.modTeam tid (fun t => { t with
      copies := updateWhere (fun c => c.id == id) (fun c => { c with tag := some tag }) t.copies })
  | .engine tid => match s.stoppedOp tid with
    | none => s
    | some (x, i) => s.modOp x i (fun o => { o with tag := some tag })

/-- R385: PAGE_REQUEST: the entry is written, PRQT advances, and event 0x73 is queued; a full ring keeps the request waiting. -/
def execPageRequest (source : StopSource) (s : State) : Host.Outcome State Fault Refusal :=
  match s.pageAsk source with
  | none => .next s
  | some a =>
    let id := a.team.hub
    let h := s.hub id
    if h.ringFull then .next s
    else
      let tag := h.freeTag
      let ix := h.prqt.toNat % 2 ^ h.prqLsz.toNat
      let k := memKey (peerOf id) (h.prqBase.toNat + 32 * ix)
      let s1 := (linePieces k 32).foldl (fun s p => s.homeWrite (k + p.1) (((a.bytes tag).drop p.1).take p.2) (hubWriter id)) s
      let put := fun (x : Hub) =>
        let r : PageRequest := { tag := tag, source := source, slot := x.prqt }
        let y := { x with prqt := x.prqt + 1, nextTag := tag + 1, requests := x.requests ++ [r] }
        y.queueEvent 0x73 (BitVec.ofNat 64 ix) (tag.setWidth 64)
      .next ((s1.modHub id put).tagSource source tag)

/-- The sources of a team's engines that are stopped. -/
def Team.stopSources (t : Team) : List StopSource :=
  (t.copies.filter (fun c => c.stopped)).map (fun c => StopSource.copy t.id c.id) ++
  (if t.cluster.isSome then [.engine t.id] else [])

/-- The requests that may be written. -/
def State.openRequests (s : State) : List Instr :=
  (s.teams.filter (fun t => decide (t.life = .running))).flatMap (fun t =>
    (t.stopSources.filter (fun x => (s.pageAsk x).isSome && !(s.hub t.hub).ringFull)).map Instr.pageRequest)

/-! ## Events -/

/-- R375: the group on a hub's event target core. -/
def State.eventTarget (s : State) (h : HubId) : Option (Team × Group) :=
  s.teams.findSome? (fun t => if t.life = .running then
      (t.groups.find? (fun g => decide (t.coreOf g = some (.scalar h (s.hub h).evtCore.toNat)) && !g.retired && !g.saved)).map (fun g => (t, g))
    else none)

/-- R371, R375: the event that a hub's target core takes now: nothing that stands before it waits. -/
def State.eventReady (s : State) (h : HubId) : Option (Team × Group × HubEvent) :=
  match (s.hub h).events.head?, s.eventTarget h with
  | some e, some (t, g) =>
    let c := AsyncCause.event e.cause e.val e.val2
    if (s.hub h).evtEn && decide (firstCause (g.post c).takable = some c) then some (t, g, e) else none
  | _, _ => none

/-- R375: EVENT_DELIVERY. -/
def execEventDelivery (hub : HubId) (s : State) : Host.Outcome State Fault Refusal :=
  match s.eventReady hub with
  | none => .next s
  | some (t, g, e) =>
    .next ((s.modHub hub (fun h => { h with events := h.events.tail })).takeAsync t.id g.gid e.cause.toNat e.val e.val2)

def State.openEvents (s : State) : List Instr :=
  [HubId.h0, .h1].flatMap (fun h => if (s.eventReady h).isSome then [Instr.eventDelivery h] else [])

/-! ## Errors -/

/-- R393, R400: CORRECTED_ERROR. -/
def execCorrectedError (hub : HubId) (s : State) : Host.Outcome State Fault Refusal :=
  .next (s.modHub hub (fun h => { h with cecnt := h.cecnt + 1 }))

/-- A v register with a lane poisoned. -/
def GroupRegs.poisonLane (g : GroupRegs) (n lane : Nat) : GroupRegs :=
  { g with vregs := modifyAt n (fun r => { r with poison := r.poison ||| BitVec.twoPow 64 lane }) g.vregs }

/-- R393, R395: an uncorrectable error in a register of a group is a poison event; no rule states the address it records (log 16). -/
def State.registerError (s : State) (team gid reg lane kind : Nat) (f : GroupRegs → GroupRegs) : State :=
  s.modGroup team gid (fun g => Group.event { g with regs := f g.regs } 0x50 reg lane kind (Config.freeReading s.tick 395) 0)

/-- The hub that counts an error. -/
def State.errorHub (s : State) (target : ErrorTarget) : HubId :=
  match target with
  | .vReg t g _ _ => s.agentHub t g
  | .sReg t g _ => s.agentHub t g
  | .predicate t g _ => s.agentHub t g
  | .scratchWord t _ _ => s.agentHub t 0
  | .constWord t _ _ => s.agentHub t 0
  | .cacheLine t _ _ => s.agentHub t 0
  | .tileRow t g _ _ => s.agentHub t g
  | .teamState t => s.agentHub t 0
  | .accRow t _ => s.agentHub t 0
  | .weightSet t _ => s.agentHub t 0
  | .memoryGranule a => homeHub (keyHome a)
  | .cleanLine h _ => h
  | .readOnlyLine h _ _ => h
  | .codeLine t _ _ => s.agentHub t 0
  | .dirtyLine l => homeHub (keyHome (l * 128))
  | .persistWord h _ _ => h
  | .tierWord a => homeHub (keyHome a)

/-- R393: a word of a persist buffer is poisoned, of the hub's entry. -/
def Hub.poisonPersist (h : Hub) (index word : Nat) : Hub :=
  { h with persist := modifyAt index (fun e => { e with origins := modifyAt (word % 16) (fun _ => 0x50) e.origins }) h.persist }

/-- R393: a word of the durable tier is poisoned. Memory shows it where it holds no other data than the tier. -/
def State.poisonTier (s : State) (a : Nat) : State :=
  let k := a / 4 * 4
  let seen := decide (s.mem.readBytes k 4 = s.tier.readBytes k 4) && (s.dirtyCopy (lineOfKey k)).isNone &&
    !(s.hub (homeHub (keyHome k))).persist.any (fun e => e.granule == k / 64)
  { s with
    tierPoison := s.tierPoison.write (k / 4) 0x50
    memPoison := if seen then s.memPoison.write (k / 4) 0x50 else s.memPoison }

/-- R393, R397, R404: what an uncorrectable error does to the store that holds it. -/
def State.errorIn (s : State) (target : ErrorTarget) : State :=
  match target with
  | .vReg t g reg lane => s.registerError t g reg lane 0 (fun r => r.poisonLane reg (lane % 64))
  | .sReg t g reg => s.registerError t g (0x80 + reg) 0 2 (fun r => r.setS reg (r.s reg).value true)
  | .predicate t g reg => s.registerError t g reg 0 2 (fun r => r.setP (reg % 8) (BitVec.allOnes 64) (r.p (reg % 8)) (BitVec.allOnes 64))
  | .scratchWord t core word => s.modTeam t (fun x => match x.cluster with
      | some c => { x with cluster := some { c with scratch := c.scratch.poisonRange (4 * word) 4 0x50 } }
      | none => x.modShare core (fun c => { c with scratch := c.scratch.poisonRange (4 * word) 4 0x50 }))
  | .constWord t bank word => s.modTeam t (fun x => { x with constPoison := modifyAt bank (fun ws => (word :: ws).eraseDups) x.constPoison })
  | .cacheLine t core line => s.modL1 t core (fun l => l.drop line)
  | .tileRow t g tile row =>
    s.registerError t g (tile % 8) row 1 (fun r => if r.tiles.isSome then
      r.setTile (tile % 8) { r.tile (tile % 8) with poison := (r.tile (tile % 8)).poison ||| BitVec.twoPow 16 row } else r)
  | .teamState t => s.stateLost t
  | .accRow t row => s.modCluster t (fun c => c.setAcc { c.accRow row with origin := 0x50 })
  | .weightSet t shadow => s.modCluster t (fun c =>
      if shadow then { c with shadowSet := { c.shadowSet with origin := 0x50 } } else { c with active := { c.active with origin := 0x50 } })
  | .memoryGranule a => s.loseGranule (a / 64)
  | .cleanLine h line => s.modHub h (fun x => x.dropRdc line)
  | .readOnlyLine h chiplet line =>
    let p := s.roPath h chiplet
    if p.lines.any (fun x => x.line == line) then s.setRoPath { p with lines := p.lines.filter (fun x => x.line != line) } else s
  | .codeLine t core address => match (s.team? t).bind (fun x => (x.share? core).map (fun c => (x.asn, c.unit))) with
    | none => s
    | some x => s.modCore x.2 (fun k => { k with
        icache := k.icache.filter (fun l => l.asn != x.1 || l.va.toNat / 128 != address / 128) })
  | .dirtyLine line => { s with memPoison := poisonWords s.memPoison (line * 128) 128 0x50 }
  | .persistWord h index word => s.modHub h (fun x => x.poisonPersist index word)
  | .tierWord a => if s.durableLine (lineOfKey a) then s.poisonTier a else s

/-- R393, R400: UNCORRECTABLE_ERROR. -/
def execUncorrectableError (target : ErrorTarget) (s : State) : Host.Outcome State Fault Refusal :=
  .next ((s.modHub (s.errorHub target) (fun h => { h with uecnt := h.uecnt + 1 })).errorIn target)

/-! ## Isolation -/

/-- Whether a unit stands on a chiplet. -/
def onChiplet (h : HubId) (pos : Nat) (u : CoreUnit) : Bool := decide (unitHub u = h) && unitChiplet u == pos

/-- R338: the directory's peers on a chiplet. -/
def chipletPeers (pos : Nat) : List Nat :=
  if pos = 7 then List.range 32 else if 4 ≤ pos ∧ pos ≤ 6 then (List.range 4).map (fun i => 32 + 4 * (pos - 4) + i) else []

/-- R340: a peer's copy is lost: a dirty one is poisoned in the L2, word by word. -/
def State.loseCopy (s : State) (h : HubId) (p : PeerLine) : State :=
  let s1 := s.modHub h (fun x =>
    let d := x.entry p.line
    let sharers := d.sharers.filter (fun q => q != p.peer)
    let next : DirEntry :=
      if d.owner = p.peer ∧ d.state ≠ .S then { d with state := if sharers = [] then .I else .S, sharers := sharers }
      else { d with state := if d.state = .S ∧ sharers = [] then .I else d.state, sharers := sharers }
    (x.dropCopy p.peer p.line).setEntry next)
  if p.dirty then { s1 with memPoison := poisonWords s1.memPoison (p.line * 128) 128 0x60 } else s1

/-- R340: the peers of a chiplet lose their copies, and the invalidations that they owe count as acknowledged. -/
def State.losePeers (s : State) (h : HubId) (pos : Nat) : State :=
  let gone := chipletPeers pos
  let s1 := ((s.hub h).peers.filter (fun p => gone.contains p.peer)).foldl (fun s p => s.loseCopy h p) s
  (s1.hub h).dir.foldl (fun s d => match d.pending with
    | none => s
    | some (requester, owing) =>
      let left := owing.filter (fun p => !gone.contains p)
      if gone.contains requester then s.modHub h (fun x => x.setEntry { d with pending := none })
      else if left = [] then s.grantM h requester d.line
      else s.modHub h (fun x => x.setEntry { d with pending := some (requester, left) })) s1

/-- R346: the unpublished releases whose holder stands on a chiplet: their lines are poisoned, every word of them. -/
def State.loseNotes (s : State) (h : HubId) (pos : Nat) : State :=
  let lost := fun (n : Note) => match n.core with
    | some c => onChiplet h pos (.vector c)
    | none => false
  [HubId.h0, .h1].foldl (fun s k =>
    let notes := (s.hub k).notes.filter lost
    let s1 := { s with memPoison := notes.foldl (fun (m : Marks) (n : Note) => poisonWords m (n.line * 128) 128 0x60) s.memPoison }
    s1.modHub k (fun x => { x with
      notes := updateWhere lost (fun n => { n with published := true, core := none }) x.notes })) s

/-- R436, R437: the teams of a chiplet: those that reserve a core there return their reservations, the others are killed. -/
def State.loseTeams (s : State) (h : HubId) (pos : Nat) : State :=
  let early := s.teams.filter (fun t => match t.life with
    | .reserving _ => t.wantCores.any (onChiplet h pos)
    | _ => false)
  let s1 := early.foldl (fun s t => s.returnPlacement t.id) s
  let there := s1.teams.filter (fun t => decide (t.life ≠ .saved) && (match t.life with | .reserving _ => false | _ => true) &&
    t.cores.any (fun c => onChiplet h pos c.unit))
  there.foldl (fun s t => s.killTeam t.id 0x60) s1

/-- R375, R436: TVAL of event 0x75 for a position. -/
def chipletWord (h : HubId) (pos : Nat) : Dword := BitVec.ofNat 64 (pos % 16 + 16 * hubNumber h)

/-- R436: a chiplet is isolated. With a link chiplet the ports of its planes go down (log 59). -/
def State.isolate (s : State) (h : HubId) (pos : Nat) : State :=
  if !(s.hub h).live.getLsbD pos then s
  else
    let s1 := ((s.losePeers h pos).loseNotes h pos).loseTeams h pos
    let s2 := { s1 with
      cores := s1.cores.filter (fun c => !onChiplet h pos c.unit)
      readOnly := s1.readOnly.filter (fun p => !(decide (p.hub = h) && p.chiplet == pos))
      revocations := s1.revocations.filter (fun r => !onChiplet h pos (.vector r.core)) }
    let s3 := if pos = 8 then ((List.range 8).filter (fun p => decide (linkHub p = h))).foldl (fun s p => s.portLeaves p 3) s2 else s2
    s3.modHub h (fun x =>
      let y := { x with live := x.live &&& ~~~(BitVec.twoPow 16 pos) }
      y.queueEvent 0x75 (chipletWord h pos) 0)

/-- R438: CHCTL_ISO. -/
def execChctlIso (hub : HubId) (pos : Nat) (s : State) : Host.Outcome State Fault Refusal := .next (s.isolate hub pos)

/-- R436: CHIPLET_FATAL_ERROR. -/
def execChipletFatalError (hub : HubId) (pos : Nat) (s : State) : Host.Outcome State Fault Refusal := .next (s.isolate hub pos)

/-- R436: UCIE_LINK_FAILURE. -/
def execUcieLinkFailure (hub : HubId) (pos : Nat) (s : State) : Host.Outcome State Fault Refusal := .next (s.isolate hub pos)

/-! ## Enumeration -/

/-- R433, R434: the class granted to a chiplet: that of its position, or the weaker one that it requests. -/
def classGranted (pos requested : Nat) : Nat := max (chipletClass pos) requested

/-- R434: whether a table passes at a ring position. -/
def tableOk (pos : Nat) (bs : List Byte) : Bool :=
  let kind := fieldAt bs 6 1
  fieldAt bs 0 4 == 0x42544143 && fieldAt bs 4 2 == 1 && kind == chipletKind pos && decide (fieldAt bs 7 1 ≤ 2) &&
  decide (fieldAt bs 10 2 < 2) && (kind == 5 || (fieldAt bs 0x0C 4 == 0 && fieldAt bs 0x10 4 == 0)) && zeroAt bs 0x14 12 &&
  (List.range 32).all (fun i => fieldAt bs (0x20 + i) 1 / 16 % 8 == 0)

/-- R434: what a table tells of a chiplet, and the range and the queue identifiers that it is granted: the hub chooses which (log 25). -/
def capabilityOf (pos : Nat) (bs : List Byte) : Capability :=
  let range := fieldAt bs 0x0C 4
  let queues := fieldAt bs 0x10 4
  { pos := pos, cls := classGranted pos (fieldAt bs 7 1), units := fieldAt bs 8 2, atomics := bs.getD 10 0 == 1
    records := (List.range 32).map (fun i => bs.getD (0x20 + i) 0)
    base := if range = 0 then 0 else 4096 * Config.freePlacement (434 + pos), size := 2 ^ 20 * range
    queueBase := if queues = 0 then 0 else Config.freePlacement (1434 + pos), queueCount := queues }

/-- R434: the table that a position presents. -/
def State.tableAt (s : State) (h : HubId) (pos : Nat) : Option (List Byte) :=
  (s.tables.find? (fun x => decide (x.1 = h) && x.2.1 == pos)).map (fun x => x.2.2)

/-- A position presents a table. -/
def State.setTable (s : State) (h : HubId) (pos : Nat) (table : List Byte) : State :=
  { s with tables := (h, pos, table) :: s.tables.filter (fun x => !(decide (x.1 = h) && x.2.1 == pos)) }

/-- R434: a position is enumerated from a table: one that passes makes the chiplet live, one that fails leaves it isolated. -/
def Hub.enumerate (h : Hub) (pos : Nat) (table : List Byte) : Hub :=
  if tableOk pos table then
    { h with live := h.live ||| BitVec.twoPow 16 pos, caps := capabilityOf pos table :: h.caps.filter (fun c => c.pos != pos) }
  else { h with live := h.live &&& ~~~(BitVec.twoPow 16 pos) }

/-- R437: a table as a repaired chiplet presents it anew: which units are isolated, and which banks are spared, is free (log 16). -/
def State.freshTable (s : State) (table : List Byte) : List Byte :=
  table.take 32 ++ (List.range 32).map (fun i => (Config.freeReading s.tick (4370 + i)).setWidth 8 &&& 0x8F)

/-- R437: CHCTL_REN: an isolated chiplet is reset, and its table is read afresh. -/
def execChctlRen (hub : HubId) (pos : Nat) (s : State) : Host.Outcome State Fault Refusal :=
  let h := s.hub hub
  if h.live.getLsbD pos || !h.fit.getLsbD pos then .next s
  else match s.tableAt hub pos with
    | none => .next s
    | some table => .next (s.due (.enumerationComplete hub pos (s.freshTable table)))

/-- R434, R437: ENUMERATION_COMPLETE: event 0x75 tells whether the chiplet is live. -/
def execEnumerationComplete (hub : HubId) (pos : Nat) (table : List Byte) (s : State) : Host.Outcome State Fault Refusal :=
  let h := s.hub hub
  if h.live.getLsbD pos || !h.fit.getLsbD pos then .next s
  else .next ((s.setTable hub pos table).modHub hub (fun x =>
    (x.enumerate pos table).queueEvent 0x75 (chipletWord hub pos) (if tableOk pos table then 1 else 0)))

/-- R437: whether mail on its way has the bridge to cross. -/
def State.mailCrosses (s : State) (m : Mail) : Bool :=
  if s.nameAway m.name then decide (m.plane ≠ heldPlane) && decide (linkHub m.plane ≠ m.hub) else decide (nameHub m.name ≠ m.hub)

/-- R425, R437: BRIDGE_FAILURE: each hub treats the other as a failed peer, and what is on its way across the bridge completes with error. -/
def execBridgeFailure (s : State) : Host.Outcome State Fault Refusal :=
  let drop := fun (h : HubId) (x : Hub) => { x with rdc := x.rdc.filter (fun e => keyHome (e.line * 128) != peerOf h) }
  let s1 := ({ s with bridgeUp := false }.modHub .h0 (drop .h1)).modHub .h1 (drop .h0)
  let crossing := s1.txns.filter (fun x => x.error.isNone && decide (x.plane ≠ heldPlane) && decide (linkHub x.plane ≠ x.hub))
  .next ((crossing.foldl (fun s x => s.txnError x.id 0x60) s1).mailErrors s1.mailCrosses)

end Sys2Proof.Machine
end

