-- ==== Sys2Proof/Machine/Fabric.lean ====
section
/-! DEFINITION. The fabric: planes and their remap (R418, R421 to R423), membership and timeouts (R424, R425), protected links (R428),
access tables (R429, R430), and the host port (R331, R442). -/

namespace Sys2Proof.Machine

/-! ## Planes -/

/-- R425: LINK_TIMEOUT: a port is down, and its plane dead. -/
def execLinkTimeout (_hub : HubId) (plane : Nat) (s : State) : Host.Outcome State Fault Refusal := .next (s.portLeaves plane 3)

/-- R422: the cause of an error completion: plane failed, link stopped, or peer failed. -/
def State.timeoutCause (s : State) (x : Txn) : Byte :=
  if x.plane < 8 ∧ !(s.hub x.hub).plst.getLsbD x.plane then
    if (s.port? x.plane).any (fun l => l.state == 2) then 0x62 else 0x61
  else 0x60

/-- Whether mail goes to a package, by its number. -/
def State.mailTo (s : State) (m : Mail) (package : Nat) : Bool := s.nameAway m.name && namePackage m.name == package

/-- Whether a request goes to a package, by its number. -/
def State.txnTo (s : State) (x : Txn) (package : Nat) : Bool :=
  !localHome (keyHome (x.line * 128)) && s.packageOf (keyHome (x.line * 128) / 2) == package

/-- R425: SWITCH_TIMEOUT: the destination is unreachable on the plane, which is dead on that hub (R421, log 76); the requests and mail
that the switch held for it complete with error. -/
def execSwitchTimeout (hub : HubId) (plane package : Nat) (s : State) : Host.Outcome State Fault Refusal :=
  let held := s.txns.filter (fun x => decide (x.hub = hub) && x.plane == plane && x.error.isNone && s.txnTo x package)
  let s1 := s.planeDies hub plane
  let s2 := held.foldl (fun s x => s.txnError x.id (s.timeoutCause x)) s1
  .next (s2.mailErrors (fun m => decide (m.hub = hub) && m.plane == plane && s.mailTo m package)).electReference

/-- R421, R423: the indices whose map entry is to move when a plane's messages have drained: those that name a dead plane, or
the plane's own when it is live again. -/
def Hub.movingIndices (h : Hub) (plane : Nat) : List Nat :=
  if h.dying.contains plane || !h.plst.getLsbD plane then (List.range 8).filter (fun i => h.planeOf i == plane)
  else (List.range 8).filter (fun i => h.ownPlane i == plane && h.planeOf i != plane)

/-- R421: whether every message sent on an index has completed. -/
def State.drained (s : State) (hub : HubId) (i : Nat) : Bool :=
  !s.txns.any (fun x => decide (x.hub = hub) && decide (x.plane ≠ heldPlane) && planeIndex (keyAddress (x.line * 128)) == i) &&
  !s.mails.any (fun m => decide (m.hub = hub) && decide (m.plane ≠ heldPlane) && mailIndex m.name == i)

/-- R421: the next live plane in ascending order after one, wrapping from 7 to 0. -/
def Hub.nextLive (h : Hub) (plane : Nat) : Option Nat :=
  ((List.range 8).map (fun i => (plane + 1 + i) % 8)).find? (fun p => h.plst.getLsbD p)

/-- R432: PLMAP with entry i naming a plane. -/
def setMap (m : Word) (i plane : Nat) : Word :=
  (m &&& ~~~(BitVec.ofNat 32 (15 * 2 ^ (4 * i)))) ||| BitVec.ofNat 32 (plane * 2 ^ (4 * i))

/-- R421, R437: a held request leaves on its plane, behind those sent before it; across a failed bridge it completes with error. -/
def State.releaseTxn (s : State) (plane : Nat) (x : Txn) : State :=
  if s.planeCut x.hub plane then s.txnError x.id 0x60
  else (({ s with txns := s.txns.filter (fun y => y.id != x.id) ++ [{ x with plane := plane }] } : State).sent plane).due
    (x.kind.performed x.id)

/-- R421, R437: held mail leaves in the same way. -/
def State.releaseMail (s : State) (plane : Nat) (m : Mail) : State :=
  if s.planeCut m.hub plane then s.mailErrors (fun x => x.id == m.id)
  else (({ s with mails := s.mails.filter (fun y => y.id != m.id) ++ [{ m with plane := plane }] } : State).sent plane).due
    (.mailArrival m.id)

/-- R421: the held requests and mail of an index leave in their issue order on the plane that its entry names, unless that is to move
too; with no plane live they complete with error. -/
def State.releaseHeld (s : State) (hub : HubId) (i : Nat) : State :=
  let mine := s.txns.filter (fun x => decide (x.hub = hub) && x.plane == heldPlane && x.error.isNone &&
    planeIndex (keyAddress (x.line * 128)) == i)
  let post := s.mails.filter (fun m => decide (m.hub = hub) && m.plane == heldPlane && mailIndex m.name == i &&
    s.nameAway m.name && m.outcome.isNone)
  if (s.hub hub).plst = 0 then s.dropHeld hub
  else if s.moving hub i then s
  else
    let plane := (s.hub hub).planeOf i
    post.foldl (fun s m => s.releaseMail plane m) (mine.foldl (fun s x => s.releaseTxn plane x) s)

/-- R421, R423: whether a remap is due. -/
def State.remapReady (s : State) (hub : HubId) (plane : Nat) : Bool :=
  let h := s.hub hub
  (h.dying.contains plane || (decide (h.plst ≠ 0) && !(h.movingIndices plane).isEmpty)) &&
  (h.movingIndices plane).all (fun i => s.drained hub i)

/-- R421, R423: PLANE_REMAP: the entries move to the plane itself when it is live, else to the next live one. -/
def execPlaneRemap (hub : HubId) (plane : Nat) (s : State) : Host.Outcome State Fault Refusal :=
  if !s.remapReady hub plane then .next s
  else
    let h := s.hub hub
    let is := h.movingIndices plane
    let map := match if h.plst.getLsbD plane then some plane else h.nextLive plane with
      | some p => is.foldl (fun m i => setMap m i p) h.plmap
      | none => h.plmap
    let s1 := s.setHub hub { h with plmap := map, dying := h.dying.filter (fun p => p != plane) }
    .next (is.foldl (fun s i => s.releaseHeld hub i) s1)

/-- R1, R417, R436: whether the form reaches a plane from a hub: the 8405 has four, and a port stands on a link chiplet that is live. -/
def State.planeReached (s : State) (hub : HubId) (plane : Nat) : Bool :=
  s.hubPresent hub && (s.port? plane).isSome && decide (plane < 8) && (s.hub (linkHub plane)).live.getLsbD 8

/-- A plane is live on a hub that exists. -/
def State.planeLives (s : State) (hub : HubId) (plane : Nat) : State :=
  if s.hubPresent hub then s.modHub hub (fun h => { h with plst := h.plst ||| BitVec.twoPow 8 plane }) else s

/-- R421, R423: a plane's port has trained: the plane is live on both hubs, and the map returns once its indices have drained. A port
without frames under its key has a new one. -/
def State.portTrains (s : State) (plane : Nat) : State :=
  let s1 := s.modPort plane (fun l => { l with
    trained := true, state := 0, authFailures := 0, keyed := if l.counter = 0 ∧ l.received = 0 then s.tbase else l.keyed })
  ((s1.planeLives .h0 plane).planeLives .h1 plane).electReference

/-- R423, R428: a plane comes up: its port trains, or, where it had not left service, the plane lives again on the hub that had lost it
to the switch. A stopped port restarts only after a completed rekey. -/
def State.planeRises (s : State) (hub : HubId) (plane : Nat) : State :=
  match s.port? plane with
  | none => s
  | some l =>
    if !s.planeReached hub plane || l.state == 2 then s
    else if l.trained then (s.planeLives hub plane).electReference
    else s.portTrains plane

/-- R423: PLANE_UP. -/
def execPlaneUp (hub : HubId) (plane : Nat) (s : State) : Host.Outcome State Fault Refusal := .next (s.planeRises hub plane)

/-! ## Transactions and membership -/

/-- R421, R425: whether an entry issued at a time on a plane may complete with error: FTO has passed, or the plane is dead. -/
def Hub.entryOver (h : Hub) (now issued : Dword) (plane : Nat) : Bool :=
  decide (micros h.fto.toNat ≤ (now - issued).toNat) || (decide (plane < 8) && !h.plst.getLsbD plane)

/-- R421, R425: whether a request may complete with error. -/
def State.txnOver (s : State) (x : Txn) : Bool :=
  x.error.isNone && !s.txnHeld x && (s.hub x.hub).entryOver s.tbase x.issued x.plane

/-- R425, R427: the same of mail, which takes an entry too. -/
def State.mailOver (s : State) (m : Mail) : Bool :=
  m.outcome.isNone && s.nameAway m.name && !s.mailPaused m && (s.hub m.hub).entryOver s.tbase m.issued m.plane

/-- R425, R427: TRANSACTION_TIMEOUT, of a request or of mail. -/
def execTransactionTimeout (txn : Nat) (s : State) : Host.Outcome State Fault Refusal :=
  match s.txn? txn with
  | none => .next (s.mailErrors (fun m => m.id == txn && s.mailOver m))
  | some x => .next (if s.txnOver x then s.txnError txn (s.timeoutCause x) else s)

/-- R425: the timers of entries to a package in recovery pause. -/
def State.pauseTimers (s : State) (ticks : Dword) : State :=
  { s with
    txns := s.txns.map (fun x => if s.txnHeld x then { x with issued := x.issued + ticks } else x)
    mails := s.mails.map (fun m => if s.mailPaused m then { m with issued := m.issued + ticks } else m) }

/-- The planes that are live on some hub of the package. -/
def State.livePlanes (s : State) : List Nat := (List.range 8).filter (fun p => s.hub0.plst.getLsbD p || s.hub1.plst.getLsbD p)

/-- R424: whether the package's next membership beat is due: 10 µs after the last. -/
def State.beatDue (s : State) : Bool := !s.livePlanes.isEmpty && decide (micros 10 ≤ (s.tbase - s.beat).toNat)

/-- R424: MEMBERSHIP_BEAT: the package's beat leaves on every live plane. It tells that the package is up: one in recovery has enumerated
no link chiplet (R440). -/
def execMembershipBeat (s : State) : Host.Outcome State Fault Refusal :=
  .next (if s.beatDue then { s.broadcast s.livePlanes with beat := s.tbase } else s)

/-- Sets what is known of a package. -/
def State.setPackage (s : State) (p : PeerPackage) : State :=
  { s with packages := p :: s.packages.filter (fun x => x.package != p.package) }

/-- R424, R425: BEAT_RECEIVED: a package is up or in recovery; a failed one stays failed until it rejoins. Its beat comes on every live
plane. -/
def execBeatReceived (package : Nat) (recovering : Bool) (s : State) : Host.Outcome State Fault Refusal :=
  let old := s.packages.find? (fun p => p.package == package)
  let state := if recovering then PeerState.recovering else .up
  let since := match old with
    | some p => if p.state = .recovering then p.recoveringSince else s.tbase
    | none => s.tbase
  if package = s.flash.package ∨ 1024 ≤ package then .next s
  else if s.packageFailed package then .next s
  else .next ((s.livePlanes.foldl State.heard s).setPackage
    { package := package, state := state, lastBeat := s.tbase, recoveringSince := since
      rejoins := (old.map (fun p => p.rejoins)).getD 0 }).electReference

/-- R425: a package fails: every request to it completes with error, its RDC entries leave, and mail to it is refused. -/
def State.failPackage (s : State) (package : Nat) : State :=
  match s.packages.find? (fun p => p.package == package) with
  | none => s
  | some p =>
    let s1 := s.setPackage { p with state := .failed }
    let mine := s1.txns.filter (fun x => s.txnTo x package && x.error.isNone)
    let s2 := mine.foldl (fun s x => s.txnError x.id 0x60) s1
    let drop := fun (h : Hub) => { h with
      rdc := h.rdc.filter (fun e => localHome (keyHome (e.line * 128)) || s.packageOf (keyHome (e.line * 128) / 2) != package) }
    let s3 := (s2.modHub .h0 drop).modHub .h1 drop
    (s3.mailErrors (fun m => s.mailTo m package)).electReference

/-- R425: whether a package has sent no beat for 30 µs. -/
def State.silent (s : State) (p : PeerPackage) : Bool :=
  decide (p.state = .up ∨ p.state = .recovering) && decide (micros 30 ≤ (s.tbase - p.lastBeat).toNat)

/-- R425: MEMBERSHIP_TIMEOUT. -/
def execMembershipTimeout (package : Nat) (s : State) : Host.Outcome State Fault Refusal :=
  .next (if s.packages.any (fun p => p.package == package && s.silent p) then s.failPackage package else s)

/-- R425: whether a package has been in recovery for RECLIM µs, by the limit of hub 0 (log 29). -/
def State.recoveredTooLong (s : State) (p : PeerPackage) : Bool :=
  decide (p.state = .recovering) && decide (micros s.hub0.reclim.toNat ≤ (s.tbase - p.recoveringSince).toNat)

/-- R425: RECOVERY_LIMIT. -/
def execRecoveryLimit (package : Nat) (s : State) : Host.Outcome State Fault Refusal :=
  .next (if s.packages.any (fun p => p.package == package && s.recoveredTooLong p) then s.failPackage package else s)

/-- R425: PACKAGE_REJOIN: a failed package is up again, with a new generation of its name directories. -/
def execPackageRejoin (package : Nat) (s : State) : Host.Outcome State Fault Refusal :=
  match s.packages.find? (fun p => p.package == package && decide (p.state = .failed)) with
  | none => .next s
  | some p =>
    .next (s.setPackage
      { package := package, state := .up, lastBeat := s.tbase, recoveringSince := 0, rejoins := p.rejoins + 1 }).electReference

/-- R428: whether a port that is up is to start a rekey: by a frame counter, or by the age of its key. -/
def State.rekeyDue (s : State) (l : Link) : Bool :=
  l.trained && l.state == 0 &&
  (decide (2 ^ 48 - 2 ^ 40 ≤ (maxTime l.counter l.received).toNat) || decide (micros (2 ^ 32) ≤ (s.tbase - l.keyed).toNat))

/-- The steps of the fabric that are due. -/
def State.openFabric (s : State) : List Instr :=
  ((s.txns.filter s.txnOver).map (fun x => Instr.transactionTimeout x.id)) ++
  ((s.mails.filter s.mailOver).map (fun m => Instr.transactionTimeout m.id)) ++
  ((s.packages.filter s.silent).map (fun p => Instr.membershipTimeout p.package)) ++
  ((s.packages.filter s.recoveredTooLong).map (fun p => Instr.recoveryLimit p.package)) ++
  [HubId.h0, .h1].flatMap (fun h => ((List.range 8).filter (fun p => s.remapReady h p)).map (fun p => Instr.planeRemap h p)) ++
  (if s.beatDue then [.membershipBeat] else []) ++
  s.ports.flatMap (fun l =>
    (if s.rekeyDue l then [Instr.rekeyStart (linkHub l.plane) l.plane] else []) ++
    (if l.trained && l.spent then [Instr.portStop (linkHub l.plane) l.plane] else []))

/-! ## Protected links -/

/-- R428: PORT_STOP: a direction has used up its key. -/
def execPortStop (_hub : HubId) (plane : Nat) (s : State) : Host.Outcome State Fault Refusal := .next (s.portLeaves plane 2)

/-- R428: FRAME_AUTH_FAILURE: the frame is replayed under a new counter value, which a port whose key is used up has not: it stops. The
third failure in a row takes the port down. -/
def execFrameAuthFailure (_hub : HubId) (plane : Nat) (s : State) : Host.Outcome State Fault Refusal :=
  match s.port? plane with
  | none => .next s
  | some l =>
    if l.spent then .next (s.portLeaves plane 2)
    else
      let s1 := (s.modPort plane (fun l => { l with authFailures := l.authFailures + 1 })).sent plane
      .next (if 2 ≤ l.authFailures then s1.portLeaves plane 3 else s1)

/-- R428: REKEY_START: a port that is up starts a rekey, at its own threshold or at the other end's (log 26); a stopped one stays stopped
until the rekey completes. -/
def execRekeyStart (_hub : HubId) (plane : Nat) (s : State) : Host.Outcome State Fault Refusal :=
  .next (s.modPort plane (fun l => if l.trained ∧ l.state = 0 then { l with state := 1 } else l))

/-- R428, R432: REKEY_COMPLETE: both sides have the new key: the counters start at 0, and a stopped port restarts. -/
def execRekeyComplete (_hub : HubId) (plane : Nat) (s : State) : Host.Outcome State Fault Refusal :=
  match s.port? plane with
  | none => .next s
  | some l =>
    if l.state ≠ 1 ∧ l.state ≠ 2 then .next s
    else
      let s1 := s.modPort plane (fun l => { l with
        state := 0, rekeys := l.rekeys + 1, counter := 0, received := 0, keyed := s.tbase, authFailures := 0 })
      .next (if l.state = 2 then s1.planeRises (linkHub plane) plane else s1)

/-! ## Access tables -/

/-- R429: the bits that an entry holds: its zero fields read zero. -/
def maskEntry (e : AccessEntry) : AccessEntry :=
  { e with base := tableBits e.base, limit := tableBits e.limit, source := e.source &&& 0x7FFF, levels := e.levels &&& 0x07
           rights := e.rights &&& 0xBF }

/-- R429, R430: ACCESS_TABLE_WRITE. -/
def execAccessTableWrite (target : AccessTarget) (index : Nat) (entry : AccessEntry) (s : State) : Host.Outcome State Fault Refusal :=
  if 64 ≤ index then .next s
  else .next { s with access := (target, index, maskEntry entry) :: s.access.filter (fun x => !(decide (x.1 = target) && x.2.1 == index)) }

/-! ## The host port -/

/-- R442: a host write to a queue window. A write that reaches the doorbell's bytes offers the packet, with what of it the write holds. -/
def State.hostWindow (s : State) (address : Nat) (data : List Byte) : State :=
  let n := address / 4096
  let off := address % 4096
  let h := hubOfNumber (n / 64)
  let until_ := off + data.length
  if 128 ≤ n || !s.hostReaches h then s
  else
    let s1 := if 0x80 ≤ off then s
      else s.modQueue h (n % 64) (fun q => { q with
        window := (List.range 128).map (fun i => if off ≤ i ∧ i < until_ then data.getD (i - off) 0 else q.window.getD i 0) })
    if off < 0x88 ∧ 0x80 < until_ then s1.ringDoorbell h (n % 64) else s1

/-- R331, R429, R437, R442: whether the host reaches the home of an address of the package's memory, and the access tables admit it. -/
def State.hostAdmitted (s : State) (k right : Nat) : Bool :=
  localHome (keyHome k) && s.hostReaches (homeHub (keyHome k)) && (s.linkError .h0 (lineOfKey k)).isNone &&
  s.admits .hostPort hostSpace (keyAddress k) right && (s.refusedBy hostSpace (keyHome k) (keyAddress k) [right]).isNone

/-- R331: a host write is performed at the home, a line at a time. -/
def State.hostWrite (s : State) (k : Nat) (data : List Byte) : State :=
  (linePieces k data.length).foldl (fun s p =>
    if !s.hostAdmitted (k + p.1) 1 then s
    else match s.queueRegister (k + p.1) with
      | some (h, off) =>
        if off % 8 = 0 ∧ p.2 = 8 then s.writeQueueSpace h true off (BitVec.ofNat 64 (ofBytes ((data.drop p.1).take 8))) else s
      | none => s.homeWrite (k + p.1) ((data.drop p.1).take p.2) (hubWriter .h0)) s

/-- R331, R338: a host read is one of an I/O-coherent requester. -/
def State.hostRead (s : State) (k n : Nat) : State :=
  (linePieces k n).foldl (fun s p => if s.hostAdmitted (k + p.1) 0 then s.ioRead (lineOfKey (k + p.1)) else s) s

/-- R331, R442: HOST_ACCESS: the host reads or writes a queue window, or device memory through BAR2; the address of a write or read
of memory is its memory key, and a read's data stand for its length (log 30). In recovery the host port offers neither (R440). -/
def execHostAccess (window write : Bool) (address : Nat) (data : List Byte) (s : State) : Host.Outcome State Fault Refusal :=
  match window, write with
  | true, true => .next (s.hostWindow address data)
  | true, false => .next s
  | false, true => .next (s.hostWrite address data)
  | false, false => .next (s.hostRead address data.length)

end Sys2Proof.Machine
end

