-- ==== Sys2Proof/Machine/Fence.lean ====
section
/-! DEFINITION. FENCE and PERSIST (R134 to R137, R352). -/

namespace Sys2Proof.Machine

/-- R124, R135: what a fence waits for: the group's copies, stores and outstanding entries, and, as a release, what a release at
its scope waits for. -/
def State.fenceWait (s : State) (c : Ctx) (order scope : Nat) : State × Option WaitKind :=
  s.settleStores c (if order = 1 then 0 else scope) true

/-- R134, R135: FENCE. -/
def execFence (w : MainWord) (s : State) : Host.Outcome State Fault Refusal :=
  let g : Sig := { op := 0x304, mOk := w.m == 0, xMask := 0x03F,
                   fieldsOk := decide (1 ≤ xOrder w ∧ xOrder w ≤ 4) && decide (xScope w < 7) }
  runMain s g w (fun s c =>
    if c.active = 0 then .done s
    else
      let x := s.fenceWait c (xOrder w) (xScope w)
      match x.2 with
      | some k => .wait x.1 k
      | none => (x.1.reportFailures c true).andThen (fun s1 =>
          .done (if xOrder w = 2 then s1 else s1.acquire c.tid c.gid c.group.coreIx (xScope w) c.unit false)))

/-- R136, R137: PERSIST, a fence of order acq-rel at scope 5; in a staged team it does not stall. -/
def execPersist (w : MainWord) (s : State) : Host.Outcome State Fault Refusal :=
  let g : Sig := { op := 0x305, mOk := w.m == 0, xMask := 0x007, fieldsOk := xScope w == 6 }
  runMain s g w (fun s c =>
    if c.active = 0 then .done s
    else if c.team.staging then (s.reportFailures c true).andThen (fun s1 =>
      .done (s1.acquire c.tid c.gid c.group.coreIx 5 c.unit false))
    else
      let x := s.settleStores c 5 true
      match x.2 with
      | some _ => .wait x.1 (.completes false)
      | none => (x.1.reportFailures c true).andThen (fun s1 => .done (s1.acquire c.tid c.gid c.group.coreIx 5 c.unit false)))

end Sys2Proof.Machine
end

