-- ==== Sys2Proof/Machine/Power.lean ====
section
/-! DEFINITION. Power: the loss of power and its record (R350, R354, R355, R443), boot (R440, R441), supply sag and the power
manager (R444). -/

namespace Sys2Proof.Machine

/-! ## Power loss -/

/-- R355: the old count of losses at a hub's PLRA, 0 where no valid record stands. -/
def recordedLosses (tier : Memory) (k : Nat) : Nat :=
  let bs := tier.readBytes k 4096
  if fieldAt bs 0 4 = 0x43524C50 ∧ fieldAt bs 0xFF8 8 = (crc64 0 (bs.take 0xFF8)).toNat then fieldAt bs 8 8 else 0

/-- R355: a power-loss record: the entries written, and the granules of those that were lost. -/
def lossRecord (h : HubId) (losses : Nat) (cycle lclk : Dword) (drained : Nat) (lost : List Nat) : List Byte :=
  let status := if lost.isEmpty then 0 else if lost.length ≤ 503 then 1 else 2
  let list := (List.range 503).flatMap (fun i => toBytes 8 (((lost[i]?).map (fun g => keyAddress (g * 64))).getD 0))
  let body := toBytes 4 0x43524C50 ++ toBytes 2 1 ++ [BitVec.ofNat 8 (hubNumber h), status] ++ toBytes 8 losses ++ toBytes 8 cycle.toNat ++
    toBytes 8 lclk.toNat ++ toBytes 4 drained ++ toBytes 4 lost.length ++ zeros 24 ++ list
  body ++ toBytes 8 (crc64 0 body).toNat

/-- R351, R355: the entries that a hub writes back as power is lost, and those that it cannot: beyond PBCAP.CAP, when its energy store
has failed with more in use; which ones is free (log 75). None reach the ports of an isolated link chiplet (R436). -/
def Hub.lastDrain (h : Hub) (tick : Nat) : List PersistEntry × List PersistEntry :=
  if !h.live.getLsbD 8 then ([], h.persist)
  else if h.persist.length ≤ h.pbcap.toNat then (h.persist, [])
  else
    let i := Config.freeChoice tick % h.persist.length
    (h.persist.drop i ++ h.persist.take i).splitAt h.pbcap.toNat

/-- R350: whether a key lies in a durable window. -/
def State.durableKey (s : State) (k : Nat) : Bool := s.inDurableWindow (keyHome k) (keyAddress k)

/-- R355: a hub writes its record at PLRA. -/
def State.recordLoss (s : State) (h : HubId) : State :=
  let x := s.hub h
  let k := memKey (peerOf h) x.plra.toNat
  let entries := x.lastDrain s.tick
  if x.plra = 0 ∨ !s.durableKey k ∨ !x.live.getLsbD 8 then s
  else { s with
    tier := s.tier.writeBytes k (lossRecord h (recordedLosses s.tier k + 1) s.cycle x.lclk entries.1.length
      (entries.2.map (fun e => e.granule)))
    tierPoison := poisonWords s.tierPoison k 4096 0 }

/-- R350: the granules of the durable windows that memory and the tier hold differently: those of plain pages. -/
def State.plainGranules (s : State) : List Nat :=
  (((s.mem.map (fun (c : Nat × Byte) => c.1 / 64)) ++ (s.tier.map (fun (c : Nat × Byte) => c.1 / 64))).eraseDups).filter (fun g =>
    s.durableKey (g * 64) && decide (s.mem.readBytes (g * 64) 64 ≠ s.tier.readBytes (g * 64) 64))

/-- R350: such a granule holds some value written to it, or its earlier contents: which is free (log 32). -/
def State.settleGranules (s : State) : State :=
  s.plainGranules.foldl (fun s g =>
    if Config.freeReplaced s.tick (g + 64) then
      s.toTier { granule := g, data := s.mem.readBytes (g * 64) 64, origins := (List.range 16).map (fun i => s.memPoison.read (g * 16 + i)) }
    else s) s

/-- R350, R354, R355: what the tier holds after a loss of power. -/
def State.lastTier (s : State) : State :=
  let drain := fun (s : State) (h : HubId) => ((s.hub h).lastDrain s.tick).1.foldl State.toTier s
  let s1 := (drain (drain s .h0) .h1).settleGranules
  (s1.recordLoss .h0).recordLoss .h1

/-- The package without power: the tier, the flash and the chiplets with what they present remain. -/
def State.dark (s : State) : State :=
  let hub := fun (h : Hub) => { h with live := 0 }
  { State.resetAs s.form with
    tick := s.tick, next := .idle, inputs := s.inputs, mem := s.tier, tier := s.tier, memPoison := s.tierPoison, tierPoison := s.tierPoison
    hub0 := hub (Hub.reset s.form .h0 s.flash.qrs0 s.flash.dur0 false), hub1 := hub (Hub.reset s.form .h1 s.flash.qrs1 s.flash.dur1 false)
    teams := [], nextTeam := 0, powered := false, tables := s.tables, flash := s.flash }

/-- R355, R443: POWER_LOSS: each hub drains its persist buffer to the ports' devices, and then writes its record. -/
def execPowerLoss (s : State) : Host.Outcome State Fault Refusal := .next (if s.powered then s.lastTier.dark else s)

/-! ## Boot -/

/-- R440: the configuration records in use: of each type the highest version that verifies. -/
def chosenRecords (rs : List ConfigRecord) : List ConfigRecord :=
  let good := rs.filter (fun r => r.verifies)
  good.filter (fun r => !good.any (fun x => x.type == r.type && decide (r.version < x.version)))

/-- R443: the capacities of two ports held to a window of 4 TiB. -/
def windowOf (w : Nat × Nat × Nat) : Nat × Nat × Nat :=
  let most := 2 ^ 42
  if w.2.1 = w.2.2 then (w.1, min w.2.1 (most / 2), min w.2.2 (most / 2))
  else (w.1, min w.2.1 most, min w.2.2 (most - min w.2.1 most))

/-- R443: the durable window of a hub at this boot: a device whose training fails is left out; whether it fails is free (log 16). -/
def State.trainedWindow (s : State) (h : HubId) (w : Nat × Nat × Nat) : Nat × Nat × Nat :=
  let port := fun (i size : Nat) =>
    if size = 0 ∨ (Config.freeReading s.tick (4430 + 2 * hubNumber h + i)).getLsbD 0 then 0 else size
  windowOf (w.1, port 0 w.2.1, port 1 w.2.2)

/-- R434, R440: every chiplet that is fitted at a hub is enumerated from the table that it presents; one whose table fails is isolated. -/
def State.enumerateAll (s : State) (id : HubId) (h : Hub) : Hub :=
  ((List.range 16).filter (fun p => h.fit.getLsbD p)).foldl (fun h p =>
    let table := (s.tableAt id p).getD []
    let h1 := h.enumerate p table
    if tableOk p table then h1 else h1.queueEvent 0x75 (chipletWord id p) 0) { h with live := 0, caps := [] }

/-- R440: the stages of a hub's boot: one that fails leaves it in recovery, with no chiplet enumerated. -/
def State.bootHub (s : State) (id : HubId) (qrs : Nat) (dur : Nat × Nat × Nat) (firmware identity : Bool) : Hub :=
  let h := Hub.reset s.form id qrs (s.trainedWindow id dur) false
  if firmware && identity then s.enumerateAll id h else { h with live := 0, recovery := true }

/-- R355, R441: the status of the power-loss record at a hub's PLRA, 0xFF when none stands there. -/
def State.lossStatus (s : State) (id : HubId) (h : Hub) : Nat :=
  let bs := s.tier.readBytes (memKey (peerOf id) h.plra.toNat) 4096
  if h.plra ≠ 0 ∧ fieldAt bs 0 4 = 0x43524C50 ∧ fieldAt bs 0xFF8 8 = (crc64 0 (bs.take 0xFF8)).toNat then fieldAt bs 7 1 else 0xFF

/-- R440: what a boot reports. -/
def Flash.reports (f : Flash) : List BootReport :=
  (if f.firmwareOk.1 then if f.pufOk.1 then [] else [.identity .h0] else [.firmware .h0]) ++
  (if f.firmwareOk.2 then if f.pufOk.2 then [] else [.identity .h1] else [.firmware .h1]) ++
  (if f.kernelOk then [] else [.kernelImage])

/-- R440, R441, R445: boot from the flash. The kernel starts on hub 0's scalar chiplet when its image verifies; memory holds the image, the
initial page table and the boot information block beside what the tier keeps, and the timebase and CYCLE count from 0. -/
def State.boot (s : State) : State :=
  let f := s.flash
  let h0 := s.bootHub .h0 f.qrs0 f.dur0 f.firmwareOk.1 f.pufOk.1
  let h1 := s.bootHub .h1 f.qrs1 f.dur1 f.firmwareOk.2 f.pufOk.2
  let starts := f.kernelOk && !h0.recovery && h0.live.getLsbD 7
  let words := f.bootTable ++ f.bootInfo s.form h0 h1 (fun h => s.lossStatus h (match h with | .h0 => h0 | .h1 => h1))
  { s with
    powered := true, cycle := 0, tbase := 0, beat := 0, hub0 := h0, hub1 := h1, configured := chosenRecords f.records, reports := f.reports
    access := f.access, mem := if h0.recovery then s.mem else (s.mem.writeCells f.image).writeCells (bootCells words)
    teams := if starts then [Team.boot f] else [], nextTeam := 1 }

/-- R440, R441: POWER_ON_RESET, of a package without power (log 31). -/
def execPowerOnReset (s : State) : Host.Outcome State Fault Refusal := .next (if s.powered then s else s.boot)

/-! ## Supply and power -/

/-- R444: SUPPLY_SAG: the chiplet's clock is stretched, and the event is counted. -/
def execSupplySag (hub : HubId) (pos : Nat) (s : State) : Host.Outcome State Fault Refusal :=
  let count := fun (h : Hub) => { h with sags := h.sags + 1 }
  .next (((s.modHub .h0 count).modHub .h1 count).modHub hub (fun h => { h with sagging := (pos :: h.sagging).eraseDups }))

/-- R444: SAG_RECOVERY. -/
def execSagRecovery (hub : HubId) (pos : Nat) (s : State) : Host.Outcome State Fault Refusal :=
  .next (s.modHub hub (fun h => { h with sagging := h.sagging.filter (fun p => p != pos) }))

/-- R444: the floor of the arithmetic clock, which no rule states (log 33), but that at the 3.2 kW rating the clock stays at 2.3 GHz or
more. -/
def clockFloor (limit : Nat) : Nat :=
  let floor := (Config.freeReading 0 444).toNat % 2500
  if limit = 3200 then max floor 2300 else floor

/-- R444: the arithmetic clock after a step: lowered above the limit, no further than the floor, and raised below it up to its nominal
rate. -/
def nextClock (mhz : BitVec 12) (watts limit : Nat) : BitVec 12 :=
  if limit < watts then
    if clockFloor limit + 25 ≤ mhz.toNat then mhz - 25 else mhz
  else if mhz.toNat + 25 ≤ 2500 then mhz + 25 else mhz

/-- R444: POWER_LIMIT_STEP, with the package's draw, held to the lower of the two hubs' limits (log 36); the draw of each
chiplet is a reading (log 16). -/
def execPowerLimitStep (watts : Nat) (s : State) : Host.Outcome State Fault Refusal :=
  let limit := min s.hub0.pwrLimit.toNat s.hub1.pwrLimit.toNat
  let set := fun (base : Nat) (h : Hub) =>
    let draws := (List.range 9).map (fun n => (n, (Config.freeReading s.tick (base + n)).setWidth 16))
    { h with mhz := nextClock h.mhz watts limit, watts := BitVec.ofNat 16 watts, chWatts := draws }
  .next ((s.modHub .h0 (set 4440)).modHub .h1 (set 4460))

end Sys2Proof.Machine
end

