-- ==== Sys2Proof/Machine/Dispatch.lean ====
section
/-! DEFINITION. The meaning of every instruction: one arm per constructor of Instr. -/

namespace Sys2Proof.Machine

/-- One instruction, executed in a state. -/
def exec (i : Instr) (s : State) : Host.Outcome State Fault Refusal :=
  match i with
  | .iadd w => Sys2Proof.Machine.execIadd w s
  | .isub w => Sys2Proof.Machine.execIsub w s
  | .imul w => Sys2Proof.Machine.execImul w s
  | .imulh w => Sys2Proof.Machine.execImulh w s
  | .imad w => Sys2Proof.Machine.execImad w s
  | .idiv w => Sys2Proof.Machine.execIdiv w s
  | .irem w => Sys2Proof.Machine.execIrem w s
  | .imin w => Sys2Proof.Machine.execImin w s
  | .imax w => Sys2Proof.Machine.execImax w s
  | .iabs w => Sys2Proof.Machine.execIabs w s
  | .and w => Sys2Proof.Machine.execAnd w s
  | .or w => Sys2Proof.Machine.execOr w s
  | .xor w => Sys2Proof.Machine.execXor w s
  | .andn w => Sys2Proof.Machine.execAndn w s
  | .bmix w => Sys2Proof.Machine.execBmix w s
  | .shl w => Sys2Proof.Machine.execShl w s
  | .shr w => Sys2Proof.Machine.execShr w s
  | .sar w => Sys2Proof.Machine.execSar w s
  | .rotl w => Sys2Proof.Machine.execRotl w s
  | .popc w => Sys2Proof.Machine.execPopc w s
  | .clz w => Sys2Proof.Machine.execClz w s
  | .ctz w => Sys2Proof.Machine.execCtz w s
  | .brev w => Sys2Proof.Machine.execBrev w s
  | .bfx w => Sys2Proof.Machine.execBfx w s
  | .bfi w => Sys2Proof.Machine.execBfi w s
  | .icmp w => Sys2Proof.Machine.execIcmp w s
  | .plog w => Sys2Proof.Machine.execPlog w s
  | .sel w => Sys2Proof.Machine.execSel w s
  | .mov w => Sys2Proof.Machine.execMov w s
  | .pmovFromPred w => Sys2Proof.Machine.execPmovFromPred w s
  | .pmovToPred w => Sys2Proof.Machine.execPmovToPred w s
  | .pmovGet w => Sys2Proof.Machine.execPmovGet w s
  | .pmovSet w => Sys2Proof.Machine.execPmovSet w s
  | .lea w => Sys2Proof.Machine.execLea w s
  | .fadd w => Sys2Proof.Machine.execFadd w s
  | .fsub w => Sys2Proof.Machine.execFsub w s
  | .fmul w => Sys2Proof.Machine.execFmul w s
  | .ffma w => Sys2Proof.Machine.execFfma w s
  | .fmin w => Sys2Proof.Machine.execFmin w s
  | .fmax w => Sys2Proof.Machine.execFmax w s
  | .fabs w => Sys2Proof.Machine.execFabs w s
  | .fneg w => Sys2Proof.Machine.execFneg w s
  | .fdiv w => Sys2Proof.Machine.execFdiv w s
  | .fsqrt w => Sys2Proof.Machine.execFsqrt w s
  | .fcmp w => Sys2Proof.Machine.execFcmp w s
  | .fclass w => Sys2Proof.Machine.execFclass w s
  | .fdot2 w => Sys2Proof.Machine.execFdot2 w s
  | .fdot4 w => Sys2Proof.Machine.execFdot4 w s
  | .cvt w => Sys2Proof.Machine.execCvt w s
  | .cvts w => Sys2Proof.Machine.execCvts w s
  | .frnd w => Sys2Proof.Machine.execFrnd w s
  | .frcp w => Sys2Proof.Machine.execFrcp w s
  | .frsq w => Sys2Proof.Machine.execFrsq w s
  | .fexp2 w => Sys2Proof.Machine.execFexp2 w s
  | .flog2 w => Sys2Proof.Machine.execFlog2 w s
  | .fsin w => Sys2Proof.Machine.execFsin w s
  | .fcos w => Sys2Proof.Machine.execFcos w s
  | .ftanh w => Sys2Proof.Machine.execFtanh w s
  | .qscl w => Sys2Proof.Machine.execQscl w s
  | .qpack w => Sys2Proof.Machine.execQpack w s
  | .qunpk w => Sys2Proof.Machine.execQunpk w s
  | .shape w => Sys2Proof.Machine.execShape w s
  | .prdx w => Sys2Proof.Machine.execPrdx w s
  | .ballot w => Sys2Proof.Machine.execBallot w s
  | .lxch w => Sys2Proof.Machine.execLxch w s
  | .lxop w => Sys2Proof.Machine.execLxop w s
  | .scan w => Sys2Proof.Machine.execScan w s
  | .part w => Sys2Proof.Machine.execPart w s
  | .reord w => Sys2Proof.Machine.execReord w s
  | .tmma w => Sys2Proof.Machine.execTmma w s
  | .tzero w => Sys2Proof.Machine.execTzero w s
  | .tld w => Sys2Proof.Machine.execTld w s
  | .tdrn w => Sys2Proof.Machine.execTdrn w s
  | .tredr w => Sys2Proof.Machine.execTredr w s
  | .tredc w => Sys2Proof.Machine.execTredc w s
  | .tbcr w => Sys2Proof.Machine.execTbcr w s
  | .tbcc w => Sys2Proof.Machine.execTbcc w s
  | .trot w => Sys2Proof.Machine.execTrot w s
  | .tew w => Sys2Proof.Machine.execTew w s
  | .tget w => Sys2Proof.Machine.execTget w s
  | .tset w => Sys2Proof.Machine.execTset w s
  | .ld w => Sys2Proof.Machine.execLd w s
  | .st w => Sys2Proof.Machine.execSt w s
  | .pref w => Sys2Proof.Machine.execPref w s
  | .wb w => Sys2Proof.Machine.execWb w s
  | .inv w => Sys2Proof.Machine.execInv w s
  | .iinv w => Sys2Proof.Machine.execIinv w s
  | .ifence w => Sys2Proof.Machine.execIfence w s
  | .lds w => Sys2Proof.Machine.execLds w s
  | .sts w => Sys2Proof.Machine.execSts w s
  | .ldk w => Sys2Proof.Machine.execLdk w s
  | .cpy w => Sys2Proof.Machine.execCpy w s
  | .cpyw w => Sys2Proof.Machine.execCpyw w s
  | .publDecl w => Sys2Proof.Machine.execPublDecl w s
  | .publSwap w => Sys2Proof.Machine.execPublSwap w s
  | .publFree w => Sys2Proof.Machine.execPublFree w s
  | .atom w => Sys2Proof.Machine.execAtom w s
  | .cas w => Sys2Proof.Machine.execCas w s
  | .ldr w => Sys2Proof.Machine.execLdr w s
  | .stc w => Sys2Proof.Machine.execStc w s
  | .fence w => Sys2Proof.Machine.execFence w s
  | .persist w => Sys2Proof.Machine.execPersist w s
  | .bari w => Sys2Proof.Machine.execBari w s
  | .bara w => Sys2Proof.Machine.execBara w s
  | .barw w => Sys2Proof.Machine.execBarw w s
  | .bars w => Sys2Proof.Machine.execBars w s
  | .barq w => Sys2Proof.Machine.execBarq w s
  | .nop w => Sys2Proof.Machine.execNop w s
  | .bra w => Sys2Proof.Machine.execBra w s
  | .brx w => Sys2Proof.Machine.execBrx w s
  | .call w => Sys2Proof.Machine.execCall w s
  | .callx w => Sys2Proof.Machine.execCallx w s
  | .ret w => Sys2Proof.Machine.execRet w s
  | .exit w => Sys2Proof.Machine.execExit w s
  | .yield w => Sys2Proof.Machine.execYield w s
  | .loop w => Sys2Proof.Machine.execLoop w s
  | .trap w => Sys2Proof.Machine.execTrap w s
  | .sysc w => Sys2Proof.Machine.execSysc w s
  | .eret w => Sys2Proof.Machine.execEret w s
  | .mfcr w => Sys2Proof.Machine.execMfcr w s
  | .mtcr w => Sys2Proof.Machine.execMtcr w s
  | .tlbi w => Sys2Proof.Machine.execTlbi w s
  | .waite w => Sys2Proof.Machine.execWaite w s
  | .lnch w => Sys2Proof.Machine.execLnch w s
  | .engsGo w => Sys2Proof.Machine.execEngsGo w s
  | .engsSt w => Sys2Proof.Machine.execEngsSt w s
  | .engsCmd w => Sys2Proof.Machine.execEngsCmd w s
  | .engsSig w => Sys2Proof.Machine.execEngsSig w s
  | .engr w => Sys2Proof.Machine.execEngr w s
  | .savev w => Sys2Proof.Machine.execSavev w s
  | .savevState w => Sys2Proof.Machine.execSavevState w s
  | .restv w => Sys2Proof.Machine.execRestv w s
  | .restvState w => Sys2Proof.Machine.execRestvState w s
  | .name w => Sys2Proof.Machine.execName w s
  | .holdArm w => Sys2Proof.Machine.execHoldArm w s
  | .holdOff w => Sys2Proof.Machine.execHoldOff w s
  | .rstv w => Sys2Proof.Machine.execRstv w s
  | .harvOn w => Sys2Proof.Machine.execHarvOn w s
  | .harvOff w => Sys2Proof.Machine.execHarvOff w s
  | .hchkLost w => Sys2Proof.Machine.execHchkLost w s
  | .hchkLostc w => Sys2Proof.Machine.execHchkLostc w s
  | .hchkRevs w => Sys2Proof.Machine.execHchkRevs w s
  | .push lit => Sys2Proof.Machine.execPush lit s
  | .ext lit => Sys2Proof.Machine.execExt lit s
  | .getl reg => Sys2Proof.Machine.execGetl reg s
  | .setl reg => Sys2Proof.Machine.execSetl reg s
  | .engLoop reg => Sys2Proof.Machine.execEngLoop reg s
  | .endl reg => Sys2Proof.Machine.execEndl reg s
  | .tkpop queue => Sys2Proof.Machine.execTkpop queue s
  | .tkpsh queue => Sys2Proof.Machine.execTkpsh queue s
  | .tktst queue => Sys2Proof.Machine.execTktst queue s
  | .cpyin pop push => Sys2Proof.Machine.execCpyin pop push s
  | .cpyout pop push => Sys2Proof.Machine.execCpyout pop push s
  | .gath pop push => Sys2Proof.Machine.execGath pop push s
  | .scat pop push => Sys2Proof.Machine.execScat pop push s
  | .mdfil pop push => Sys2Proof.Machine.execMdfil pop push s
  | .wpre pop push => Sys2Proof.Machine.execWpre pop push s
  | .wswp pop push => Sys2Proof.Machine.execWswp pop push s
  | .strm pop push => Sys2Proof.Machine.execStrm pop push s
  | .strms pop push => Sys2Proof.Machine.execStrms pop push s
  | .drn pop push => Sys2Proof.Machine.execDrn pop push s
  | .dclr pop push => Sys2Proof.Machine.execDclr pop push s
  | .kscl pop push => Sys2Proof.Machine.execKscl pop push s
  | .kpack pop push => Sys2Proof.Machine.execKpack pop push s
  | .kunpk pop push => Sys2Proof.Machine.execKunpk pop push s
  | .agset gen => Sys2Proof.Machine.execAgset gen s
  | .agstr gen => Sys2Proof.Machine.execAgstr gen s
  | .agwrap gen => Sys2Proof.Machine.execAgwrap gen s
  | .agrd gen => Sys2Proof.Machine.execAgrd gen s
  | .codeLineFill unit asn va => Sys2Proof.Machine.execCodeLineFill unit asn va s
  | .groupSlotFree team gid => Sys2Proof.Machine.execGroupSlotFree team gid s
  | .completionRecordFault hub va cause status => Sys2Proof.Machine.execCompletionRecordFault hub va cause status s
  | .bundleValidation hub queue => Sys2Proof.Machine.execBundleValidation hub queue s
  | .dependenceSignalRead hub queue signal => Sys2Proof.Machine.execDependenceSignalRead hub queue signal s
  | .placementConsideration hub => Sys2Proof.Machine.execPlacementConsideration hub s
  | .coreReservation team => Sys2Proof.Machine.execCoreReservation team s
  | .rangeClearDone team => Sys2Proof.Machine.execRangeClearDone team s
  | .withdrawal team => Sys2Proof.Machine.execWithdrawal team s
  | .preemption team gid => Sys2Proof.Machine.execPreemption team gid s
  | .saveBudgetExpiry team gid => Sys2Proof.Machine.execSaveBudgetExpiry team gid s
  | .teamSaveComplete team => Sys2Proof.Machine.execTeamSaveComplete team s
  | .revocationComplete core => Sys2Proof.Machine.execRevocationComplete core s
  | .harvestRevoke team gid => Sys2Proof.Machine.execHarvestRevoke team gid s
  | .entryWake team gid => Sys2Proof.Machine.execEntryWake team gid s
  | .waiteRecheck team gid => Sys2Proof.Machine.execWaiteRecheck team gid s
  | .reservationExpiry hub index => Sys2Proof.Machine.execReservationExpiry hub index s
  | .storeCombiningDrain core index => Sys2Proof.Machine.execStoreCombiningDrain core index s
  | .plainRead txn => Sys2Proof.Machine.execPlainRead txn s
  | .leasedRead txn => Sys2Proof.Machine.execLeasedRead txn s
  | .homeWrite txn => Sys2Proof.Machine.execHomeWrite txn s
  | .refUpdate hub ref => Sys2Proof.Machine.execRefUpdate hub ref s
  | .guardAnswer hub => Sys2Proof.Machine.execGuardAnswer hub s
  | .leaseFenceTimeout hub => Sys2Proof.Machine.execLeaseFenceTimeout hub s
  | .leaseCut hub => Sys2Proof.Machine.execLeaseCut hub s
  | .releasePublished hub line => Sys2Proof.Machine.execReleasePublished hub line s
  | .persistBufferDrain hub index => Sys2Proof.Machine.execPersistBufferDrain hub index s
  | .pageRequest source => Sys2Proof.Machine.execPageRequest source s
  | .prqcResume hub tag => Sys2Proof.Machine.execPrqcResume hub tag s
  | .prqcDecline hub tag => Sys2Proof.Machine.execPrqcDecline hub tag s
  | .cres team => Sys2Proof.Machine.execCres team s
  | .bankFormatWrite team high value => Sys2Proof.Machine.execBankFormatWrite team high value s
  | .chctlIso hub pos => Sys2Proof.Machine.execChctlIso hub pos s
  | .chctlRen hub pos => Sys2Proof.Machine.execChctlRen hub pos s
  | .registerWrite hub offset value => Sys2Proof.Machine.execRegisterWrite hub offset value s
  | .enumerationComplete hub pos table => Sys2Proof.Machine.execEnumerationComplete hub pos table s
  | .eventDelivery hub => Sys2Proof.Machine.execEventDelivery hub s
  | .copyLineLanded team copy => Sys2Proof.Machine.execCopyLineLanded team copy s
  | .copyCompletion team copy => Sys2Proof.Machine.execCopyCompletion team copy s
  | .copyTranslationFault team copy => Sys2Proof.Machine.execCopyTranslationFault team copy s
  | .copyWriteFailure team copy => Sys2Proof.Machine.execCopyWriteFailure team copy s
  | .engineOpStart team engine => Sys2Proof.Machine.execEngineOpStart team engine s
  | .engineOpFinish team engine => Sys2Proof.Machine.execEngineOpFinish team engine s
  | .engineTranslationFault team => Sys2Proof.Machine.execEngineTranslationFault team s
  | .enginePoisonAtStore team => Sys2Proof.Machine.execEnginePoisonAtStore team s
  | .engineStop team engine => Sys2Proof.Machine.execEngineStop team engine s
  | .engineFaultReport team => Sys2Proof.Machine.execEngineFaultReport team s
  | .clusterFreezeDone team => Sys2Proof.Machine.execClusterFreezeDone team s
  | .groupPatrolExpiry team gid => Sys2Proof.Machine.execGroupPatrolExpiry team gid s
  | .clusterPatrolExpiry team => Sys2Proof.Machine.execClusterPatrolExpiry team s
  | .queuePatrolExpiry hub queue => Sys2Proof.Machine.execQueuePatrolExpiry hub queue s
  | .mailArrival mail => Sys2Proof.Machine.execMailArrival mail s
  | .mailForward mail => Sys2Proof.Machine.execMailForward mail s
  | .mailAck mail => Sys2Proof.Machine.execMailAck mail s
  | .mailUndeliverable team gid => Sys2Proof.Machine.execMailUndeliverable team gid s
  | .planeRemap hub plane => Sys2Proof.Machine.execPlaneRemap hub plane s
  | .transactionTimeout txn => Sys2Proof.Machine.execTransactionTimeout txn s
  | .membershipTimeout package => Sys2Proof.Machine.execMembershipTimeout package s
  | .recoveryLimit package => Sys2Proof.Machine.execRecoveryLimit package s
  | .transactionResponse txn => Sys2Proof.Machine.execTransactionResponse txn s
  | .invalidationAcknowledgement home peer line => Sys2Proof.Machine.execInvalidationAcknowledgement home peer line s
  | .teamRestoreComplete team => Sys2Proof.Machine.execTeamRestoreComplete team s
  | .rollbackComplete team => Sys2Proof.Machine.execRollbackComplete team s
  | .dup => Sys2Proof.Machine.execDup s
  | .drop => Sys2Proof.Machine.execDrop s
  | .swap => Sys2Proof.Machine.execSwap s
  | .over => Sys2Proof.Machine.execOver s
  | .add => Sys2Proof.Machine.execAdd s
  | .sub => Sys2Proof.Machine.execSub s
  | .mul => Sys2Proof.Machine.execMul s
  | .engAnd => Sys2Proof.Machine.execEngAnd s
  | .engOr => Sys2Proof.Machine.execEngOr s
  | .engXor => Sys2Proof.Machine.execEngXor s
  | .engShl => Sys2Proof.Machine.execEngShl s
  | .engShr => Sys2Proof.Machine.execEngShr s
  | .jmp => Sys2Proof.Machine.execJmp s
  | .jz => Sys2Proof.Machine.execJz s
  | .halt => Sys2Proof.Machine.execHalt s
  | .waitc => Sys2Proof.Machine.execWaitc s
  | .sigc => Sys2Proof.Machine.execSigc s
  | .engineIllegalWord => Sys2Proof.Machine.execEngineIllegalWord s
  | .branchIntoLiteral => Sys2Proof.Machine.execBranchIntoLiteral s
  | .refBroadcast => Sys2Proof.Machine.execRefBroadcast s
  | .powerLoss => Sys2Proof.Machine.execPowerLoss s
  | .bridgeFailure => Sys2Proof.Machine.execBridgeFailure s
  | .membershipBeat => Sys2Proof.Machine.execMembershipBeat s
  | .powerOnReset => Sys2Proof.Machine.execPowerOnReset s
  | .doorbell hub queue => Sys2Proof.Machine.execDoorbell hub queue s
  | .peerRead home peer line => Sys2Proof.Machine.execPeerRead home peer line s
  | .readExclusive home peer line => Sys2Proof.Machine.execReadExclusive home peer line s
  | .upgrade home peer line => Sys2Proof.Machine.execUpgrade home peer line s
  | .writeBack home peer line => Sys2Proof.Machine.execWriteBack home peer line s
  | .ioCoherentRead home line => Sys2Proof.Machine.execIoCoherentRead home line s
  | .ioCoherentWrite home line bytes => Sys2Proof.Machine.execIoCoherentWrite home line bytes s
  | .chipletFatalError hub pos => Sys2Proof.Machine.execChipletFatalError hub pos s
  | .ucieLinkFailure hub pos => Sys2Proof.Machine.execUcieLinkFailure hub pos s
  | .engineWriteRefused team cause => Sys2Proof.Machine.execEngineWriteRefused team cause s
  | .correctedError hub => Sys2Proof.Machine.execCorrectedError hub s
  | .uncorrectableError target => Sys2Proof.Machine.execUncorrectableError target s
  | .linkTimeout hub plane => Sys2Proof.Machine.execLinkTimeout hub plane s
  | .planeUp hub plane => Sys2Proof.Machine.execPlaneUp hub plane s
  | .switchTimeout hub plane package => Sys2Proof.Machine.execSwitchTimeout hub plane package s
  | .beatReceived package recovering => Sys2Proof.Machine.execBeatReceived package recovering s
  | .packageRejoin package => Sys2Proof.Machine.execPackageRejoin package s
  | .frameAuthFailure hub plane => Sys2Proof.Machine.execFrameAuthFailure hub plane s
  | .rekeyStart hub plane => Sys2Proof.Machine.execRekeyStart hub plane s
  | .rekeyComplete hub plane => Sys2Proof.Machine.execRekeyComplete hub plane s
  | .portStop hub plane => Sys2Proof.Machine.execPortStop hub plane s
  | .accessTableWrite target index entry => Sys2Proof.Machine.execAccessTableWrite target index entry s
  | .hostAccess window write address data => Sys2Proof.Machine.execHostAccess window write address data s
  | .supplySag hub pos => Sys2Proof.Machine.execSupplySag hub pos s
  | .sagRecovery hub pos => Sys2Proof.Machine.execSagRecovery hub pos s
  | .powerLimitStep watts => Sys2Proof.Machine.execPowerLimitStep watts s
  | .energyStoreDecline hub cap => Sys2Proof.Machine.execEnergyStoreDecline hub cap s

end Sys2Proof.Machine
end

