-- ==== Sys2Proof/Machine/Placed.lean ====
section
/-! DEFINITION. Placing one instruction where the machine fetches next: what a loader does from outside (log 4). -/

namespace Sys2Proof.Machine

/-- The physical address of the GiB that holds the placed code. -/
def placedBase : Nat := 0x40000000

/-- A pointer entry to a table at an address of a hub (R378). -/
def pointerTo (h : HubId) (table : Nat) : Dword :=
  BitVec.ofNat 64 (1 + peerOf h * 2 ^ 14 + table / 4096 * 2 ^ 25)

/-- A 1 GiB leaf of a hub with every right, fetched at one level only (R378, R380): T is clear for the kernel. -/
def placedLeaf (h : HubId) (kernel : Bool) : Dword :=
  BitVec.ofNat 64 (0x2CF + (if kernel then 0 else 0x10) + peerOf h * 2 ^ 14 + placedBase / 4096 * 2 ^ 25)

/-- The cells of a 64-bit word of a hub's memory. -/
def placedWord (h : HubId) (pa : Nat) (v : Dword) : List (Nat × Byte) :=
  cellsFrom (memKey (peerOf h) pa) (bytesOfDword v)

/-- The page tables that map the GiB of an address: levels 4, 3 and a leaf at level 2 (R379). -/
def placedTables (h : HubId) (root : Nat) (va : Nat) (kernel : Bool) : List (Nat × Byte) :=
  placedWord h (root + 8 * (va / 2 ^ 48 % 512)) (pointerTo h (root + 0x1000)) ++
  placedWord h (root + 0x1000 + 8 * (va / 2 ^ 39 % 512)) (pointerTo h (root + 0x2000)) ++
  placedWord h (root + 0x2000 + 8 * (va / 2 ^ 30 % 512)) (placedLeaf h kernel)

/-- Places code bytes for a group's next fetch: its page, and a line of pad words up to its PC. -/
def State.placeCode (s : State) (t : Team) (g : Group) (u : CoreUnit) (p : LanePos) (bytes : List Byte) : State :=
  let va := p.pc.toNat
  let line := memKey (peerOf t.hub) (placedBase + va % 2 ^ 30 / 64 * 64)
  let code := List.replicate (va % 64) 0xFF ++ bytes
  let cells := placedTables t.hub (bits t.ptroot 50 12 * 4096) va g.kernel ++ cellsFrom line code
  let s1 := { s with mem := s.mem.writeCells cells }
  let s2 := s1.modCore u (fun c => { c with
    icache := c.icache.filter (fun l => !(l.asn == t.asn && l.va == lineOf p.pc)), tlb := [] })
  s2.modGroup t.id g.gid (fun g => { g with async := [], fetched := [], byTarget := 0 })

/-- Places an engine word for an engine's next fetch. -/
def Cluster.placeWord (c : Cluster) (k : EngineKind) (w : Half) : Cluster :=
  let e := c.engine k
  let e1 := { e with
    imem := (e.imem ++ List.replicate (e.pc + 1 - e.imem.length) 0).set e.pc w, state := .running, halting := false, took := false }
  { c.setEngine k e1 with frozen := false }

/-- The array team that stands for a launch when no engine is about to issue. -/
def placedTeam (id : Nat) : Team :=
  { Team.boot Flash.factory with id := id }.onCluster { hub := .h0, chiplet := 4, core := 0 }

/-- The event that would have come next, kept for later. -/
def State.displaced (s : State) : State :=
  match s.next with
  | .event i => s.due i
  | _ => s

/-- Places an engine word: on the engine that moves next, else on a new array team. -/
def State.placeEngineWord (s : State) (k : EngineKind) (w : Half) : State :=
  match s.next with
  | .agent (.engine tid k') => s.modTeam tid (fun t => { t with cluster := t.cluster.map (fun c => c.placeWord k' w) })
  | _ =>
    let t := placedTeam s.nextTeam
    { s.displaced with
      teams := s.teams ++ [{ t with cluster := t.cluster.map (fun c => c.placeWord k w) }]
      nextTeam := s.nextTeam + 1, next := .agent (.engine s.nextTeam k) }

/-- Places a main word with its literal words: for the group that moves next, else for the first that can issue. -/
def State.placeMainWord (s : State) (bytes : List Byte) : State :=
  let place := fun (s : State) => match s.issuer with
    | some (t, g, u, p) => s.placeCode t g u p bytes
    | none => s
  match s.issuer with
  | some _ => place s
  | none =>
    match s.teams.findSome? (fun t => (t.groups.find? (fun g => g.issuing.isSome)).map (fun g => Agent.group t.id g.gid)) with
    | some a => place { s.displaced with next := .agent a }
    | none => s

end Sys2Proof.Machine
end

