-- ==== Sys2Proof/Machine/Turn.lean ====
section
/-! DEFINITION. Who moves next (log 1): the agents that can issue, the steps of the hardware that are due, and the
steps that stand open in the state; the passing of time (log 2). -/

namespace Sys2Proof.Machine

/-- Whether a group can take a turn: resident, live and with a ready entry or a cause to take. -/
def Group.canIssue (g : Group) : Bool :=
  !g.retired && !g.saved && decide (g.current ≠ 0) && (!g.readyEntries.isEmpty || !g.takable.isEmpty)

/-- Whether a team's agents may issue. -/
def Team.issues (t : Team) : Bool := decide (t.life = .running)

/-- R260: whether a team's slots are being taken back: its agents issue no more. -/
def State.slotsTaken (s : State) (t : Team) : Bool := s.revocations.any (fun r => r.teams.contains t.id)

/-- R66: whether a YIELD still holds a group. -/
def State.yielding (s : State) (g : Group) : Bool := decide (s.cycle.toNat < g.yieldUntil.toNat)

/-- R251, R255: whether a group is ready: it may issue, its save budget has not run out, and no latency holds it (log 74). A scalar
core that has yielded is not (R66). -/
def State.ready (s : State) (t : Team) (g : Group) : Bool :=
  t.issues && !s.slotsTaken t && g.canIssue && !s.overBudget t g && !Config.freeBusy s.tick t.id g.gid &&
  (match t.cls with
   | .vector => true
   | _ => !s.yielding g)

/-- R255: whether one ready group is chosen before another: the one that issued less recently, on a tie that of the lower slot. -/
def Group.firstBy (a b : Group) : Bool :=
  decide (a.issuedAt < b.issuedAt) || (a.issuedAt == b.issuedAt && decide (a.slot < b.slot))

/-- R66, R255: whether a quadrant's scheduler chooses a ready group: among the quadrant's other ready ones, none that has not yielded
stands while it has, no owner group while it is harvest, and none that issued less recently. -/
def State.chosen (s : State) (t : Team) (g : Group) : Bool :=
  let others := (s.teams.flatMap (fun t' => (t'.groups.filter (fun g' =>
    decide (t'.coreOf g' = t.coreOf g) && g'.slot / 16 == g.slot / 16 && !(t'.id == t.id && g'.gid == g.gid) && s.ready t' g'))))
  let awake := others.filter (fun x => !s.yielding x)
  if s.yielding g && !awake.isEmpty then false
  else
    let rivals := if s.yielding g then others else awake
    !rivals.any (fun x => if x.harvest = g.harvest then x.firstBy g else g.harvest)

/-- The groups and engines that can take a turn. -/
def State.agents (s : State) : List Turn :=
  (s.teams.filter (fun t => t.issues && !s.slotsTaken t)).flatMap (fun t =>
    ((t.groups.filter (fun g => s.ready t g && s.chosen t g)).map (fun g => Turn.agent (.group t.id g.gid))) ++
    (match t.cluster with
     | none => []
     | some c => if c.frozen then [] else
        ([EngineKind.access, .array, .drain, .kiln].filter (fun k => decide ((c.engine k).state = .running) && !(c.engine k).halting)).map
          (fun k => Turn.agent (.engine t.id k))))

/-- A choice from a list by a free number; a list of one leaves no choice. -/
def choose {α : Type} (xs : List α) (n : Nat) : Option α :=
  match xs with
  | [] => none
  | [x] => some x
  | xs => xs[n % xs.length]?

/-- R179, R256: the groups whose waits may be over, and those that may read their words again. -/
def State.openWakes (s : State) : List Instr :=
  (s.teams.filter (fun t => t.issues && !s.slotsTaken t)).flatMap (fun t =>
    ((t.groups.filter (fun g => g.waits.any EntryWait.holds && !g.retired && !g.saved && !s.overBudget t g)).map
      (fun g => Instr.entryWake t.id g.gid)) ++
    ((t.groups.filter (fun g => g.waits.any EntryWait.rereads && !g.retired && !g.saved)).map
      (fun g => Instr.waiteRecheck t.id g.gid)))

/-- R133: the reservations that are over. -/
def State.openExpiries (s : State) : List Instr :=
  [HubId.h0, .h1].flatMap (fun h => (s.hub h).reservations.zipIdx.filterMap (fun r =>
    if (s.cycle - r.1.cycle).toNat < 4096 then none else some (Instr.reservationExpiry h r.2)))

/-- Every step of the hardware that stands open in the state. -/
def State.openSteps (s : State) : List Instr :=
  s.openWakes ++ s.openExpiries ++ s.openDrains ++ s.openFills ++ s.openCopies ++ s.openEngines ++ s.openSlots ++
  s.openHeads ++ s.openPlacements ++ s.openRevocations ++ s.openSaves ++ s.openPatrol ++ s.openNotes ++ s.openPersists ++
  s.openLeases ++ s.openRequests ++ s.openEvents ++ s.openFabric

/-- Everything that may come next: agents, steps due, steps open, and the first input. A package without power takes
nothing but the input that restores it (R440). -/
def State.candidates (s : State) : List Turn :=
  if s.powered then
    s.agents ++ (s.agenda.eraseDups.map Turn.event) ++ (s.openSteps.map Turn.event) ++ (s.inputs.head?.map Turn.event).toList
  else if s.inputs.contains .powerOnReset then [.event .powerOnReset]
  else []

/-- The chosen turn leaves the agenda or the inputs; what arrived while there was no power is lost. -/
def State.take (s : State) (t : Turn) : State :=
  match t with
  | .event i =>
    if !s.powered then { s with next := t, inputs := (s.inputs.dropWhile (fun x => decide (x ≠ .powerOnReset))).tail }
    else if s.agenda.contains i then { s with next := t, agenda := s.agenda.erase i }
    else if s.inputs.head? = some i then { s with next := t, inputs := s.inputs.tail }
    else { s with next := t }
  | _ => { s with next := t }

/-- Chooses who moves next (log 1). -/
def State.schedule (s : State) : State :=
  match choose s.candidates (Config.freeChoice s.tick) with
  | some t => s.take t
  | none => { s with next := .idle }

/-- Time passes with a step (log 2), and with it the counters of R408 and R425; lines leave the timestamp stores (R342), and the
commits and completions that have become possible are made (R217, R401). Without power neither CYCLE nor the timebase counts (R445). -/
def State.pass (s : State) : State :=
  let cycles := if s.powered then 1 + Config.elapsedCycles s.tick else 0
  let ticks := if s.powered then BitVec.ofNat 64 (Config.elapsedTicks s.tick) else 0
  let s1 := (s.patrol cycles).pauseTimers ticks
  let gone := fun (line : Nat) => Config.freeReplaced s.tick (line + 1)
  let s2 := ((s1.modHub .h0 (fun h => h.evictStamps gone)).modHub .h1 (fun h => h.evictStamps gone)).settleCommits.settleRetiring
  { s2 with tick := s.tick + 1, cycle := s.cycle + BitVec.ofNat 64 cycles, tbase := s.tbase + ticks }

/-- What follows every step: time passes and the next turn is chosen. -/
def State.afterStep (s : State) : State := s.pass.schedule

end Sys2Proof.Machine
end

