-- ==== Sys2Proof/Machine/Step.lean ====
section
/-! DEFINITION. One step of the machine: the turn that is next, then the passing of time and the choice of the turn
after it; and the placing of an instruction where the machine fetches next. -/

namespace Sys2Proof.Machine

/-- What follows the execution of an instruction. -/
def finish : Host.Outcome State Fault Refusal → Host.Outcome State Fault Refusal
  | .next s => .next s.afterStep
  | .fault r => .fault r
  | .refused r => .refused r

/-- The turn of an agent, once its fetch has answered. -/
def runFetched : Fetched → Host.Outcome State Fault Refusal
  | .instr s i => finish (exec i s)
  | .taken s => .next s.afterStep
  | .missing => .fault .agentMissing

/-- One step. -/
def step (s : State) : Host.Outcome State Fault Refusal :=
  match s.next with
  | .idle => .next s.afterStep
  | .event i => finish (exec i s)
  | .agent (.group tid gid) => runFetched (s.fetchGroup tid gid)
  | .agent (.engine tid k) => runFetched (s.fetchEngine tid k)

/-- The state with an instruction's bits placed where step fetches next: a 16-bit word for an engine, a longer one for
the group that issues, followed by literal words of zeros (log 4). -/
def State.withFetchWord (s : State) (nbits w : Nat) : State :=
  if nbits ≤ 16 then
    match decodeTableWord nbits w with
    | some i => s.placeEngineWord (engineFor i) (BitVec.ofNat 16 w)
    | none => s.placeEngineWord .access (BitVec.ofNat 16 w)
  else s.placeMainWord (toBytes 16 (w % 2 ^ nbits))

end Sys2Proof.Machine
end

