-- ==== Sys2Proof/Safety.lean ====
section
/-! DEFINITION. What counts as a safe run, in the terms claims use: the invariant of the memories and a run that no
fault and no refusal ends. -/

namespace Sys2Proof

/-- The memories of the package are in canonical form: the coherent memory, the durable tier, and the poison of both. -/
def Machine.State.memoryOk (s : Machine.State) : Bool :=
  s.mem.wf && Machine.Memory.wf s.memPoison && s.tier.wf && Machine.Memory.wf s.tierPoison

/-- A step that ends in a next state. -/
def Machine.State.runs (s : Machine.State) : Prop := ∃ t, Machine.step s = .next t

/-- The states a machine passes from a state on, one step after the other. -/
inductive Machine.Reaches : Machine.State → Machine.State → Prop where
  | here (s : Machine.State) : Machine.Reaches s s
  | next (s t u : Machine.State) : Machine.Reaches s t → Machine.step t = .next u → Machine.Reaches s u

/-- A safe run: every state it reaches keeps the memories canonical and steps on. -/
def Machine.State.safe (s : Machine.State) : Prop := ∀ t, Machine.Reaches s t → t.memoryOk = true ∧ t.runs

namespace Machine

/-! ## How a main word issues and completes -/

/-- A main word issues in context c: a group is the agent that moves, the word passes the decode checks (R24), names no held
register (R189), reads no register that mail has released and no instruction has read, and is no memory instruction while another
entry's PERSIST, SAVEV or RESTV still completes (R207). As between steps, nothing stands asked of other packages (log 83). -/
def Issues (g : Sig) (w : MainWord) (s : State) (c : Ctx) : Prop :=
  s.ctx w = some c ∧ g.check c w = none ∧ c.group.held ((g.vregs w).1 ++ (g.vregs w).2) = none ∧
  c.group.mailboxes.any (fun m => m.delivered && (g.vregs w).1.contains m.reg) = false ∧
  (memoryInstruction g.op && c.group.completingAt.any (fun p => decide (p ≠ c.pos))) = false ∧ s.asked = []

/-- The instruction completes with the effects of s1, and every live lane of its entry goes on behind it (R57). The answers of other
packages that it was given are used up (log 83). -/
def State.goesOn (s1 : State) (c : Ctx) (w : MainWord) : Host.Outcome State Fault Refusal :=
  .next (s1.advance c (fallThrough c w) 0 none).answersUsed

/-- The instruction traps before any effect: its group takes cause t for the whole entry (R364). -/
def State.trapsWith (s : State) (c : Ctx) (t : TrapInfo) : Host.Outcome State Fault Refusal :=
  .next (s.raiseTrap c c.entry t).answersUsed

/-- The instruction waits, with the effects of s1, as a wait of R207. -/
def State.waitsFor (s : State) (s1 : State) (c : Ctx) (w : MainWord) (k : WaitKind) : Host.Outcome State Fault Refusal :=
  .next (settle s c w (.wait s1 k)).answersUsed

/-- The v registers that a destination code names at a width (R8). -/
def destRegs (code : Byte) (width : Nat) : List Nat :=
  if isV code then (List.range (max 1 (width / 32))).map (fun i => code.toNat + i) else []

/-- A group differs from another at most in the registers that results go to. -/
def SameButResults (g g1 : Group) : Prop :=
  g1 = { g with regs := { g.regs with vregs := g1.regs.vregs, sregs := g1.regs.sregs }, ts := g1.ts }

/-- A lane of a v register, or of an even pair at 64 bits, holds a value (R8). -/
def HoldsValue (g : GroupRegs) (n width l : Nat) (x : Dword) : Prop :=
  (g.v n).lane l = loWord x ∧ (width = 64 → (g.v (n + 1)).lane l = hiWord x)

/-- A lane of a v register, or of both of a pair, has a poison bit (R42). -/
def HoldsPoison (g : GroupRegs) (n width l : Nat) (p : Bool) : Prop :=
  laneBit (g.v n).poison l = p ∧ (width = 64 → laneBit (g.v (n + 1)).poison l = p)

/-- A result goes to the destination that a code names (R8, R9, R41, R42): in vector form each active lane's value and
poison bit, every other lane of a general register unchanged; in scalar form the value of the lowest active lane, with poison
where it or a guard bit is poisoned; nowhere where the code is zero. No other register and nothing else of the group
changes. -/
def Wrote (c : Ctx) (g g1 : Group) (scalar : Bool) (code : Byte) (width : Nat) (val : Nat → Dword) (poison : Nat → Bool) :
    Prop :=
  SameButResults g g1 ∧
  (∀ n, n ∉ destRegs code width → g1.regs.v n = g.regs.v n) ∧
  (∀ n, (scalar && isS code && n == code.toNat - 0x80) = false → g1.regs.s n = g.regs.s n) ∧
  (∀ n, (scalar && isTs code && n == code.toNat - 0xE8) = false → g1.ts[n]? = g.ts[n]?) ∧
  (isV code = true → ∀ l, l < 64 →
    (laneBit c.active l = true → HoldsValue g1.regs code.toNat width l (val l) ∧
      HoldsPoison g1.regs code.toNat width l (poison l || laneBit c.guardPoison l)) ∧
    (laneBit c.active l = false → ∀ n ∈ destRegs code width, laneBit (g1.regs.v n).poison l = laneBit (g.regs.v n).poison l ∧
      ((g.regs.v n).shape = .general → (g1.regs.v n).lane l = (g.regs.v n).lane l))) ∧
  (scalar = true → isS code = true → code.toNat - 0x80 < g.regs.sregs.length →
    g1.regs.s (code.toNat - 0x80) = { value := val (lowestLane c.active),
                                      poison := poison (lowestLane c.active) || decide (c.guardPoison ≠ 0) }) ∧
  (scalar = true → isTs code = true → code.toNat - 0xE8 < g.ts.length →
    g1.ts[code.toNat - 0xE8]? = some (val (lowestLane c.active)))

/-- R41: the shape of a result with its base and stride where a row of the table makes it affine. -/
def writtenShape (c : Ctx) (srcs : List Opnd) (affine : Option (Word × Word)) : Shape :=
  if c.partialWrite then .general
  else if srcs.all (fun o => decide (o.shape = .uniform)) then .uniform
  else match affine with
    | some (_, t) => if t = 0 then .uniform else .affine
    | none => .general

/-- R41: the destination's declaration admits a shape; one that names no v register admits every shape. -/
abbrev Fits (c : Ctx) (scalar : Bool) (code : Byte) (width : Nat) (result : Shape) : Prop :=
  scalar = true ∨ ∀ n ∈ destRegs code width, result.code ≤ (c.group.regs.v n).shape.code

/-- An instruction completes with one result (R41, R42): each active lane's value goes to field D, and without an active
lane nothing is written. -/
def DeliversTo (i : Instr) (g : Sig) (w : MainWord) (s : State) (c : Ctx) (width : Nat) (val : Nat → Dword)
    (poison : Nat → Bool) : Prop :=
  (c.active = 0 → exec i s = s.goesOn c w) ∧
  (c.active ≠ 0 → ∃ g1, exec i s = (c.put s g1).goesOn c w ∧
    Wrote c c.group g1 (g.scalarForm c.vector w) w.d width val poison)

end Machine

end Sys2Proof
end

