-- ==== Sys2Proof/WellFormed.lean ====
section
/-! DEFINITION. Well-formed instructions: those whose fields an encoding, or the hardware's numbering, can hold. What
the hardware checks when an instruction issues (R24) is the machine's part. -/

namespace Sys2Proof

/-- R54, R126, R183, R187, R192: M holds the value that names this instruction of its opcode. -/
def mIs (w : MainWord) (k : Nat) : Bool := w.m.toNat == k

/-- R186: M names one of the three register images; 3 is the state image. -/
def imageFits (w : MainWord) : Bool := decide (w.m.toNat < 3)

/-- R189, R191: bit 0 of M is the form that enables. -/
def mEven (w : MainWord) : Bool := w.m.toNat % 2 == 0

/-- R27: token queue 0 is illegal in the token class. -/
def queueFits (q : BitVec 4) : Bool := q != 0

/-- R433: ring positions 0 to 8 are fitted. -/
def posFits (pos : Nat) : Bool := decide (pos < Config.ringPositions)

/-- R418: eight planes. -/
def planeFits (plane : Nat) : Bool := decide (plane < 8)

/-- R235: 64 queues of a hub. -/
def hubQueueFits (queue : Nat) : Bool := decide (queue < 64)

/-- R378: package numbers have ten bits. -/
def packageFits (package : Nat) : Bool := decide (package < 1024)

/-- Whether an instruction is well formed. -/
def Instr.wf (i : Instr) : Bool :=
  match i with
  | .iadd _ => true
  | .isub _ => true
  | .imul _ => true
  | .imulh _ => true
  | .imad _ => true
  | .idiv _ => true
  | .irem _ => true
  | .imin _ => true
  | .imax _ => true
  | .iabs _ => true
  | .and _ => true
  | .or _ => true
  | .xor _ => true
  | .andn _ => true
  | .bmix _ => true
  | .shl _ => true
  | .shr _ => true
  | .sar _ => true
  | .rotl _ => true
  | .popc _ => true
  | .clz _ => true
  | .ctz _ => true
  | .brev _ => true
  | .bfx _ => true
  | .bfi _ => true
  | .icmp _ => true
  | .plog _ => true
  | .sel _ => true
  | .mov _ => true
  | .pmovFromPred w => mIs w 0
  | .pmovToPred w => mIs w 1
  | .pmovGet w => mIs w 2
  | .pmovSet w => mIs w 3
  | .lea _ => true
  | .fadd _ => true
  | .fsub _ => true
  | .fmul _ => true
  | .ffma _ => true
  | .fmin _ => true
  | .fmax _ => true
  | .fabs _ => true
  | .fneg _ => true
  | .fdiv _ => true
  | .fsqrt _ => true
  | .fcmp _ => true
  | .fclass _ => true
  | .fdot2 _ => true
  | .fdot4 _ => true
  | .cvt _ => true
  | .cvts _ => true
  | .frnd _ => true
  | .frcp _ => true
  | .frsq _ => true
  | .fexp2 _ => true
  | .flog2 _ => true
  | .fsin _ => true
  | .fcos _ => true
  | .ftanh _ => true
  | .qscl _ => true
  | .qpack _ => true
  | .qunpk _ => true
  | .shape _ => true
  | .prdx _ => true
  | .ballot _ => true
  | .lxch _ => true
  | .lxop _ => true
  | .scan _ => true
  | .part _ => true
  | .reord _ => true
  | .tmma _ => true
  | .tzero _ => true
  | .tld _ => true
  | .tdrn _ => true
  | .tredr _ => true
  | .tredc _ => true
  | .tbcr _ => true
  | .tbcc _ => true
  | .trot _ => true
  | .tew _ => true
  | .tget _ => true
  | .tset _ => true
  | .ld _ => true
  | .st _ => true
  | .pref _ => true
  | .wb _ => true
  | .inv _ => true
  | .iinv _ => true
  | .ifence _ => true
  | .lds _ => true
  | .sts _ => true
  | .ldk _ => true
  | .cpy _ => true
  | .cpyw _ => true
  | .publDecl w => mIs w 0
  | .publSwap w => mIs w 1
  | .publFree w => mIs w 2
  | .atom _ => true
  | .cas _ => true
  | .ldr _ => true
  | .stc _ => true
  | .fence _ => true
  | .persist _ => true
  | .bari _ => true
  | .bara _ => true
  | .barw _ => true
  | .bars _ => true
  | .barq _ => true
  | .nop _ => true
  | .bra _ => true
  | .brx _ => true
  | .call _ => true
  | .callx _ => true
  | .ret _ => true
  | .exit _ => true
  | .yield _ => true
  | .loop _ => true
  | .trap _ => true
  | .sysc _ => true
  | .eret _ => true
  | .mfcr _ => true
  | .mtcr _ => true
  | .tlbi _ => true
  | .waite _ => true
  | .lnch _ => true
  | .engsGo w => mIs w 0
  | .engsSt w => mIs w 1
  | .engsCmd w => mIs w 2
  | .engsSig w => mIs w 3
  | .engr _ => true
  | .savev w => imageFits w
  | .savevState w => mIs w 3
  | .restv w => imageFits w
  | .restvState w => mIs w 3
  | .name _ => true
  | .holdArm w => mEven w
  | .holdOff w => !mEven w
  | .rstv _ => true
  | .harvOn w => mEven w
  | .harvOff w => !mEven w
  | .hchkLost w => mIs w 0
  | .hchkLostc w => mIs w 1
  | .hchkRevs w => mIs w 2
  | .push _ => true
  | .ext _ => true
  | .getl _ => true
  | .setl _ => true
  | .engLoop _ => true
  | .endl _ => true
  | .tkpop q => queueFits q
  | .tkpsh q => queueFits q
  | .tktst q => queueFits q
  | .cpyin _ _ => true
  | .cpyout _ _ => true
  | .gath _ _ => true
  | .scat _ _ => true
  | .mdfil _ _ => true
  | .wpre _ _ => true
  | .wswp _ _ => true
  | .strm _ _ => true
  | .strms _ _ => true
  | .drn _ _ => true
  | .dclr _ _ => true
  | .kscl _ _ => true
  | .kpack _ _ => true
  | .kunpk _ _ => true
  | .agset _ => true
  | .agstr _ => true
  | .agwrap _ => true
  | .agrd _ => true
  | .codeLineFill _ _ _ => true
  | .groupSlotFree _ _ => true
  | .completionRecordFault _ _ _ _ => true
  | .bundleValidation _ queue => hubQueueFits queue
  | .dependenceSignalRead _ queue _ => hubQueueFits queue
  | .placementConsideration _ => true
  | .coreReservation _ => true
  | .rangeClearDone _ => true
  | .withdrawal _ => true
  | .preemption _ _ => true
  | .saveBudgetExpiry _ _ => true
  | .teamSaveComplete _ => true
  | .revocationComplete _ => true
  | .harvestRevoke _ _ => true
  | .entryWake _ _ => true
  | .waiteRecheck _ _ => true
  | .reservationExpiry _ _ => true
  | .storeCombiningDrain _ _ => true
  | .plainRead _ => true
  | .leasedRead _ => true
  | .homeWrite _ => true
  | .refUpdate _ _ => true
  | .guardAnswer _ => true
  | .leaseFenceTimeout _ => true
  | .leaseCut _ => true
  | .releasePublished _ _ => true
  | .persistBufferDrain _ _ => true
  | .pageRequest _ => true
  | .prqcResume _ _ => true
  | .prqcDecline _ _ => true
  | .cres _ => true
  | .bankFormatWrite _ _ _ => true
  | .chctlIso _ pos => posFits pos
  | .chctlRen _ pos => posFits pos
  | .registerWrite _ _ _ => true
  | .enumerationComplete _ pos _ => posFits pos
  | .eventDelivery _ => true
  | .copyLineLanded _ _ => true
  | .copyCompletion _ _ => true
  | .copyTranslationFault _ _ => true
  | .copyWriteFailure _ _ => true
  | .engineOpStart _ _ => true
  | .engineOpFinish _ _ => true
  | .engineTranslationFault _ => true
  | .enginePoisonAtStore _ => true
  | .engineStop _ _ => true
  | .engineFaultReport _ => true
  | .clusterFreezeDone _ => true
  | .groupPatrolExpiry _ _ => true
  | .clusterPatrolExpiry _ => true
  | .queuePatrolExpiry _ queue => hubQueueFits queue
  | .mailArrival _ => true
  | .mailForward _ => true
  | .mailAck _ => true
  | .mailUndeliverable _ _ => true
  | .planeRemap _ plane => planeFits plane
  | .transactionTimeout _ => true
  | .membershipTimeout package => packageFits package
  | .recoveryLimit package => packageFits package
  | .transactionResponse _ => true
  | .invalidationAcknowledgement _ _ _ => true
  | .teamRestoreComplete _ => true
  | .rollbackComplete _ => true
  | .dup => true
  | .drop => true
  | .swap => true
  | .over => true
  | .add => true
  | .sub => true
  | .mul => true
  | .engAnd => true
  | .engOr => true
  | .engXor => true
  | .engShl => true
  | .engShr => true
  | .jmp => true
  | .jz => true
  | .halt => true
  | .waitc => true
  | .sigc => true
  | .engineIllegalWord => true
  | .branchIntoLiteral => true
  | .refBroadcast => true
  | .powerLoss => true
  | .bridgeFailure => true
  | .membershipBeat => true
  | .powerOnReset => true
  | .doorbell _ queue => hubQueueFits queue
  | .peerRead _ _ _ => true
  | .readExclusive _ _ _ => true
  | .upgrade _ _ _ => true
  | .writeBack _ _ _ => true
  | .ioCoherentRead _ _ => true
  | .ioCoherentWrite _ _ _ => true
  | .chipletFatalError _ pos => posFits pos
  | .ucieLinkFailure _ pos => posFits pos
  | .engineWriteRefused _ _ => true
  | .correctedError _ => true
  | .uncorrectableError _ => true
  | .linkTimeout _ plane => planeFits plane
  | .planeUp _ plane => planeFits plane
  | .switchTimeout _ plane package => planeFits plane && packageFits package
  | .beatReceived package _ => packageFits package
  | .packageRejoin package => packageFits package
  | .frameAuthFailure _ plane => planeFits plane
  | .rekeyStart _ plane => planeFits plane
  | .rekeyComplete _ plane => planeFits plane
  | .portStop _ plane => planeFits plane
  | .accessTableWrite _ _ _ => true
  | .hostAccess _ _ _ _ => true
  | .supplySag _ pos => posFits pos
  | .sagRecovery _ pos => posFits pos
  | .powerLimitStep _ => true
  | .energyStoreDecline _ _ => true

end Sys2Proof
end

