-- ==== Sys2Proof/Certificates/Slice0/Obligations.lean ====
section
/-! DEFINITION. The statements about the model, for the provers. Each says which rules of the spec it formalises. -/

open Sys2Proof Sys2Proof.Machine

/-! ## Integer instructions -/

namespace Sys2Proof.Machine

/-- What the rules give an integer instruction: its constructor, what the decode checks know of it, the affine row of R41 it
has, and the bits written for the operands' bits. -/
structure IntRow where
  make : MainWord → Instr
  sig : MainWord → Sig
  affine : Opnd → Opnd → Option (Word × Word) := never
  value : OTy → Dword → Dword → Dword

/-- The bits of a function of the bit number, below a width. -/
def bitsOf (width : Nat) (f : Nat → Bool) : Dword :=
  (List.range width).foldl (fun x i => if f i then x ||| BitVec.twoPow 64 i else x) 0

/-- R41, R43, R44, R45, R47, R49: the two-source instructions. -/
def intRows : List IntRow := [
  { make := .iadd, sig := fun w => intSig 0x001 w true false, affine := affineSum false, value := fun _ a b => a + b },
  { make := .isub, sig := fun w => intSig 0x002 w true false, affine := affineSum true, value := fun _ a b => a - b },
  { make := .imul, sig := fun w => intSig 0x003 w true false, affine := affineProduct, value := fun _ a b => a * b },
  { make := .imulh, sig := fun w => intSig 0x004 w true false,
    value := fun ty a b => BitVec.ofInt 64 (ty.toInt a * ty.toInt b / (2 ^ ty.width : Nat)) },
  { make := .idiv, sig := fun w => intSig 0x006 w true false,
    value := fun ty a b => if ty.toInt b = 0 then -1 else BitVec.ofInt 64 ((ty.toInt a).tdiv (ty.toInt b)) },
  { make := .irem, sig := fun w => intSig 0x007 w true false,
    value := fun ty a b => if ty.toInt b = 0 then a else BitVec.ofInt 64 ((ty.toInt a).tmod (ty.toInt b)) },
  { make := .imin, sig := fun w => intSig 0x008 w true false, value := fun ty a b => if ty.toInt b < ty.toInt a then b else a },
  { make := .imax, sig := fun w => intSig 0x009 w true false, value := fun ty a b => if ty.toInt a < ty.toInt b then b else a },
  { make := .and, sig := fun w => intSig 0x010 w true false, value := fun _ a b => a &&& b },
  { make := .or, sig := fun w => intSig 0x011 w true false, value := fun _ a b => a ||| b },
  { make := .xor, sig := fun w => intSig 0x012 w true false, value := fun _ a b => a ^^^ b },
  { make := .andn, sig := fun w => intSig 0x013 w true false, value := fun _ a b => a &&& ~~~b },
  { make := .shl, sig := fun w => intSig 0x015 w true false, affine := affineShift,
    value := fun ty a b => if b.toNat < ty.width then a <<< b.toNat else 0 },
  { make := .shr, sig := fun w => intSig 0x016 w true false,
    value := fun ty a b => if b.toNat < ty.width then a >>> b.toNat else 0 },
  { make := .sar, sig := fun w => intSig 0x017 w true false,
    value := fun ty a b => if b.toNat < ty.width then BitVec.ofInt 64 (signed ty.width a.toNat / (2 ^ b.toNat : Nat))
      else if signed ty.width a.toNat < 0 then -1 else 0 },
  { make := .rotl, sig := fun w => intSig 0x018 w true false,
    value := fun ty a b => a <<< (b.toNat % ty.width) ||| a >>> (ty.width - b.toNat % ty.width) },
  { make := .bfx, sig := fun w => { intSig 0x01D w true false with b := .s tN32 }, value := fun ty a b => if bits b 14 8 = 0 then 0
      else if ty.isSigned then BitVec.ofInt 64 (signed (bits b 14 8) (ty.toInt a / (2 ^ bits b 6 0 : Nat) % (2 ^ bits b 14 8 : Nat)).toNat)
      else BitVec.ofInt 64 (ty.toInt a / (2 ^ bits b 6 0 : Nat) % (2 ^ bits b 14 8 : Nat)) }]

/-- R43, R48: the one-source instructions. -/
def intOneRows : List IntRow := [
  { make := .iabs, sig := fun w => { intSig 0x00A w false false with fieldsOk := w.m.toNat % 2 == 0 },
    value := fun ty a _ => BitVec.ofNat 64 (ty.toInt a).natAbs },
  { make := .popc, sig := fun w => intSig 0x019 w false false,
    value := fun ty a _ => BitVec.ofNat 64 ((List.range ty.width).countP (fun i => a.getLsbD i)) },
  { make := .clz, sig := fun w => intSig 0x01A w false false,
    value := fun ty a _ => BitVec.ofNat 64 ((List.range ty.width).reverse.takeWhile (fun i => !a.getLsbD i)).length },
  { make := .ctz, sig := fun w => intSig 0x01B w false false,
    value := fun ty a _ => BitVec.ofNat 64 ((List.range ty.width).takeWhile (fun i => !a.getLsbD i)).length },
  { make := .brev, sig := fun w => intSig 0x01C w false false,
    value := fun ty a _ => bitsOf ty.width (fun i => a.getLsbD (ty.width - 1 - i)) }]

/-- R43, R46, R49: the three-source instructions, with the bits written. -/
structure IntThreeRow where
  make : MainWord → Instr
  sig : MainWord → Sig
  value : MainWord → Dword → Dword → Dword → Dword

/-- R43, R46, R49: the three-source instructions. -/
def intThreeRows : List IntThreeRow := [
  { make := .imad, sig := fun w => intSig 0x005 w true true, value := fun _ a b k => a * b + k },
  { make := .bmix, sig := fun w => { intSig 0x014 w true true with xMask := 0x0FF },
    value := fun w a b k => bitsOf 64 (fun i =>
      w.x.getLsbD ((if a.getLsbD i then 1 else 0) + (if b.getLsbD i then 2 else 0) + (if k.getLsbD i then 4 else 0))) },
  { make := .bfi, sig := fun w => { intSig 0x01E w true true with b := .s tN32 },
    value := fun _ a b k => bitsOf 64 (fun i =>
      if bits b 6 0 ≤ i ∧ i < bits b 6 0 + bits b 14 8 then k.getLsbD (i - bits b 6 0) else a.getLsbD i) }]

end Sys2Proof.Machine

/-- R41, R43, R44, R45, R47, R49: a two-source integer instruction writes its value, extended by its type (R8), in every
active lane, with the poison of its operands (R42).
R43, R48: so does a one-source instruction, with the poison of its operand.
R43, R46, R49: so do IMAD, BMIX and BFI. -/
def Obligations.IntegerArithmetic : Prop :=
  (∀ r ∈ intRows, ∀ (w : MainWord) (s : State) (c : Ctx),
     let g := r.sig w
     let a := g.opA c w
     let b := g.opB c w
     Issues g w s c →
     Fits c (g.scalarForm c.vector w) w.d (mTy w).width
       (writtenShape c [a, b] (if (mTy w).width = 32 then r.affine a b else none)) →
     DeliversTo (r.make w) g w s c (mTy w).width (fun l => extendTo (mTy w) (r.value (mTy w) (a.val l) (b.val l)))
       (fun l => a.poison l || b.poison l)) ∧
  (∀ r ∈ intOneRows, ∀ (w : MainWord) (s : State) (c : Ctx),
     let g := r.sig w
     let a := g.opA c w
     Issues g w s c → Fits c (g.scalarForm c.vector w) w.d (mTy w).width (writtenShape c [a] none) →
     DeliversTo (r.make w) g w s c (mTy w).width (fun l => extendTo (mTy w) (r.value (mTy w) (a.val l) 0)) a.poison) ∧
  (∀ r ∈ intThreeRows, ∀ (w : MainWord) (s : State) (c : Ctx),
     let g := r.sig w
     let a := g.opA c w
     let b := g.opB c w
     let k := g.opC c w
     Issues g w s c → Fits c (g.scalarForm c.vector w) w.d (mTy w).width (writtenShape c [a, b, k] none) →
     DeliversTo (r.make w) g w s c (mTy w).width (fun l => extendTo (mTy w) (r.value w (a.val l) (b.val l) (k.val l)))
       (fun l => a.poison l || b.poison l || k.poison l))

/-! ## Predicates, selection and moves -/

namespace Sys2Proof.Machine

/-- A result goes to a predicate in the active lanes (R42, R50); a write to p0 is discarded (R6). Nothing else of the group
changes. -/
def WrotePred (c : Ctx) (g g1 : Group) (pd : Nat) (val poison : Nat → Bool) : Prop :=
  g1 = { g with regs := { g.regs with preds := g1.regs.preds, predPoison := g1.regs.predPoison } } ∧
  (∀ n, n ≠ pd → g1.regs.p n = g.regs.p n ∧ g1.regs.pPoison n = g.regs.pPoison n) ∧
  (pd = 0 → g1 = g) ∧
  (0 < pd → pd ≤ g.regs.preds.length → pd ≤ g.regs.predPoison.length → ∀ l, l < 64 →
    laneBit (g1.regs.p pd) l = (if laneBit c.active l then val l else laneBit (g.regs.p pd) l) ∧
    laneBit (g1.regs.pPoison pd) l =
      (if laneBit c.active l then poison l || laneBit c.guardPoison l else laneBit (g.regs.pPoison pd) l))

/-- R50: the condition of ICMP. -/
def condition (cond : Nat) (a b : Int) : Prop :=
  (cond = 0 ∧ a = b) ∨ (cond = 1 ∧ a ≠ b) ∨ (cond = 2 ∧ a < b) ∨ (cond = 3 ∧ a ≤ b) ∨ (cond = 4 ∧ b < a) ∨ (cond = 5 ∧ b ≤ a)

/-- R50: a comparison's bit combined with that of the predicate in C. -/
def combined (w : MainWord) (t p : Bool) : Bool :=
  if bits w.c 4 3 = 0 then t else if bits w.c 4 3 = 1 then t && p else if bits w.c 4 3 = 2 then t || p else t ^^ p

end Sys2Proof.Machine

/-- R50: ICMP writes the combined comparison, with poison as R42 says. -/
def Obligations.IntegerCompare : Prop :=
  ∀ (w : MainWord) (s : State) (c : Ctx) (t : Nat → Bool),
    let g : Sig := { op := 0x020, form := .perLane, d := .form 0x07, a := .s (mTy w), b := .s (mTy w), c := .form 0xFF,
                     mOk := decide (w.m.toNat < 8), fieldsOk := compareFields w }
    let a := g.opA c w
    let b := g.opB c w
    let pc := bits w.c 7 5
    Issues g w s c →
    (∀ l, t l = true ↔ condition (bits w.c 2 0) ((mTy w).toInt (a.val l)) ((mTy w).toInt (b.val l))) →
    ∃ g1, exec (.icmp w) s = (c.put s g1).goesOn c w ∧
      WrotePred c c.group g1 (bits w.d 2 0) (fun l => combined w (t l) (laneBit (c.group.regs.p pc) l))
        (fun l => a.poison l || b.poison l || (bits w.c 4 3 != 0 && laneBit (c.group.regs.pPoison pc) l))

/-- R52, R53, R55: SEL, MOV and LEA write their value in every active lane. -/
def Obligations.SelectMoveAddress : Prop :=
  ∀ (w : MainWord) (s : State) (c : Ctx),
    (let g : Sig := { op := 0x022, form := .byDest, d := .dstAny (mTy w).width, a := .s (mTy w), b := .s (mTy w),
                      c := .form 0x07, mOk := decide (w.m.toNat < 8) }
     let a := g.opA c w
     let b := g.opB c w
     let p := c.group.regs.p (bits w.c 2 0)
     let same := c.active &&& p = 0 ∨ c.active &&& ~~~p = 0
     Issues g w s c →
     Fits c (g.scalarForm c.vector w) w.d (mTy w).width
       (if c.partialWrite = false ∧ a.shape = .uniform ∧ b.shape = .uniform ∧ same then .uniform else .general) →
     DeliversTo (.sel w) g w s c (mTy w).width (fun l => extendTo (mTy w) (if laneBit p l then a.val l else b.val l))
       (fun l => (if laneBit p l then a.poison l else b.poison l) || laneBit (c.group.regs.pPoison (bits w.c 2 0)) l)) ∧
    (let ty := movTy w.m.toNat
     let g : Sig := { op := 0x023, form := .byDest, d := .dstAny ty.width,
                      a := .src ty (fun code => !(w.m == 8 || w.m == 9) || code != 0xFC), mOk := decide (w.m.toNat < 10),
                      imm := true }
     let a := g.opA c w
     Issues g w s c →
     Fits c (g.scalarForm c.vector w) w.d ty.width
       (writtenShape c [a] (if ty.width = 32 ∧ a.shape = .affine then some (a.base, a.stride) else none)) →
     DeliversTo (.mov w) g w s c ty.width (fun l => extendTo ty (a.val l)) a.poison) ∧
    (let g : Sig := { op := 0x025, form := .byDest, d := .dstAny 64, a := .s tN64, b := .s (mTy w), c := .form 0x07,
                      mOk := decide (w.m.toNat < 4) }
     let a := g.opA c w
     let b := g.opB c w
     Issues g w s c → Fits c (g.scalarForm c.vector w) w.d 64 (writtenShape c [a, b] none) →
     DeliversTo (.lea w) g w s c 64
       (fun l => BitVec.ofInt 64 (a.val l).toNat + BitVec.ofInt 64 ((mTy w).toInt (b.val l) * (2 ^ bits w.c 2 0 : Nat)))
       (fun l => a.poison l || b.poison l))

/-- R51: PLOG writes the truth table's bit for three predicates.
R54: the four forms of PMOV. That a lane mask moved from predicates, and what .get gives, are general results is the model's choice (log
65). -/
def Obligations.PredicateLogicAndMove : Prop :=
  (∀ (w : MainWord) (s : State) (c : Ctx),
     let g : Sig := { op := 0x021, form := .perLane, d := .form 0x07, a := .form 0x07, b := .form 0x07, c := .form 0x07,
                      mOk := w.m == 0, xMask := 0x0FF }
     let p := fun (x : Byte) (l : Nat) => laneBit (c.group.regs.p (bits x 2 0)) l
     let q := fun (x : Byte) (l : Nat) => laneBit (c.group.regs.pPoison (bits x 2 0)) l
     Issues g w s c →
     ∃ g1, exec (.plog w) s = (c.put s g1).goesOn c w ∧
       WrotePred c c.group g1 (bits w.d 2 0)
         (fun l => w.x.getLsbD ((if p w.a l then 4 else 0) + (if p w.b l then 2 else 0) + (if p w.c l then 1 else 0)))
         (fun l => q w.a l || q w.b l || q w.c l)) ∧
  (∀ (w : MainWord) (s : State) (c : Ctx),
     (let g : Sig := { op := 0x024, form := .perLane, d := .dst 32 (pmovDest s.vectorIssuer), a := .form 0x07, mOk := true }
      Issues g w s c → Fits c (g.scalarForm c.vector w) w.d 32 .general →
      DeliversTo (.pmovFromPred w) g w s c 32 (fun l => if laneBit (c.group.regs.p (bits w.a 2 0)) l then 1 else 0)
        (laneBit (c.group.regs.pPoison (bits w.a 2 0)))) ∧
     (let g : Sig := { op := 0x024, form := .perLane, d := .form 0x07, a := .s tN32, mOk := true }
      let a := g.opA c w
      Issues g w s c →
      ∃ g1, exec (.pmovToPred w) s = (c.put s g1).goesOn c w ∧
        WrotePred c c.group g1 (bits w.d 2 0) (fun l => decide (a.val l ≠ 0)) a.poison) ∧
     (let g : Sig := { op := 0x024, form := .perLane, d := .dst 32 (pmovDest s.vectorIssuer), mOk := true }
      Issues g w s c → Fits c (g.scalarForm c.vector w) w.d 32 .general →
      DeliversTo (.pmovGet w) g w s c 32 (fun l => bitsOf 8 (fun n => laneBit (c.group.regs.p n) l))
        (fun l => (List.range 8).any (fun n => laneBit (c.group.regs.pPoison n) l))) ∧
     (let g : Sig := { op := 0x024, form := .perLane, a := .s tN32, mOk := true }
      let a := g.opA c w
      Issues g w s c →
      ∃ g1, exec (.pmovSet w) s = (c.put s g1).goesOn c w ∧
        g1 = { c.group with regs := { c.group.regs with preds := g1.regs.preds, predPoison := g1.regs.predPoison } } ∧
        ∀ n l, 0 < n → n ≤ 7 → n ≤ c.group.regs.preds.length → n ≤ c.group.regs.predPoison.length → l < 64 →
          laneBit (g1.regs.p n) l = (if laneBit c.active l then (a.val l).getLsbD n else laneBit (c.group.regs.p n) l) ∧
          laneBit (g1.regs.pPoison n) l =
            (if laneBit c.active l then a.poison l || laneBit c.guardPoison l else laneBit (c.group.regs.pPoison n) l)))

/-! ## Floating point -/

namespace Sys2Proof.Machine

/-- The flags that lanes raise are set in FPST and stay (R73, R277); an enabled one is a poison event at pc with the register
and kind of a code, told by the lowest lane that meets it, 0 in scalar form (R279, R395). Nothing else of the group changes. -/
def Raised (c : Ctx) (g g0 : Group) (scalar : Bool) (on : Nat → Prop) (raised : Nat → Flags) (reg kind : Nat) : Prop :=
  let en := fpstEnables g.regs.fpst
  ∃ f : Flags, (∀ i, f.getLsbD i = true ↔ ∃ l, l < 64 ∧ on l ∧ (raised l).getLsbD i = true) ∧
    g0 = { g with regs := { g.regs with fpst := g.regs.fpst ||| f.setWidth 64, porig := g0.regs.porig } } ∧
    (f &&& en = 0 → g0.regs.porig = g.regs.porig) ∧
    (f &&& en ≠ 0 → ∃ l0, (scalar = true → l0 = 0) ∧
      (scalar = false → l0 < 64 ∧ on l0 ∧ raised l0 &&& en ≠ 0 ∧ ∀ l, l < l0 → on l → raised l &&& en = 0) ∧
      g0.regs.porig = recordEvent g.regs.porig (floatOrigin (f &&& en)) reg l0 kind c.pos.pc 0)

/-- The active lanes. -/
def Ctx.on (c : Ctx) (l : Nat) : Prop := laneBit c.active l = true

/-- A floating-point instruction completes: each active lane's result goes to D, its exceptions are raised, and an enabled one
poisons its lane (R73, R279). In scalar form the one result is that of the lowest active lane. -/
def DeliversFloat (i : Instr) (g : Sig) (w : MainWord) (s : State) (c : Ctx) (ty : OTy) (poison : Nat → Bool)
    (res : Nat → FRes) : Prop :=
  let scalar := g.scalarForm c.vector w
  let raised := fun l => if scalar then (res (lowestLane c.active)).flags else (res l).flags
  (c.active = 0 → exec i s = s.goesOn c w) ∧
  (c.active ≠ 0 → ∃ g0 g1, exec i s = (c.put s g1).goesOn c w ∧ Raised c c.group g0 scalar c.on raised w.d.toNat (originKind w.d) ∧
    Wrote c g0 g1 scalar w.d ty.width (fun l => extendTo ty (BitVec.ofNat 64 (res l).code))
      (fun l => poison l || decide (raised l &&& fpstEnables c.group.regs.fpst ≠ 0)))

/-- What the rules give a floating-point instruction of one type: its constructor, what the checks know of it, its sources and
each lane's result. -/
structure FloatRow where
  make : MainWord → Instr
  sig : MainWord → Sig
  srcs : Sig → Ctx → MainWord → List Opnd
  ty : MainWord → OTy
  res : MainWord → List Opnd → Nat → FRes

/-- The two operands of a row. -/
def twoSrcs (g : Sig) (c : Ctx) (w : MainWord) : List Opnd := [g.opA c w, g.opB c w]
def oneSrc (g : Sig) (c : Ctx) (w : MainWord) : List Opnd := [g.opA c w]
def threeSrcs (g : Sig) (c : Ctx) (w : MainWord) : List Opnd := [g.opA c w, g.opB c w, g.opC c w]

/-- The poison of some operands in a lane (R42). -/
def poisonOf (os : List Opnd) (l : Nat) : Bool := os.any (fun o => o.poison l)

/-- The bits and the value of an operand in a lane. -/
def laneCode (os : List Opnd) (n l : Nat) : Nat := ((os.getD n (Opnd.const 0)).val l).toNat
def laneVal (f : Fmt) (os : List Opnd) (n l : Nat) : FVal := f.value (laneCode os n l)

/-- R76, R77, R86: arithmetic in the type of M[3:2] with the rounding of M[1:0]; FMIN and FMAX take no rounding. -/
def floatRows : List FloatRow := [
  { make := .fadd, sig := fun w => floatSig 0x080 w true false false, srcs := twoSrcs, ty := fun w => .float (mFmt w),
    res := fun w os l => (mFmt w).add (mRnd w) (laneVal (mFmt w) os 0 l) (laneVal (mFmt w) os 1 l) },
  { make := .fsub, sig := fun w => floatSig 0x081 w true false false, srcs := twoSrcs, ty := fun w => .float (mFmt w),
    res := fun w os l => (mFmt w).add (mRnd w) (laneVal (mFmt w) os 0 l) (laneVal (mFmt w) os 1 l).flip },
  { make := .fmul, sig := fun w => floatSig 0x082 w true false false, srcs := twoSrcs, ty := fun w => .float (mFmt w),
    res := fun w os l => (mFmt w).mul (mRnd w) (laneVal (mFmt w) os 0 l) (laneVal (mFmt w) os 1 l) },
  { make := .ffma, sig := fun w => floatSig 0x083 w true true false, srcs := threeSrcs, ty := fun w => .float (mFmt w),
    res := fun w os l => (mFmt w).fma (mRnd w) (laneVal (mFmt w) os 0 l) (laneVal (mFmt w) os 1 l) (laneVal (mFmt w) os 2 l) },
  { make := .fmin, sig := fun w => floatSig 0x084 w true false true, srcs := twoSrcs, ty := fun w => .float (mFmt w),
    res := fun w os l => (mFmt w).minMax false (laneCode os 0 l) (laneCode os 1 l) },
  { make := .fmax, sig := fun w => floatSig 0x085 w true false true, srcs := twoSrcs, ty := fun w => .float (mFmt w),
    res := fun w os l => (mFmt w).minMax true (laneCode os 0 l) (laneCode os 1 l) },
  { make := .fdiv, sig := fun w => floatSig 0x088 w true false false, srcs := twoSrcs, ty := fun w => .float (mFmt w),
    res := fun w os l => (mFmt w).div (mRnd w) (laneVal (mFmt w) os 0 l) (laneVal (mFmt w) os 1 l) },
  { make := .fsqrt, sig := fun w => floatSig 0x089 w false false false, srcs := oneSrc, ty := fun w => .float (mFmt w),
    res := fun w os l => (mFmt w).sqrt (mRnd w) (laneVal (mFmt w) os 0 l) },
  { make := .frnd, sig := fun w => floatSig 0x102 w false false false, srcs := oneSrc, ty := fun w => .float (mFmt w),
    res := fun w os l => (mFmt w).integral (mRnd w) (laneCode os 0 l) }]

end Sys2Proof.Machine

/-- R73, R76, R77, R86: the arithmetic instructions write, in every active lane, the result of the type with the rounding that M
gives, and raise its exceptions. That an exact zero sum is −0 when rounding down is the model's choice (log 34). -/
def Obligations.FloatArithmetic : Prop :=
  ∀ r ∈ floatRows, ∀ (w : MainWord) (s : State) (c : Ctx),
    let g := r.sig w
    let os := r.srcs g c w
    Issues g w s c → Fits c (g.scalarForm c.vector w) w.d (r.ty w).width (writtenShape c os none) →
    DeliversFloat (r.make w) g w s c (r.ty w) (poisonOf os) (r.res w os)

namespace Sys2Proof.Machine

/-- R81: the packed dot products in f32; FDOT4 of integers is no floating-point row. -/
def dotRows : List FloatRow := [
  { make := .fdot2, sig := fun w => dotSig 0x08C (.float .f32) (decide (w.m.toNat < 2)), srcs := threeSrcs,
    ty := fun _ => .float .f32,
    res := fun w os l =>
      let f := if w.m = 0 then Fmt.f16 else Fmt.bf16
      let term := fun (i : Nat) => mulVal (f.value (laneCode os 0 l / 2 ^ (16 * i) % 2 ^ 16)) (f.value (laneCode os 1 l / 2 ^ (16 * i) % 2 ^ 16))
      dotRes (laneVal .f32 os 2 l) [term 0, term 1] },
  { make := .fdot4, sig := fun w => dotSig 0x08D (.float .f32)
      (decide (bits w.m 1 0 < 3) && decide (bits w.m 3 2 < 3) && (bits w.m 1 0 == 2) == (bits w.m 3 2 == 2)), srcs := threeSrcs,
    ty := fun _ => .float .f32,
    res := fun w os l =>
      let term := fun (i : Nat) => mulVal ((dot4Fmt (bits w.m 1 0)).value (laneCode os 0 l / 2 ^ (8 * i) % 2 ^ 8)) ((dot4Fmt (bits w.m 3 2)).value (laneCode os 1 l / 2 ^ (8 * i) % 2 ^ 8))
      dotRes (laneVal .f32 os 2 l) [term 0, term 1, term 2, term 3] }]

end Sys2Proof.Machine

/-- R81: FDOT2 and FDOT4: c plus the products of the packed elements, with one rounding in f32; FDOT4 of s8 elements adds
integers and raises nothing. -/
def Obligations.DotProducts : Prop :=
  (∀ r ∈ dotRows, ∀ (w : MainWord) (s : State) (c : Ctx),
    let g := r.sig w
    let os := r.srcs g c w
    (r.make w = .fdot4 w → bits w.m 1 0 ≠ 2) →
    Issues g w s c → Fits c (g.scalarForm c.vector w) w.d 32 (writtenShape c os none) →
    DeliversFloat (r.make w) g w s c (.float .f32) (poisonOf os) (r.res w os)) ∧
  (∀ (w : MainWord) (s : State) (c : Ctx),
    let g := dotSig 0x08D (.int 32 true) (decide (bits w.m 1 0 < 3) && decide (bits w.m 3 2 < 3) && (bits w.m 1 0 == 2) == (bits w.m 3 2 == 2))
    let os := threeSrcs g c w
    let prod := fun (l i : Nat) => signed 8 (laneCode os 0 l / 2 ^ (8 * i)) * signed 8 (laneCode os 1 l / 2 ^ (8 * i))
    bits w.m 1 0 = 2 → Issues g w s c → Fits c (g.scalarForm c.vector w) w.d 32 (writtenShape c os none) →
    DeliversTo (.fdot4 w) g w s c 32
      (fun l => extendTo (.int 32 true) (BitVec.ofInt 64 (signed 32 (laneCode os 2 l) + prod l 0 + prod l 1 + prod l 2 + prod l 3)))
      (poisonOf os))

/-- R78, R80: FABS and FNEG clear and invert the sign bit, FCLASS gives the class mask; none raises an exception.
R79, R73: FCMP writes the combined comparison to its predicate and raises the comparison's exceptions; an enabled one
poisons its lane. -/
def Obligations.FloatSignClassCompare : Prop :=
  (∀ (w : MainWord) (s : State) (c : Ctx),
     let f := mFmt w
     let sign := fun (op : BitVec 10) => floatSig op w false false true
     (Issues (sign 0x086) w s c →
       Fits c ((sign 0x086).scalarForm c.vector w) w.d f.width (writtenShape c [(sign 0x086).opA c w] none) →
       DeliversTo (.fabs w) (sign 0x086) w s c f.width
         (fun l => extendTo (.float f) (((sign 0x086).opA c w).val l &&& ~~~BitVec.twoPow 64 (f.ebits + f.mbits)))
         ((sign 0x086).opA c w).poison) ∧
     (Issues (sign 0x087) w s c →
       Fits c ((sign 0x087).scalarForm c.vector w) w.d f.width (writtenShape c [(sign 0x087).opA c w] none) →
       DeliversTo (.fneg w) (sign 0x087) w s c f.width
         (fun l => extendTo (.float f) (((sign 0x087).opA c w).val l ^^^ BitVec.twoPow 64 (f.ebits + f.mbits)))
         ((sign 0x087).opA c w).poison) ∧
     (let g := { sign 0x08B with d := .dstAny 32 }
      Issues g w s c → Fits c (g.scalarForm c.vector w) w.d 32 (writtenShape c [g.opA c w] none) →
       DeliversTo (.fclass w) g w s c 32 (fun l => extendTo tN32 (BitVec.ofNat 64 (f.classMask ((g.opA c w).val l).toNat)))
         (g.opA c w).poison)) ∧
  (∀ (w : MainWord) (s : State) (c : Ctx),
     let f := mFmt w
     let g : Sig := { op := 0x08A, form := .perLane, d := .form 0x07, a := .s (.float f), b := .s (.float f),
                      c := .form 0xFF, mOk := bits w.m 1 0 == 0, fieldsOk := bits w.c 4 3 != 0 || bits w.c 7 5 == 0 }
     let a := g.opA c w
     let b := g.opB c w
     let pc := bits w.c 7 5
     let r := fun l => floatCompare (bits w.c 2 0) (f.value (a.val l).toNat) (f.value (b.val l).toNat)
     Issues g w s c →
     ∃ g0 g1, exec (.fcmp w) s = (c.put s g1).goesOn c w ∧ Raised c c.group g0 false c.on (fun l => (r l).2) (bits w.d 2 0) 2 ∧
       WrotePred c g0 g1 (bits w.d 2 0) (fun l => combined w (r l).1 (laneBit (c.group.regs.p pc) l))
         (fun l => a.poison l || b.poison l || decide ((r l).2 &&& fpstEnables c.group.regs.fpst ≠ 0) ||
           (bits w.c 4 3 != 0 && laneBit (c.group.regs.pPoison pc) l)))

/-- R82 to R85: CVT and CVTS write the converted element, held as its format says, and raise the conversion's exceptions. That a negative
source into e3m5, and a fractional overflow of CVTS, raise NV and NX together is the model's choice (log 64). -/
def Obligations.Conversions : Prop :=
  ∀ (w : MainWord) (s : State) (c : Ctx),
    let dst := cvtFmt (bits w.x 4 0)
    let src := cvtFmt (bits w.x 9 5)
    let ty := if dst.width = 64 then tN64 else .int 32 (match dst with | .int _ b => b | _ => false)
    let held := fun (r : FRes) => { r with code := (extendTo dst.held (BitVec.ofNat 64 r.code)).toNat : FRes }
    (let g := cvtSig 0x100 w false (decide (w.m.toNat < 8))
     let os := oneSrc g c w
     Issues g w s c → Fits c (g.scalarForm c.vector w) w.d ty.width (writtenShape c os none) →
     DeliversFloat (.cvt w) g w s c ty (poisonOf os) (fun l => held (convert dst src (mRnd w) (w.m.getLsbD 2) (laneCode os 0 l)))) ∧
    (let g0 := cvtSig 0x101 w true (w.m == 0 || w.m == 4)
     let g := { g0 with fieldsOk := g0.fieldsOk && !src.isInt && decide (dst.width < src.width) }
     let os := twoSrcs g c w
     Issues g w s c → Fits c (g.scalarForm c.vector w) w.d ty.width (writtenShape c os none) →
     DeliversFloat (.cvts w) g w s c ty (poisonOf os)
       (fun l => held (convertStochastic dst src (w.m.getLsbD 2) (laneCode os 0 l) (laneCode os 1 l % 2 ^ 16))))

namespace Sys2Proof.Machine

/-- R87: the special functions with their opcodes. -/
def specialRows : List ((MainWord → Instr) × BitVec 10 × SpecialFn) := [
  (.frcp, 0x110, .rcp), (.frsq, 0x111, .rsq), (.fexp2, 0x112, .exp2), (.flog2, 0x113, .log2), (.fsin, 0x114, .sin),
  (.fcos, 0x115, .cos), (.ftanh, 0x116, .tanh)]

end Sys2Proof.Machine

/-- R87, R88: a special function writes its value of f32 or f16 in every active lane and raises its exceptions; the value
inside the error bound is free. What FRCP gives where no f32 value lies within its bound is free too (log 14). -/
def Obligations.SpecialFunctions : Prop :=
  ∀ r ∈ specialRows, ∀ (w : MainWord) (s : State) (c : Ctx),
    let ty := OTy.float (if bits w.m 3 2 = 2 then .f16 else .f32)
    let g := { floatSig r.2.1 w false false true with inS := false, mOk := w.m == 0 || w.m == 8, d := .dstAny 32, a := .s ty }
    let os := oneSrc g c w
    Issues g w s c → Fits c (g.scalarForm c.vector w) w.d (mFmt w).width (writtenShape c os none) →
    DeliversFloat (r.1 w) g w s c (.float (mFmt w)) (poisonOf os)
      (fun l => if w.m = 0 then specialF32 r.2.2 (laneCode os 0 l) else specialF16 r.2.2 (laneCode os 0 l))

/-! ## Cross-lane instructions -/

namespace Sys2Proof.Machine

/-- R97: the lane that a lane exchange reads: in a segment of 2^C lanes, the lane numbered n, the lane n below or above, or
the one whose place differs in the bits of n; wrapping stays in the segment, and otherwise a place outside it reads
nothing. -/
def exchangeLane (w : MainWord) (b : Opnd) (l : Nat) : Option Nat :=
  let width := 2 ^ bits w.c 2 0
  let n : Int := ((b.val l).toNat % 64 % width : Nat)
  let i : Int := (l % width : Nat)
  let j : Int := if bits w.m 1 0 = 0 then n else if bits w.m 1 0 = 1 then i - n else if bits w.m 1 0 = 2 then i + n
    else ((l % width) ^^^ ((b.val l).toNat % 64 % width) : Nat)
  let k := if w.m.getLsbD 2 then j % width else j
  if 0 ≤ k ∧ k < width then some (l / width * width + k.toNat) else none

/-- R99: what a scan has at a lane: the fold of the operation over the active lanes from the last head at or below it. -/
def scanOver (code : Nat) (excl : Bool) (head : Dword) (a : Opnd) : List Nat → Option Dword → List (Nat × FRes)
  | [], _ => []
  | l :: ls, acc =>
    let acc := if laneBit head l then none else acc
    if excl then
      let before := acc.getD (laneIdentity code)
      let r := laneOp code before (a.val l)
      (l, { code := before.toNat, flags := r.flags }) :: scanOver code excl head a ls (some (BitVec.ofNat 64 r.code))
    else
      let r : FRes := match acc with
        | none => { code := (a.val l).toNat, flags := 0 }
        | some x => laneOp code x (a.val l)
      (l, r) :: scanOver code excl head a ls (some (BitVec.ofNat 64 r.code))

end Sys2Proof.Machine

/-- R94, R97: LXCH gives each active lane the value of the lane it reads, 0 from a lane outside the entry, its own where it
reads none.
R98: LXOP combines each active lane's value with that of the lane it reads; a lane that reads none, or one outside the
entry, keeps its value.
R99: SCAN gives each active lane the fold of the active lanes from its head on, in lane order, with itself or without. -/
def Obligations.LaneExchange : Prop :=
  (∀ (w : MainWord) (s : State) (c : Ctx) (sh : Shape),
     let g := exchangeSig 0x182 w 0x07 true
     let a := g.opA c w
     let b := g.opB c w
     let inside := ∀ l, l < 64 → c.on l → ∀ j, exchangeLane w b l = some j → laneBit c.entry j = true
     Issues g w s c →
     (sh = .uniform ↔ c.partialWrite = false ∧ a.shape = .uniform ∧ inside) → sh ≠ .affine → Fits c false w.d 32 sh →
     DeliversTo (.lxch w) g w s c 32
       (fun l => match exchangeLane w b l with
         | some j => if laneBit c.entry j then a.val j else 0
         | none => a.val l)
       (fun l => (match exchangeLane w b l with
         | some j => laneBit c.entry j && a.poison j
         | none => a.poison l) || b.poison l)) ∧
  (∀ (w : MainWord) (s : State) (c : Ctx),
     let g := exchangeSig 0x183 w 0xF7 (decide (bits w.c 7 4 < 11))
     let a := g.opA c w
     let b := g.opB c w
     let other := fun l => (exchangeLane w b l).bind (fun j => if laneBit c.entry j then some j else none)
     Issues g w s c → Fits c false w.d 32 .general →
     DeliversFloat (.lxop w) g w s c tN32
       (fun l => a.poison l || b.poison l || (match other l with | some j => a.poison j | none => false))
       (fun l => match other l with
         | some j => laneOp (bits w.c 7 4) (a.val l) (a.val j)
         | none => { code := (a.val l).toNat, flags := 0 })) ∧
  (∀ (w : MainWord) (s : State) (c : Ctx),
     let code := bits w.c 7 4
     let g : Sig := { op := 0x184, inS := false, form := .perLane, d := .dst 32 isV, a := .s tN32, c := .form 0xF7,
                      mOk := decide (w.m.toNat < 2), fieldsOk := decide (code < 11) }
     let a := g.opA c w
     let out := scanOver code (w.m.getLsbD 0) (c.group.regs.p (bits w.c 2 0)) a (maskLanes c.active) none
     Issues g w s c → Fits c false w.d 32 .general → c.active ≠ 0 →
     ∃ g0 g1, exec (.scan w) s = (c.put s g1).goesOn c w ∧
       Raised c c.group g0 false c.on (fun l => ((out.find? (fun x => x.1 == l)).map (fun x => x.2.flags)).getD 0) w.d.toNat 0 ∧
       SameButResults g0 g1 ∧ (∀ n, n ≠ w.d.toNat → g1.regs.v n = g0.regs.v n) ∧ g1.regs.sregs = g0.regs.sregs ∧ g1.ts = g0.ts ∧
       (∀ x ∈ out, (g1.regs.v w.d.toNat).lane x.1 = BitVec.ofNat 32 x.2.code) ∧
       ∀ l, l < 64 → ¬c.on l → (g1.regs.v w.d.toNat).lane l = (g0.regs.v w.d.toNat).lane l)

/-- R95: PRDX writes, in every active lane, whether all, any or equal predicate bits of the active lanes are true, or their
parity.
R96: BALLOT writes the mask of the active lanes whose predicate is true, of the active, the entry or the live lanes.
R93: SHAPE gives the declared shape of a v register, its base or its stride. -/
def Obligations.PredicateReduceBallotShape : Prop :=
  ((∀ (w : MainWord) (s : State) (c : Ctx) (t : Bool),
      let g : Sig := { op := 0x180, inS := false, form := .perLane, d := .form 0x07, a := .form 0x07,
                       mOk := decide (w.m.toNat < 4) }
      let p := fun l => laneBit (c.group.regs.p (bits w.a 2 0)) l
      Issues g w s c →
      (t = true ↔ (w.m = 0 ∧ ∀ l, l < 64 → c.on l → p l = true) ∨ (w.m = 1 ∧ ∃ l, l < 64 ∧ c.on l ∧ p l = true) ∨
        (w.m = 2 ∧ ∀ l k, l < 64 → k < 64 → c.on l → c.on k → p l = p k) ∨
        (w.m = 3 ∧ ((List.range 64).countP (fun l => laneBit c.active l && p l)) % 2 = 1)) →
      ∃ g1, exec (.prdx w) s = (c.put s g1).goesOn c w ∧
        WrotePred c c.group g1 (bits w.d 2 0) (fun _ => t)
          (fun _ => decide (c.group.regs.pPoison (bits w.a 2 0) &&& c.active ≠ 0))) ∧
   (∀ (w : MainWord) (s : State) (c : Ctx),
      let g : Sig := { op := 0x181, inS := false, form := .byDest, d := .dstAny 64, a := .form (if w.m = 0 then 0x07 else 0),
                       mOk := decide (w.m.toNat < 4) }
      let p := c.group.regs.p (bits w.a 2 0)
      let mask := if w.m = 0 then c.active &&& p else if w.m = 1 then c.active else if w.m = 2 then c.entry else c.group.regs.live
      Issues g w s c → Fits c (g.scalarForm c.vector w) w.d 64 (if c.partialWrite then .general else .uniform) →
      DeliversTo (.ballot w) g w s c 64 (fun _ => mask)
        (fun _ => w.m == 0 && decide (c.group.regs.pPoison (bits w.a 2 0) &&& c.active ≠ 0)))) ∧
  (∀ (w : MainWord) (s : State) (c : Ctx),
     let g : Sig := { op := 0x123, inS := false, form := .once, d := .dstAny 32, a := .src tN32 isV,
                      mOk := decide (w.m.toNat < 3) }
     let r := c.group.regs.v w.a.toNat
     let scalar := isScalarReg w.d || w.d == 0xE0
     let x : Dword := if w.m = 0 then BitVec.ofNat 64 r.shape.code else if w.m = 1 then (r.lane 0).setWidth 64
       else (if r.shape = .uniform then 0 else r.lane 1 - r.lane 0).setWidth 64
     Issues g w s c → Fits c scalar w.d 32 (if c.partialWrite then .general else .uniform) →
     (c.active = 0 → exec (.shape w) s = s.goesOn c w) ∧
     (c.active ≠ 0 → ∃ g1, exec (.shape w) s = (c.put s g1).goesOn c w ∧
       Wrote c c.group g1 scalar w.d 32 (fun _ => x)
         (fun _ => (w.m != 0 && laneBit r.poison 0) || (w.m == 2 && laneBit r.poison 1))))

/-! ## Quantisation -/

/-- R89 to R92: QSCL, QPACK and QUNPK write, in every active lane, the scale of its block, a word of packed elements and the
unpacked element, with the poison of what they read, and raise the exceptions of their conversions; every such instruction
that issues and whose destination is general completes so. An infinite or NaN band scales by R76, which is the model's choice (log 20). -/
def Obligations.Quantisation : Prop :=
  ∀ (w : MainWord) (s : State) (c : Ctx),
    let k := w.m.toNat
    let n := perWord k
    (let g : Sig := { op := 0x120, inS := false, form := .perLane, d := .dst 32 isV, a := .s (.float .f32), b := bandUse w,
                      mOk := blockFmtOk k, imm := true }
     let a := g.opA c w
     let band := g.opB c w
     let block := fun l => (maskLanes c.active).filter (fun j => decide (j / blockSize k = l / blockSize k))
     Issues g w s c → Fits c false w.d 32 .general →
     DeliversFloat (.qscl w) g w s c tN32 (fun l => (block l).any a.poison || band.poison l)
       (fun l => blockScale k (band.val l).toNat ((block l).map (fun j => Fmt.f32.value (a.val j).toNat)))) ∧
    (let g : Sig := { op := 0x121, inS := false, form := .perLane, d := .dst 32 isV, a := .s (.float .f32), b := .s tN32,
                      c := bandUse w, mOk := blockFmtOk k, imm := w.m != 5 }
     let a := g.opA c w
     let b := g.opB c w
     let band := g.opC c w
     let elem := fun (j : Nat) => if laneBit c.active j then
         packElement k (Fmt.f32.value (a.val j).toNat) ((b.val j).toNat % 256) (band.val j).toNat
       else { code := 0, flags := 0 }
     let word := fun (l : Nat) => if l < 64 / n then
         (List.range n).foldl (fun x i => x + (elem (n * l + i)).code * 2 ^ ((blockElem k).width * i)) 0 else 0
     let raised := fun (l : Nat) => if l < 64 / n then unionFlags (List.range n) (fun i => (elem (n * l + i)).flags) else 0
     let bad := fun (l : Nat) => decide (l < 64 / n) && (List.range n).any (fun i => a.poison (n * l + i) || b.poison (n * l + i))
     Issues g w s c → Fits c false w.d 32 .general →
     (c.active = 0 → exec (.qpack w) s = s.goesOn c w) ∧
     (c.active ≠ 0 → ∃ g0 g1, exec (.qpack w) s = (c.put s g1).goesOn c w ∧
       Raised c c.group g0 false (fun l => l < 64 / n) raised w.d.toNat (originKind w.d) ∧
       Wrote c g0 g1 false w.d 32 (fun l => BitVec.ofNat 64 (word l))
         (fun l => bad l || band.poison l || decide (raised l &&& fpstEnables c.group.regs.fpst ≠ 0)))) ∧
    (let g : Sig := { op := 0x122, inS := false, form := .perLane, d := .dst 32 isV, a := .s tN32, b := .s tN32,
                      c := bandUse w, mOk := blockFmtOk k, imm := w.m != 5 }
     let a := g.opA c w
     let b := g.opB c w
     let band := g.opC c w
     let width := (blockElem k).width
     Issues g w s c → Fits c false w.d 32 .general →
     DeliversFloat (.qunpk w) g w s c tN32
       (fun l => (laneBit c.entry (l / n) && a.poison (l / n)) || b.poison l || band.poison l)
       (fun l => unpackElement k .f32
         ((if laneBit c.entry (l / n) then (a.val (l / n)).toNat else 0) / 2 ^ (width * (l % n)) % 2 ^ width)
         ((b.val l).toNat % 256) (band.val l).toNat))

/-! ## Collectives -/

namespace Sys2Proof.Machine

/-- Only a team differs between two states. -/
def OnlyTeam (s s1 : State) (tid : Nat) : Prop :=
  s1 = { s with teams := s1.teams } ∧ ∀ i, i ≠ tid → s1.team? i = s.team? i

/-- The issuing group as it stands in a state. -/
def Ctx.groupIn (c : Ctx) (s1 : State) : Option Group := s1.group? c.tid c.gid

/-- R101: where an active lane's element of an outcome goes: behind those already counted and those of the lower lanes. -/
def partPlace (c : Ctx) (a : Opnd) (counts : Nat → Nat) (l : Nat) : Nat :=
  let o := (a.val l).toNat % 2 ^ 32
  (counts o + ((List.range l).countP (fun j => laneBit c.active j && (a.val j).toNat % 2 ^ 32 == o))) % 2 ^ 32

end Sys2Proof.Machine

/-- R100, R101: PART of a converged group, with clean operands and its descriptor and list words in the scratchpad, gives each
active lane the place of its element in its outcome's list, counts it, and stores it where the list has room, a higher lane's
word over a lower one's; a lane of no outcome takes 0xFFFFFFFF. Every other byte of the scratchpad keeps its value. -/
def Obligations.Partition : Prop :=
  ∀ (w : MainWord) (s : State) (c : Ctx),
    let g : Sig := { op := 0x185, inS := false, form := .perLane, d := .dst 32 (fun c => isV c || c == 0xE0), a := .s tN32,
                     b := .s tN32, c := .src tN32 isScalarReg, mOk := decide (w.m.toNat < 4) }
    let a := g.opA c w
    let b := g.opB c w
    let desc := ((g.opC c w).val 0).toNat % 2 ^ 32
    let part := fun (i : Nat) => redirect c.team.pairs (desc + 16 * i)
    let word := fun (p : Scratchpad) (i n : Nat) => ofBytes (p.readBytes (part i + 4 * n) 4)
    let outcome := fun (l : Nat) => (a.val l).toNat % 2 ^ 32
    let place := partPlace c a (word c.scratch 0)
    let stores := fun (l : Nat) => l < 64 ∧ c.on l ∧ outcome l ≤ bits w.m 1 0 ∧ place l < word c.scratch 2 (outcome l)
    let dst := fun (l : Nat) => (word c.scratch 1 (outcome l) + 4 * place l) % 2 ^ 32
    let aim := fun (l : Nat) => redirect c.team.pairs (dst l)
    let apart := fun (x n y m : Nat) => x + n ≤ y ∨ y + m ≤ x
    Issues g w s c → c.entry = c.live → Fits c false w.d 32 .general →
    (c.active = 0 → exec (.part w) s = s.goesOn c w) ∧
    (c.active ≠ 0 → desc % 16 = 0 → c.scratch.inside desc 48 = true →
     (∀ l, a.poison l = false ∧ b.poison l = false ∧ (g.opC c w).poison l = false) →
     c.scratch.bytes.wf = true → c.scratch.poison = [] → c.scratch.absent = [] → c.awaitsCommit = false →
     (∀ l, stores l → dst l % 4 = 0 ∧ c.scratch.inside (dst l) 4 = true) →
     ∃ s1 g1, exec (.part w) s = s1.goesOn c w ∧ OnlyTeam s s1 c.tid ∧ c.groupIn s1 = some g1 ∧
       Wrote c c.group g1 false w.d 32
         (fun l => if outcome l ≤ bits w.m 1 0 then BitVec.ofNat 64 (place l) else 0xFFFFFFFF) (fun _ => false) ∧
       let p1 := s1.scratchOf c.tid c.group.coreIx
       (∀ o, o < 4 → (∀ l, stores l → apart (aim l) 4 (part 0 + 4 * o) 4) → word p1 0 o = (word c.scratch 0 o +
         if o ≤ bits w.m 1 0 then (List.range 64).countP (fun l => laneBit c.active l && outcome l == o) else 0) % 2 ^ 32) ∧
       (∀ l, stores l → (∀ m, stores m → l < m → apart (aim m) 4 (aim l) 4) →
         p1.readBytes (aim l) 4 = toBytes 4 ((b.val l).toNat % 2 ^ 32)) ∧
       ∀ k, (∀ l, stores l → k < aim l ∨ aim l + 4 ≤ k) → (k < part 0 ∨ part 0 + 16 ≤ k) →
         p1.bytes.read k = c.scratch.bytes.read k)

namespace Sys2Proof.Machine

/-- R103: the datum that moves to a slot: the group that held it, and its lane. -/
def cameTo (gs : List Group) (moves : List (Datum × (Nat × Nat))) (gid l : Nat) : Option (Group × Nat) :=
  (moves.find? (fun m => m.2 == (gid, l))).bind (fun m => (groupIn gs m.1.gid).map (fun h => (h, m.1.lane)))

/-- R103, R104: what the move makes of a participant's registers. The marked registers and, with .pred, the predicates of a group
that holds no armed mailbox come from the slots that the moves name; the others stay. D receives, in the live lanes, the tid of
what stands there now. -/
def Resorted (gs : List Group) (moves : List (Datum × (Nat × Nat))) (a : ReordArrival) (g g1 : Group) : Prop :=
  let isDest := fun (n : Nat) => isV a.dest = true ∧ n = a.dest.toNat
  (∀ n l, n < g.regs.vregs.length → l < 64 → ¬isDest n →
    (marked a.lowMask a.highMask n = false ∨ g.holds = true → g1.regs.v n = g.regs.v n) ∧
    (marked a.lowMask a.highMask n = true → g.holds = false →
      let from? := (cameTo gs moves g.gid l).getD (g, l)
      (g1.regs.v n).lane l = (from?.1.regs.v n).lane from?.2 ∧
      laneBit (g1.regs.v n).poison l = laneBit (from?.1.regs.v n).poison from?.2)) ∧
  (∀ n l, isDest n → n < g.regs.vregs.length → l < 64 → laneBit g.regs.live l = true →
    let origin := ((moves.find? (fun m => m.2 == (g.gid, l))).map (fun m => (m.1.gid, m.1.lane))).getD (g.gid, l)
    (g1.regs.v n).lane l = BitVec.ofNat 32 (64 * origin.1 + origin.2) ∧ laneBit (g1.regs.v n).poison l = false) ∧
  ((a.preds = false ∨ g.holds = true) → g1.regs.preds = g.regs.preds ∧ g1.regs.predPoison = g.regs.predPoison) ∧
  (a.preds = true → g.holds = false → ∀ n l, n < 7 → l < 64 →
    let from? := (cameTo gs moves g.gid l).getD (g, l)
    laneBit (g1.regs.preds.getD n 0) l = laneBit (from?.1.regs.preds.getD n 0) from?.2 ∧
    laneBit (g1.regs.predPoison.getD n 0) l = laneBit (from?.1.regs.predPoison.getD n 0) from?.2)

end Sys2Proof.Machine

/-- R103: what REORD moves is every live lane's datum, in ascending order of the low 16 bits of its key, equal keys in (gid,
lane) order, to the live slots in (gid, lane) order.
R100, R103: a REORD of group scope of a converged group with a clean key, and general registers to move, moves the data of the
group; nothing but its registers and its poison record changes.
R103, R104: one of core scope arrives at its barrier and, as the last participant of a count whose participants stand on its
core, wait, and agree, moves the data of all of them and opens the barrier. -/
def Obligations.Reorder : Prop :=
  (∀ (gs : List Group) (key : Nat),
     let movers := gs.filter (fun g => !g.holds)
     let moves := movesOf gs key
     moves.map (fun m => m.2) = liveSlots movers ∧
     (moves.map (fun m => (m.1.gid, m.1.lane))).Perm (liveSlots movers) ∧
     moves.Pairwise (fun m n => m.1.key ≤ n.1.key) ∧
     ∀ k, (moves.filter (fun m => m.1.key == k)).map (fun m => (m.1.gid, m.1.lane)) =
       (movers.flatMap (fun g => (maskLanes g.regs.live).map (fun l => (g, l)))).filterMap
         (fun x => if ((x.1.regs.v key).lane x.2).toNat % 65536 = k then some (x.1.gid, x.2) else none)) ∧
  (∀ (w : MainWord) (s : State) (c : Ctx),
     let core := w.m.getLsbD 0
     let g : Sig := { op := 0x186, inS := false, form := .perLane, d := .dst 32 (fun c => isV c || c == 0xE0),
                      a := .src tN32 isV, b := .src tN64 maskPair, c := .form (if core then 0x3F else 0),
                      mOk := decide (w.m.toNat < 4), fieldsOk := !w.neg && w.pred == 0 && decide (barNumber w < 48)
                      reads := s.reordReads w }
     let k := w.b.toNat - 0x80
     let n := barNumber w
     let key := w.a.toNat
     let arrival : ReordArrival := { gid := c.gid, key := key, lowMask := (c.group.regs.s k).value
                                     highMask := (c.group.regs.s (k + 1)).value, dest := w.d, preds := w.m.getLsbD 1 }
     let regs := (List.range 128).filter (marked arrival.lowMask arrival.highMask)
     Issues g w s c → c.entry = c.live → (∀ m ∈ regs ++ (if isV w.d then [w.d.toNat] else []), (c.group.regs.v m).shape = .general) →
     c.live &&& (c.group.regs.v key).poison = 0 →
     (core = false → ∃ g1, exec (.reord w) s = (c.put s g1).goesOn c w ∧
       g1 = { c.group with regs := { c.group.regs with vregs := g1.regs.vregs, preds := g1.regs.preds
                                                       predPoison := g1.regs.predPoison, porig := g1.regs.porig } } ∧
       Resorted [c.group] (movesOf [c.group] key) arrival c.group g1) ∧
     (core = true → barMisuse s c n = false → n < c.team.barriers.length → c.group.reordAt ≠ some n → c.group.reordFailed ≠ some n →
       let b := c.team.barrier n
       let gs := c.team.groups.filter (fun h => h.gid == c.gid || b.reord.any (fun x => x.gid == h.gid))
       c.team.mode = .plain → c.team.opening n = false → b.expected ≤ b.arrivals + 1 → (∀ x ∈ b.reord, { x with gid := c.gid } = arrival) →
       (∀ h ∈ gs, h.coreIx = c.group.coreIx ∧ (h.gid ≠ c.gid → (h.reordWait n).isSome = true)) →
       ∃ s2 t2, exec (.reord w) s = s2.goesOn c w ∧ OnlyTeam s s2 c.tid ∧ s2.team? c.tid = some t2 ∧
         (t2.barrier n).gen = b.gen + 1 ∧ (t2.barrier n).arrivals = 0 ∧ (∀ m, m ≠ n → t2.barrier m = c.team.barrier m) ∧
         ∀ i h, c.team.group? i = some h → ∃ h2, t2.group? i = some h2 ∧
           (h ∈ gs → Resorted gs (movesOf gs key) arrival h h2 ∧ h2.reordAt = none) ∧
             (h ∉ gs → h2 = { h with arrivedAt := h2.arrivedAt })))

/-! ## Tiles -/

namespace Sys2Proof.Machine

/-- A tile instruction may act: its group is no harvest context, a tile set of its quadrant is free or bound to it, and a
lane is active (R141, R142). -/
abbrev TileReady (s : State) (c : Ctx) : Prop := c.group.harvest = false ∧ s.noTileSet c = false ∧ c.active ≠ 0

/-- A tile is written with computed elements: their exceptions are raised, told by row, and a row is poisoned by its sources,
by an enabled exception and by a poisoned guard (R142, R149). No other tile and nothing else of the group changes; the group
is bound to its tile set. -/
def WroteTile (c : Ctx) (g g1 : Group) (t : Nat) (elem : Nat → Nat → FRes) (poison : Nat → Bool) : Prop :=
  ∃ g0, Raised c g g0 false (fun r => r < 16) (fun r => unionFlags lanes64 (fun n => (elem r n).flags)) t 1 ∧
    g1 = { g0 with regs := { g0.regs with tiles := g1.regs.tiles } } ∧ g1.regs.tiles.isSome = true ∧
    (∀ m, m ≠ t → g1.regs.tile m = g.regs.tile m) ∧
    (t < g.regs.tileSet.length → ∀ r, r < 16 →
      (∀ n, n < 64 → (g1.regs.tile t).at r n = BitVec.ofNat 32 (elem r n).code) ∧
      (g1.regs.tile t).poison.getLsbD r = (poison r ||
        decide (unionFlags lanes64 (fun n => (elem r n).flags) &&& fpstEnables g.regs.fpst ≠ 0) || decide (c.guardPoison ≠ 0)))

/-- The value and poison a lane offers: absent lanes offer 0 (R94). -/
def entryVal (c : Ctx) (a : Opnd) (l : Nat) : Nat := if laneBit c.entry l then (a.val l).toNat else 0
def entryPoison (c : Ctx) (a : Opnd) (l : Nat) : Bool := laneBit c.entry l && a.poison l

/-- A tile instruction that needs no scratchpad: its elements and row poison. -/
structure TileRow where
  make : MainWord → Instr
  sig : MainWord → Sig
  elem : MainWord → Ctx → Sig → Nat → Nat → FRes
  poison : MainWord → Ctx → Sig → Nat → Bool

/-- R151, R154, R155, R156: TZERO, TBCR, TBCC, TROT and TEW. -/
def tileRows : List TileRow := [
  { make := .tzero, sig := fun w => { op := 0x201, inS := false, d := tileUse, mOk := w.m == 0 },
    elem := fun _ _ _ _ _ => { code := 0, flags := 0 }, poison := fun _ _ _ _ => false },
  { make := .tbcr, sig := fun w => combineSig 0x206 w,
    elem := fun w c g r n => tileCombine w.m.toNat ((c.group.regs.tile (bits w.d 2 0)).at r n) (entryVal c (g.opA c w) n),
    poison := fun w c g r => (c.group.regs.tile (bits w.d 2 0)).poison.getLsbD r || lanes64.any (entryPoison c (g.opA c w)) },
  { make := .tbcc, sig := fun w => combineSig 0x207 w,
    elem := fun w c g r n => tileCombine w.m.toNat ((c.group.regs.tile (bits w.d 2 0)).at r n) (entryVal c (g.opA c w) r),
    poison := fun w c g r => (c.group.regs.tile (bits w.d 2 0)).poison.getLsbD r || entryPoison c (g.opA c w) r },
  { make := .trot, sig := fun w => { op := 0x208, inS := false, d := tileUse, a := tileUse, b := .src tN32 isUniform,
                                     mOk := decide (w.m.toNat < 2), imm := true },
    elem := fun w c g r n =>
      let k := ((g.opB c w).val 0).toNat
      let u := c.group.regs.tile (bits w.a 2 0)
      { code := (if w.m = 0 then u.at ((r + k) % 16) n else u.at r ((n + k) % 64)).toNat, flags := 0 },
    poison := fun w c g r =>
      let u := c.group.regs.tile (bits w.a 2 0)
      (g.opB c w).poison 0 || (if w.m = 0 then u.poison.getLsbD ((r + ((g.opB c w).val 0).toNat) % 16) else u.poison.getLsbD r) },
  { make := .tew, sig := fun w => { op := 0x209, inS := false, d := tileUse, a := tileUse,
                                    b := if 4 ≤ w.m.toNat ∧ w.m.toNat ≤ 7 then .src (.float .f32) isUniform else .unused,
                                    mOk := decide (w.m.toNat < 12), imm := true },
    elem := fun w c g r n => tileUnary w.m.toNat ((c.group.regs.tile (bits w.a 2 0)).at r n).toNat ((g.opB c w).val 0).toNat,
    poison := fun w c g r => (c.group.regs.tile (bits w.a 2 0)).poison.getLsbD r || (g.opB c w).poison 0 }]

end Sys2Proof.Machine

namespace Sys2Proof.Machine

/-- What TMMA's decode checks know of it (R144). -/
def tmmaSig (s : State) (w : MainWord) : Sig :=
  let k := (bits w.x 10 8 + 1) * tileGroup w.m.toNat
  let budget := match s.issuer with | some (_, g, _, _) => g.regs.vregs.length | none => 0
  { op := 0x200, inS := false, d := tileUse, a := .code, b := .code, reads := tmmaReads w, mOk := (tileClass w.m.toNat).isSome,
    xMask := 0xFFF,
    operandsBad := if tmmaBad budget true w.a w.m.toNat (bits w.x 5 4) k then some 1
      else if tmmaBad budget false w.b (bits w.x 3 0) (bits w.x 7 6) k then some 2 else none,
    fieldsOk := decide (tileClass w.m.toNat = tileClass (bits w.x 3 0)) && !tmmaModeBad w.m.toNat (bits w.x 5 4) &&
      !tmmaModeBad (bits w.x 3 0) (bits w.x 7 6) && !w.neg && w.pred == 0 }

end Sys2Proof.Machine

/-- R144 to R149, R276: TMMA adds, for each element of its tile, the products of a row of A and a row of B, group by group of
ascending k; .clr starts from +0. That a poisoned scale of A stays in its row is the model's choice (log 66). -/
def Obligations.TileMatrix : Prop :=
  ∀ (w : MainWord) (s : State) (c : Ctx),
    let fa := w.m.toNat
    let kg := bits w.x 10 8 + 1
    let k := kg * tileGroup fa
    let a := tmmaOperand c true w.a fa (bits w.x 5 4) k
    let b := tmmaOperand c false w.b (bits w.x 3 0) (bits w.x 7 6) k
    let old := c.group.regs.tile (bits w.d 2 0)
    Issues (tmmaSig s w) w s c → c.entry = c.live → TileReady s c →
    descReserved c w.a (bits w.x 5 4) = false → descReserved c w.b (bits w.x 7 6) = false →
    descMisaligned c w.a fa (bits w.x 5 4) k = none →
    descMisaligned c w.b (bits w.x 3 0) (bits w.x 7 6) k = none →
    (∀ r ∈ a.ranges ++ b.ranges, c.scratch.inside r.1 r.2 = true) → c.scratch.absent = [] → c.scratch.poison = [] →
    ∃ g1, exec (.tmma w) s = (c.put s g1).goesOn c w ∧
      WroteTile c c.group g1 (bits w.d 2 0)
        (fun r n => accumulate (tileClass fa == some .integer) (if w.x.getLsbD 11 then 0 else (old.at r n).toNat) (tileGroup fa) kg (a.value r) (b.value n))
        (fun r => (!w.x.getLsbD 11 && old.poison.getLsbD r) || a.rowPoison r || a.common || b.common)

namespace Sys2Proof.Machine

/-- R127: where byte o of a row from a lies: the part of the row that its line holds is redirected. -/
def rowPlace (pairs : List (Option PairSlot)) (a o : Nat) : Nat :=
  let q := max a ((a + o) / 128 * 128)
  redirect pairs q + (a + o - q)

end Sys2Proof.Machine

/-- R151: a TLD that is aligned and inside the scratchpad fills a tile from 16 rows of it, bf16 and f16 widened; a poisoned operand
poisons every row.
R152: a TDRN that is aligned and inside, of a clean tile and clean operands, and whose conversions raise nothing enabled, writes
the tile's rows, converted, a later row's bytes over an earlier one's; it sets the conversions' flags, and changes no other byte
of the scratchpad and no tile. Either completes so, and without an active lane does nothing. That TDRN under a poisoned guard stores its
words unpoisoned is the model's choice (log 79). -/
def Obligations.TileScratch : Prop :=
  ∀ (w : MainWord) (s : State) (c : Ctx),
    (let fmt := bits w.m 1 0
     let g : Sig := { op := 0x202, inS := false, d := tileUse, a := .src tN32 isUniform, b := .src tN32 isUniform,
                      mOk := decide (w.m.toNat < 3), imm := true }
     let base := ((g.opA c w).val 0).toNat
     let pitch := ((g.opB c w).val 0).toNat
     let n := if fmt = 0 then 4 else 2
     let code := fun (r i : Nat) => ofBytes (c.scratch.readBytes (rowPlace c.team.pairs (base + r * pitch) (i * n)) n)
     Issues g w s c → (c.active = 0 → exec (.tld w) s = s.goesOn c w) ∧
     (TileReady s c → base % 16 = 0 → pitch % 16 = 0 →
      (∀ r, r < 16 → c.scratch.inside (base + r * pitch) (64 * n) = true) → c.scratch.absent = [] → c.scratch.poison = [] →
      ∃ g1, exec (.tld w) s = (c.put s g1).goesOn c w ∧
        WroteTile c c.group g1 (bits w.d 2 0)
          (fun r i => { code := if fmt = 0 then code r i else (convert (.float .f32) (.float (if fmt = 1 then .bf16 else .f16)) .rne false (code r i)).code, flags := 0 })
          (fun _ => (g.opA c w).poison 0 || (g.opB c w).poison 0))) ∧
    (let g : Sig := { op := 0x203, inS := false, d := tileUse, a := .src tN32 isUniform, b := .src tN32 isUniform,
                      mOk := decide (w.m.toNat < 8), xMask := 0x007, fieldsOk := decide (bits w.x 2 0 < 5) }
     let fmt := drainFmt (bits w.x 2 0)
     let n := fmt.width / 8
     let base := ((g.opA c w).val 0).toNat
     let pitch := ((g.opB c w).val 0).toNat
     let tile := c.group.regs.tile (bits w.d 2 0)
     let elem := fun (r i : Nat) => convert (.float fmt) (.float .f32) (mRnd w) (w.m.getLsbD 2) (tile.at r i).toNat
     let flags := unionFlags rows16 (fun r => unionFlags lanes64 (fun i => (elem r i).flags))
     let aim := fun (r o : Nat) => rowPlace c.team.pairs (base + r * pitch) o
     Issues g w s c → (c.active = 0 → exec (.tdrn w) s = s.goesOn c w) ∧
     (TileReady s c → base % 16 = 0 → pitch % 16 = 0 →
      (∀ r, r < 16 → c.scratch.inside (base + r * pitch) (64 * n) = true) → c.scratch.absent = [] → c.scratch.bytes.wf = true →
      tile.poison = 0 → flags &&& fpstEnables c.group.regs.fpst = 0 → (g.opA c w).poison 0 = false → (g.opB c w).poison 0 = false →
      c.awaitsCommit = false →
      ∃ s1 g1, exec (.tdrn w) s = s1.goesOn c w ∧ OnlyTeam s s1 c.tid ∧ c.groupIn s1 = some g1 ∧
        g1 = { c.group with regs := { c.group.regs with tiles := g1.regs.tiles, fpst := c.group.regs.fpst ||| flags.setWidth 64 } } ∧
        g1.regs.tiles.isSome = true ∧ (∀ t, g1.regs.tile t = c.group.regs.tile t) ∧
        let p1 := s1.scratchOf c.tid c.group.coreIx
        (∀ r i j, r < 16 → i < 64 → j < n →
          (∀ r2 o, r2 < 16 → o < 64 * n → (r < r2 ∨ r = r2 ∧ i * n + j < o) → aim r2 o ≠ aim r (i * n + j)) →
          p1.bytes.read (aim r (i * n + j)) = (toBytes n (elem r i).code).getD j 0) ∧
        ∀ k, (∀ r o, r < 16 → o < 64 * n → aim r o ≠ k) → p1.bytes.read k = c.scratch.bytes.read k))

/-- R151, R154, R155, R156: TZERO, TBCR, TBCC, TROT and TEW write every element of their tile.
R153: TREDR and TREDC give each active lane with a row or a column its reduction, and +0 to the others.
R157: TGET gives each active lane its element of a row of a tile; TSET writes the active lanes' elements of a row, and
every other element of the tile set keeps its value. -/
def Obligations.TileElements : Prop :=
  (∀ r ∈ tileRows, ∀ (w : MainWord) (s : State) (c : Ctx),
     Issues (r.sig w) w s c → TileReady s c →
     ∃ g1, exec (r.make w) s = (c.put s g1).goesOn c w ∧
       WroteTile c c.group g1 (bits w.d 2 0) (r.elem w c (r.sig w)) (r.poison w c (r.sig w))) ∧
  (∀ (w : MainWord) (s : State) (c : Ctx),
     let t := c.group.regs.tile (bits w.a 2 0)
     let sig := fun (op : BitVec 10) => ({ op := op, inS := false, form := .perLane, d := tileDest, a := tileUse, mOk := decide (w.m.toNat < 4) } : Sig)
     let row := fun (r : Nat) => lanes64.map (fun n => (t.at r n).toNat)
     let col := fun (n : Nat) => rows16.map (fun r => (t.at r n).toNat)
     let done := fun (i : Instr) (res : Nat → FRes) (poison : Nat → Bool) => ∃ g0 g1, exec i s = (c.put s g1).goesOn c w ∧
       Raised c { c.group with regs := { c.group.regs with tiles := some c.group.regs.tileSet } } g0 false c.on (fun l => (res l).flags) w.d.toNat 0 ∧
       Wrote c g0 g1 false w.d 32 (fun l => BitVec.ofNat 64 (res l).code)
         (fun l => poison l || decide ((res l).flags &&& fpstEnables c.group.regs.fpst ≠ 0))
     TileReady s c → Fits c false w.d 32 .general →
     (Issues (sig 0x204) w s c → done (.tredr w) (fun l => if l < 16 then tileReduce (bits w.m 1 0) (row l) else { code := 0, flags := 0 })
       (fun l => decide (l < 16) && t.poison.getLsbD l)) ∧
     (Issues (sig 0x205) w s c → done (.tredc w) (fun l => if l < 64 then tileReduce (bits w.m 1 0) (col l) else { code := 0, flags := 0 })
       (fun l => decide (l < 64) && decide (t.poison ≠ 0)))) ∧
  (∀ (w : MainWord) (s : State) (c : Ctx), TileReady s c →
     (let g : Sig := { op := 0x20A, inS := false, form := .perLane, d := tileDest, a := tileUse, b := .src tN32 isUniform,
                       mOk := w.m == 0, imm := true }
      let row := ((g.opB c w).val 0).toNat % 16
      let t := c.group.regs.tile (bits w.a 2 0)
      Issues g w s c → Fits c false w.d 32 .general →
      ∃ g1, exec (.tget w) s = (c.put s g1).goesOn c w ∧
        Wrote c { c.group with regs := { c.group.regs with tiles := some c.group.regs.tileSet } } g1 false w.d 32
          (fun l => (t.at row l).setWidth 64) (fun _ => t.poison.getLsbD row || (g.opB c w).poison 0)) ∧
     (let g : Sig := { op := 0x20B, inS := false, form := .perLane, d := tileUse, a := .s (.float .f32),
                       b := .src tN32 isUniform, mOk := w.m == 0, imm := true }
      let row := ((g.opB c w).val 0).toNat % 16
      let t := bits w.d 2 0
      Issues g w s c → t < c.group.regs.tileSet.length →
      ∃ g1, exec (.tset w) s = (c.put s g1).goesOn c w ∧
        g1 = { c.group with regs := { c.group.regs with tiles := g1.regs.tiles } } ∧
        (∀ m, m ≠ t → g1.regs.tile m = c.group.regs.tile m) ∧
        ∀ r, r < 16 → ∀ n, n < 64 → (g1.regs.tile t).at r n =
          if r = row ∧ laneBit c.active n = true then loWord ((g.opA c w).val n) else (c.group.regs.tile t).at r n))

/-! ## Loads and stores -/

namespace Sys2Proof.Machine

/-- The word of a 64-bit value that register k of a destination takes (R8). -/
def partOf (k : Nat) (x : Dword) : Word := if k = 0 then loWord x else hiWord x

/-- A load's values go to the destination that a code names, like the results of Wrote; a v register that is declared uniform
or affine takes the value of the lowest active lane (R111, R225). -/
def Loaded (c : Ctx) (g g1 : Group) (scalar : Bool) (code : Byte) (width : Nat) (val : Nat → Dword) (poison : Nat → Bool) :
    Prop :=
  SameButResults g g1 ∧
  (∀ n, n ∉ destRegs code width → g1.regs.v n = g.regs.v n) ∧
  (∀ n, (scalar && isS code && n == code.toNat - 0x80) = false → g1.regs.s n = g.regs.s n) ∧
  (∀ n, (scalar && isTs code && n == code.toNat - 0xE8) = false → g1.ts[n]? = g.ts[n]?) ∧
  (isV code = true → ∀ k, k < max 1 (width / 32) → code.toNat + k < g.regs.vregs.length → ∀ l, l < 64 →
    let r := g.regs.v (code.toNat + k)
    let r1 := g1.regs.v (code.toNat + k)
    laneBit r1.poison l = (if laneBit c.active l then poison l || laneBit c.guardPoison l else laneBit r.poison l) ∧
    (laneBit c.active l = true → r1.lane l = partOf k (val (if r.shape = .general then l else lowestLane c.active))) ∧
    (laneBit c.active l = false → r.shape = .general → r1.lane l = r.lane l)) ∧
  (scalar = true → isS code = true → code.toNat - 0x80 < g.regs.sregs.length →
    g1.regs.s (code.toNat - 0x80) = { value := val (lowestLane c.active),
                                      poison := poison (lowestLane c.active) || decide (c.guardPoison ≠ 0) }) ∧
  (scalar = true → isTs code = true → code.toNat - 0xE8 < g.ts.length →
    g1.ts[code.toNat - 0xE8]? = some (val (lowestLane c.active)))

end Sys2Proof.Machine

/-- R107, R110, R111: what a load makes of the values it read: each lane's, extended by its width, goes to the destination;
16 bytes go to two pairs or two registers. A lane with a poisoned address takes no value that the rules state, and is
poisoned; a value that carries an origin is a poison event of the lowest such lane (R395).
R109, R112, R132: LD and LDR without a fault: the access of every active lane whose address is not poisoned is made once
the release part or fence of the order is over, the acquire part follows, and the values go to the destination; LDR also
leaves each lane whose home can be reached a reservation. No data of another package is awaited: nothing stands asked when the
instruction ends (log 83). What a lane whose address is poisoned takes is free (log 21). -/
def Obligations.Load : Prop :=
  (∀ (c : Ctx) (tick : Nat) (g : Group) (scalar : Bool) (w : MainWord) (shape : Shape) (vs : List LaneValue) (va : Nat → Dword),
     shape ≠ .affine →
     let ty := widthTy w.m
     let found := fun (l : Nat) => if scalar then vs.head? else laneValue vs l
     let poison := fun (l : Nat) => match found l with | some v => decide (v.origin ≠ 0) | none => true
     let g1 := loadResult c tick g scalar w ty shape vs va
     let next := if isV w.d then w.d + 2 else if isScalarReg w.d then w.d + 1 else w.d
     ∃ (free : Nat → Nat) (g0 : Group),
       let val := fun (l : Nat) => match found l with | some v => ofBytes v.bytes | none => free l
       g0 = { g with regs := { g.regs with porig := g0.regs.porig } } ∧
       ((∀ v ∈ vs, v.origin = 0) → g0 = g) ∧
       (∀ v, vs.find? (fun v => decide (v.origin ≠ 0)) = some v →
         g0.regs.porig = recordEvent g.regs.porig v.origin.toNat w.d.toNat v.lane 3 c.pos.pc (va v.lane)) ∧
       (ty.width ≠ 128 → Loaded c g0 g1 scalar w.d ty.width (fun l => extendTo ty (BitVec.ofNat 64 (val l))) poison) ∧
       (ty.width = 128 → ∃ g2, Loaded c g0 g2 scalar w.d 64 (fun l => BitVec.ofNat 64 (val l)) poison ∧
         Loaded c g2 g1 scalar next 64 (fun l => BitVec.ofNat 64 (val l / 2 ^ 64)) poison)) ∧
  (∀ (w : MainWord) (s s1 s2 s3 : State) (c : Ctx) (vs : List LaneValue),
     let n := widthBytes w.m
     let orderOk := xOrder w == 0 || xOrder w == 1 || xOrder w == 4
     let reads := fun (as : List LaneAccess) (atHome : Bool) =>
       (as.any (fun a => effectivePolicy a.x.pol (xHint w) == 0) && s1.ownWrites c.tid c.gid) = false ∧
       (xOrder w = 0 → s2 = s1) ∧
       (xOrder w ≠ 0 → s1.acquireReady c (xScope w) (as.map (fun a => a.x.key)) = .ready s2) ∧
       (s2.touchLanes c .read (xHint w) as).readLanes c (fun a => a.how (xOrder w) (xHint w) atHome) n as = .ok s3 vs
     let acq := fun (as : List LaneAccess) =>
       if xOrder w = 0 then s3 else s3.acquirePart c (xScope w) (as.map (fun a => a.x.key))
     let result := fun (g : Sig) (x : Group) => loadResult c s1.tick x (g.scalarForm c.vector w) w (widthTy w.m)
       (loadShape w.a (xHint w)) vs (effectiveAddress (g.opA c w) w n)
     (let g := loadSig 0x280 w false orderOk
      let scalar := g.scalarForm c.vector w
      let r := checkLanes s c.space { kind := .read, bytes := n, atomic := false, own := false } (effectiveAddress (g.opA c w) w n)
        (cleanLanes (g.opA c w) (c.accessLanes scalar))
      Issues g w s c → Fits c scalar w.d (widthTy w.m).width (if c.partialWrite then .general else loadShape w.a (xHint w)) →
      r.2 = [] →
      (c.active = 0 → exec (.ld w) s = s.goesOn c w) ∧
      (c.active ≠ 0 → s.before c (xOrder w) (xScope w) = .ready s1 → reads r.1 false → (acq r.1).asked = [] →
       exec (.ld w) s = ((acq r.1).modGroup c.tid c.gid (result g)).goesOn c w)) ∧
     (let g := loadSig 0x302 w true orderOk
      let scalar := g.scalarForm c.vector w
      let r := checkLanes s c.space { kind := .read, bytes := n, atomic := true, own := true } (effectiveAddress (g.opA c w) w n)
        (cleanLanes (g.opA c w) (c.accessLanes scalar))
      Issues g w s c → Fits c scalar w.d (widthTy w.m).width (if c.partialWrite then .general else loadShape w.a (xHint w)) →
      r.2 = [] → c.team.staging = false →
      (c.active = 0 → exec (.ldr w) s = s.goesOn c w) ∧
      (∀ s0, c.active ≠ 0 → s.before c (xOrder w) (xScope w) = .ready s0 →
       s1 = s0.linesReady c (r.1.map (fun x => lineOfKey x.x.key)).eraseDups →
       s1.linesFree c (r.1.map (fun x => lineOfKey x.x.key)).eraseDups = true → reads r.1 true → (acq r.1).asked = [] →
       let reached := r.1.filter (fun x => ((acq r.1).linkError c.hub (lineOfKey x.x.key)).isNone)
       exec (.ldr w) s =
         ((reached.foldl (fun s x => s.reserve c n x) (acq r.1)).modGroup c.tid c.gid (result g)).goesOn c w)))

/-- R112, R113, R114, R323, R329: ST without a fault. Relaxed, its stores are made line by line, those to registers and device
pages each by itself. As a release it is performed at its home after the group's earlier accesses and after the stores that the
core's path holds for its lines, each line as one write; a seq-cst store is a release write that a fence follows. The stores of
a staged team are staged, in the order of the lanes (R400).
R400: a staged store is added behind the team's others, which changes no memory, and a paired team's signature takes its record
(R405); a staged line beyond the 8,192 kills the team. In what order the entries of one core's path are performed is the model's choice
(log 23). -/
def Obligations.Store : Prop :=
  (∀ (w : MainWord) (s s1 s3 : State) (c : Ctx),
    let g := storeSig 0x281 .bySources .unused w false 5
    let scalar := g.scalarForm c.vector w
    let n := widthBytes w.m
    let a := g.opA c w
    let d := storeData g c w n
    let r := checkLanes s c.space { kind := .write, bytes := n, atomic := false, own := false } (effectiveAddress a w n)
      (cleanLanes a (c.accessLanes scalar))
    let as := r.1.map (fun x => (x, d.bytes n x.lane))
    let p := s1.storeParts (xHint w) as
    let touched := fun (s : State) => s.touchLanes c .write (xHint w) r.1
    let lines := storeLines (p.rest ++ p.device)
    let s2 := lines.foldl (fun s l => s.drainLine c.unit l) s1
    let s4 := (touched s2).releaseStores c (xScope w) p
    let x := s4.settleStores c (xScope w) true
    let end4 := x.1.acquire c.tid c.gid c.group.coreIx (xScope w) c.unit false
    let s5 := (touched s1).stageStores c (xOrder w) (xScope w) as
    let ordered := s2.roomForKeys (durableKeys p.rest) = true ∧ lines.any (s2.holdsLine c.unit) = false ∧ s2.deviceReady c p = true
    Issues g w s c → r.2 = [] → c.guardPoison = 0 → (∀ l, c.on l → a.poison l = false ∧ d.opnd.poison l = false) →
    (c.active = 0 → exec (.st w) s = s.goesOn c w) ∧
    (c.active ≠ 0 → c.awaitsCommit = false → s.before c (storeOrder (xOrder w)) (xScope w) = .ready s1 →
     (c.stages = true → s5.asked = [] → exec (.st w) s = s5.goesOn c w) ∧
     (c.stages = false →
      (xOrder w = 0 → (touched s1).relaxedStores c (xHint w) p = some s3 → s3.asked = [] → exec (.st w) s = s3.goesOn c w) ∧
      (xOrder w = 2 → ordered → s4.asked = [] → exec (.st w) s = s4.goesOn c w) ∧
      (xOrder w = 4 → ordered → x.2 = none → x.1.heldFailures c = [] → end4.asked = [] → exec (.st w) s = end4.goesOn c w)))) ∧
  (∀ (s : State) (t : Team) (e : Staged), s.team? t.id = some t →
     (8192 < (stagedLines (t.staged ++ [e])).length → s.stage t.id e = s.killTeam t.id 0x52) ∧
     ((stagedLines (t.staged ++ [e])).length ≤ 8192 → ∃ t1, s.stage t.id e = s.setTeam t1 ∧ t1.staged = t.staged ++ [e] ∧
       (∀ i, i ≠ e.gid → t1.group? i = t.group? i) ∧
       ∀ g, t.group? e.gid = some g → t1.group? e.gid =
         some (if t.mode = .paired then { g with signature := crc64 g.signature e.record } else g)))

/-- R317: a byte that a vector core's group has stored, to a page that is not a device's, is the byte that its core's
store-combining path gives to every load of the core.
R317: a load of a group of a vector core takes the bytes that the core's path holds, and every other byte from the line
that it read.
R338, R342, R412: a write performed at its home makes its bytes what every read at the home finds, in any order of the
copies that cores hold of the line, and changes no other byte; every reservation of the line ends (R133). That a path holds one entry a
line, into which its group's newest bytes merge, is the model's choice (log 23). -/
def Obligations.StoreForwarding : Prop :=
  ((∀ (s : State) (tid gid ix line : Nat) (id : CoreId) (cells : List (Nat × Byte)) (how : StoreHow),
      let path := s.core (.vector id)
      (path.combining.map (fun e => e.line)).Nodup → path.takes tid gid [line] = true → how.policy ≠ 0 →
      (cells.map (fun x => x.1)).Nodup → (∀ x ∈ cells, lineOfKey x.1 = line) →
      ∀ x ∈ cells, ((s.groupStore tid gid ix (.vector id) line cells how).core (.vector id)).forwarded x.1 = some x.2) ∧
   (∀ (s : State) (tid gid ix : Nat) (id : CoreId) (k n : Nat) (how : LoadHow),
      ∃ s1 line, s.vectorLine tid gid ix (.vector id) (lineOfKey k) how = (s1, line) ∧ s1.cores = s.cores ∧
        (s.loadPiece tid gid ix (.vector id) k n how).1 = s1 ∧
        ∀ i, i < n → (s.loadPiece tid gid ix (.vector id) k n how).2[i]? =
          some (((s.core (.vector id)).forwarded (k + i)).getD (line.getD (k % 128 + i) 0)))) ∧
  (∀ (s : State) (line : Nat) (cells : List (Nat × Byte)) (wr : Writer),
     s.mem.wf = true → (∀ x ∈ cells, x.1 / 128 = line) →
     let t := s.homeWriteLine line cells wr
     (∀ k, t.homeByte k = ((cells.reverse.find? (fun x => x.1 == k)).map (fun x => x.2)).getD (s.homeByte k)) ∧
     (localHome (keyHome (line * 128)) = true →
       (∀ r ∈ (t.hub (homeHub (keyHome (line * 128)))).reservations, lineOfKey r.address ≠ line) ∧
       (s.hub wr.hub).lclk.toNat ≤ (t.hub wr.hub).lclk.toNat))

/-- R119, R120: LDS, STS and LDK without a fault: LDS reads and STS writes each lane's bytes of the scratchpad, in ascending
order of the lanes; LDK reads a constant bank. -/
def Obligations.ScratchAndConstants : Prop :=
  ∀ (w : MainWord) (s s1 : State) (c : Ctx),
    let n := widthBytes w.m
    let width := (widthTy w.m).width
    (let g : Sig := { op := 0x290, inS := false, form := .byDest, d := .dst width anyCode, a := scratchUse, c := offsetUse,
                      memory := true, mOk := decide (w.m.toNat < 7), xMask := 0x03F,
                      fieldsOk := decide (xScope w < 2) && (xOrder w == 0 || xOrder w == 1 || xOrder w == 4) }
     let scalar := g.scalarForm c.vector w
     let a := g.opA c w
     let clean := cleanLanes a (c.accessLanes scalar)
     let at_ := scratchAddress a (memOffset w n)
     let vs := clean.map (fun l => c.readScratch (at_ l) n l)
     Issues g w s c → Fits c scalar w.d width (if c.partialWrite then .general else loadShape w.a 0) →
     (∀ l ∈ clean, at_ l % n = 0 ∧ c.scratch.inside (at_ l) n = true) →
     (c.active = 0 → exec (.lds w) s = s.goesOn c w) ∧
     (c.active ≠ 0 → c.absentLine (clean.map at_) n = none → s.before c (xOrder w) (xScope w) = .ready s1 → s1.asked = [] →
      exec (.lds w) s = ((if xOrder w = 0 then s1 else s1.acquirePart c (xScope w) []).modGroup c.tid c.gid (fun x =>
        loadResult c s.tick x scalar w (widthTy w.m) (loadShape w.a 0) vs (fun l => BitVec.ofNat 64 (at_ l)))).goesOn c w)) ∧
    (let g : Sig := { op := 0x291, inS := false, form := .bySources, a := scratchUse, b := .s (widthTy w.m), c := offsetUse,
                      memory := true, mOk := decide (w.m.toNat < 7), xMask := 0x03F,
                      fieldsOk := decide (xScope w < 2) && (xOrder w == 0 || xOrder w == 2 || xOrder w == 4) }
     let a := g.opA c w
     let d := storeData g c w n
     let lanes := c.accessLanes (g.scalarForm c.vector w)
     let at_ := scratchAddress a (memOffset w n)
     let s2 := s1.modScratch c.tid c.group.coreIx (fun p =>
       lanes.foldl (fun p l => p.write (redirect c.team.pairs (at_ l)) (d.bytes n l)) p)
     let x := s2.settleStores c (xScope w) true
     Issues g w s c → c.guardPoison = 0 → (∀ l, c.on l → a.poison l = false ∧ d.opnd.poison l = false) →
     (∀ l ∈ lanes, at_ l % n = 0 ∧ c.scratch.inside (at_ l) n = true) →
     (c.active = 0 → exec (.sts w) s = s.goesOn c w) ∧
     (c.active ≠ 0 → c.awaitsCommit = false → c.absentLine (lanes.map at_) n = none →
      s.before c (storeOrder (xOrder w)) (xScope w) = .ready s1 → s1.asked = [] →
      (xOrder w ≠ 4 → exec (.sts w) s = s2.goesOn c w) ∧
      (xOrder w = 4 → x.2 = none → x.1.heldFailures c = [] →
        exec (.sts w) s = (x.1.acquire c.tid c.gid c.group.coreIx (xScope w) c.unit false).goesOn c w))) ∧
    (let g : Sig := { op := 0x292, inS := false, form := .byDest, d := .dst width anyCode, a := .form 0x03, b := .s tN32,
                      c := offsetUse, memory := true, mOk := w.m == 4 || w.m == 5 || w.m == 6 }
     let scalar := g.scalarForm c.vector w
     let b := g.opB c w
     let shape : Shape := if isUniform w.b || decide (b.shape = .uniform) then .uniform else .general
     let clean := cleanLanes b (c.accessLanes scalar)
     let at_ := scratchAddress b (memOffset w n)
     let vs := clean.map (fun l => readConst c.team (bits w.a 1 0) (at_ l) n l)
     Issues g w s c → Fits c scalar w.d width (if c.partialWrite then .general else shape) → (∀ l ∈ clean, at_ l % n = 0) →
     (c.active = 0 → exec (.ldk w) s = s.goesOn c w) ∧
     (c.active ≠ 0 → exec (.ldk w) s = (s.modGroup c.tid c.gid (fun x =>
        loadResult c s.tick x scalar w (widthTy w.m) shape vs (fun l => BitVec.ofNat 64 (at_ l)))).goesOn c w))

namespace Sys2Proof.Machine

/-- The bytes of a line that some core still holds as stores. -/
def State.heldByte (s : State) (k : Nat) : Prop := ∃ c ∈ s.cores, ∃ e ∈ c.combining, ∃ x ∈ e.bytes, x.1 = k

/-- The bytes of writes that are on their way to their homes. -/
def State.travelling (s : State) (k : Nat) : Prop := ∃ x ∈ s.txns, ∃ bytes how, x.kind = .write bytes how ∧ ∃ y ∈ bytes, y.1 = k

/-- The directory agrees with the copies of a line: in state M its owner's copy is the dirty one, in state E it is clean. -/
def State.dirAgrees (s : State) (line : Nat) : Prop :=
  let hub := s.hub (homeHub (keyHome (line * 128)))
  let d := hub.entry line
  ∀ p, hub.copyOf d.owner line = some p →
    (d.state = .M → s.dirtyCopy line = some p) ∧ (d.state = .E → p.dirty = false)

/-- The bytes that the checked accesses of lanes cover. -/
def covers (as : List LaneAccess) (n k : Nat) : Prop := ∃ a ∈ as, a.x.key ≤ k ∧ k < a.x.key + n

/-- The bytes that the hardware may write for an access: the page-table entries (R382) and the migration log (R348). -/
def State.hardwareByte (s : State) (h : HubId) (as : List LaneAccess) (k : Nat) : Prop :=
  (∃ a ∈ as, a.x.pteKey ≤ k ∧ k < a.x.pteKey + 8) ∨
  (∃ j, j < 2 ^ (s.hub h).mgLsz.toNat ∧ memKey (peerOf h) ((s.hub h).mgBase.toNat + 32 * j) ≤ k ∧
    k < memKey (peerOf h) ((s.hub h).mgBase.toNat + 32 * j) + 32)

/-- A memory instruction with its accesses: their kind, width and lanes, whether it stores, whether it takes 0x28 in a staged team
(R131, R132), the width and shape of its result, and the operands, each with its code and field, whose poison it takes as 0x0C. -/
structure AccessRow where
  make : MainWord → Instr
  sig : MainWord → Sig
  how : MainWord → CheckHow
  address : Sig → Ctx → MainWord → Nat → Dword
  stores : Bool
  returns : MainWord → Bool
  result : Ctx → MainWord → Option (Nat × Shape)
  poisonous : Sig → Ctx → MainWord → List (Byte × Nat × Opnd)

/-- R106, R129, R130, R132: the instructions that access memory, each with the address that its meaning computes. -/
def accessRows : List AccessRow :=
  let orderOk := fun (w : MainWord) => xOrder w == 0 || xOrder w == 1 || xOrder w == 4
  let offset := fun (g : Sig) (c : Ctx) (w : MainWord) => effectiveAddress (g.opA c w) w (widthBytes w.m)
  let loaded := fun (c : Ctx) (w : MainWord) => some ((widthTy w.m).width, if c.partialWrite then .general else loadShape w.a (xHint w))
  let stored := fun (g : Sig) (c : Ctx) (w : MainWord) => [(w.a, 1, g.opA c w), (w.b, 2, (storeData g c w (widthBytes w.m)).opnd)]
  let rmw := fun (c : Ctx) (w : MainWord) => some (atomWidth (bits w.x 10 9), Shape.general)
  [{ make := .ld, sig := fun w => loadSig 0x280 w false (orderOk w),
     how := fun w => { kind := .read, bytes := widthBytes w.m, atomic := false, own := false }, address := offset, stores := false,
     returns := fun _ => false, result := loaded, poisonous := fun _ _ _ => [] },
   { make := .ldr, sig := fun w => loadSig 0x302 w true (orderOk w),
     how := fun w => { kind := .read, bytes := widthBytes w.m, atomic := true, own := true }, address := offset, stores := false,
     returns := fun _ => true, result := loaded, poisonous := fun _ _ _ => [] },
   { make := .st, sig := fun w => storeSig 0x281 .bySources .unused w false 5,
     how := fun w => { kind := .write, bytes := widthBytes w.m, atomic := false, own := false }, address := offset, stores := true,
     returns := fun _ => false, result := fun _ _ => none, poisonous := stored },
   { make := .stc, sig := fun w => storeSig 0x303 .byDest (.dstAny 32) w true 6,
     how := fun w => { kind := .write, bytes := widthBytes w.m, atomic := true, own := true }, address := offset, stores := true,
     returns := fun _ => true, result := fun _ _ => some (32, .general), poisonous := stored },
   { make := .atom,
     sig := fun w => { op := 0x300, form := atomForm w, d := .dstAny (atomWidth (bits w.x 10 9)), a := addressUse,
                       b := .s (.int (atomWidth (bits w.x 10 9)) false), c := offsetUse, memory := true,
                       mOk := atomTyped w.m.toNat (bits w.x 10 9), xMask := 0xE3F,
                       fieldsOk := decide (xOrder w < 5) && decide (xScope w < 7) },
     how := fun w => { kind := .rmw, bytes := atomWidth (bits w.x 10 9) / 8, atomic := true, own := false },
     address := fun g c w l => (g.opA c w).val l + memOffset w (atomWidth (bits w.x 10 9) / 8), stores := true,
     returns := fun w => w.d != 0xE0, result := rmw, poisonous := fun g c w => [(w.a, 1, g.opA c w), (w.b, 2, g.opB c w)] },
   { make := .cas,
     sig := fun w => { op := 0x301, form := atomForm w, d := .dstAny (atomWidth (bits w.x 10 9)), a := addressUse,
                       b := .s (.int (atomWidth (bits w.x 10 9)) false), c := .s (.int (atomWidth (bits w.x 10 9)) false),
                       mOk := w.m == 0, xMask := 0xE3F,
                       fieldsOk := decide (bits w.x 10 9 < 2) && decide (xOrder w < 5) && decide (xScope w < 7) },
     how := fun w => { kind := .rmw, bytes := atomWidth (bits w.x 10 9) / 8, atomic := true, own := false },
     address := fun g c w l => (g.opA c w).val l, stores := true,
     returns := fun w => w.d != 0xE0, result := rmw,
     poisonous := fun g c w => [(w.a, 1, g.opA c w), (w.b, 2, g.opB c w), (w.c, 3, g.opC c w)] }]

end Sys2Proof.Machine

/-- The memory frame: whatever a memory instruction of a plain team comes to, a completion, a wait or a trap, every byte of
memory whose line's copies agree with the directory reads as before, but for the bytes that it stores to, the entries and
records that the hardware writes for its accesses, and the bytes of earlier stores, held in cores' paths or on their way to
other packages, that its order performs. A byte of a line that the issuing core itself holds may also read as that copy has
it. -/
def Obligations.MemoryFrame : Prop :=
  ∀ r ∈ accessRows, ∀ (w : MainWord) (s t : State) (c : Ctx),
    let g := r.sig w
    let as := (checkLanes s c.space (r.how w) (r.address g c w) (cleanLanes (g.opA c w) (c.accessLanes (g.scalarForm c.vector w)))).1
    ((r.make w = .atom w ∨ r.make w = .cas w) → w.x.getLsbD 11 = false) →
    Issues g w s c → c.team.mode = .plain → c.group.retired = false →
    (∀ u ∈ s.cores, ∀ e ∈ u.combining, ∀ x, s.group? e.team e.gid = some x → x.retired = false) → c.team.twin = none → c.origin ≠ 0x50 → (∀ f ∈ c.group.failures, f.cause ≠ 0x0C) →
    (∀ a ∈ as, (s.queueRegister a.x.key).isNone = true) → s.mem.wf = true → exec (r.make w) s = .next t →
    ∀ k, s.dirAgrees (k / 128) → ¬s.heldByte k → ¬s.travelling k → ¬s.hardwareByte c.hub as k → ¬(r.stores = true ∧ covers as (r.how w).bytes k) →
      t.homeByte k = s.homeByte k ∨
      ∃ p ∈ (s.hub c.hub).peers, p.peer = peerNumber c.unit ∧ p.line = k / 128 ∧
        t.homeByte k = p.data.getD (k % 128) (s.mem.read k)

/-! ## Atomics and reservations -/

namespace Sys2Proof.Machine

/-- The type of an atomic's word, and what it makes of the old word in a lane: ATOM (R129). -/
def atomSig (w : MainWord) (scratch : Bool) : Sig :=
  let width := atomWidth (bits w.x 10 9)
  { op := 0x300, form := atomForm w, d := .dstAny width, a := atomAddress scratch, b := .s (.int width false), c := offsetUse,
    memory := true, mOk := atomTyped w.m.toNat (bits w.x 10 9), xMask := 0xE3F,
    fieldsOk := decide (xOrder w < 5) && decide (xScope w < if scratch then 2 else 7) }

/-- CAS (R130). -/
def casSig (w : MainWord) (scratch : Bool) : Sig :=
  let width := atomWidth (bits w.x 10 9)
  { op := 0x301, form := atomForm w, d := .dstAny width, a := atomAddress scratch, b := .s (.int width false),
    c := .s (.int width false), mOk := w.m == 0, xMask := 0xE3F,
    fieldsOk := decide (bits w.x 10 9 < 2) && decide (xOrder w < 5) && decide (xScope w < if scratch then 2 else 7) }

/-- An atomic instruction: its lanes' offset, its value operands, and what it makes of a word. -/
structure AtomRow where
  make : MainWord → Instr
  sig : MainWord → Bool → Sig
  offset : MainWord → Dword
  ops : Sig → Ctx → MainWord → List Opnd
  step : Sig → Ctx → MainWord → AtomStep

/-- R129, R130: ATOM and CAS. -/
def atomRows : List AtomRow := [
  { make := .atom, sig := atomSig, offset := fun w => memOffset w (atomWidth (bits w.x 10 9) / 8),
    ops := fun g c w => [g.opB c w],
    step := fun g c w =>
      { op := w.m.toNat, operand := fun l => toBytes (atomWidth (bits w.x 10 9) / 8) ((g.opB c w).val l).toNat
        new := fun l old => some (atomNew w.m.toNat (atomWidth (bits w.x 10 9)) old ((g.opB c w).val l).toNat)
        fresh := w.m == 8 } },
  { make := .cas, sig := casSig, offset := fun _ => 0, ops := fun g c w => [g.opB c w, g.opC c w],
    step := fun g c w =>
      { op := 0x10
        operand := fun l => toBytes (atomWidth (bits w.x 10 9) / 8) ((g.opB c w).val l).toNat ++
          toBytes (atomWidth (bits w.x 10 9) / 8) ((g.opC c w).val l).toNat
        new := fun l old => if old = ((g.opB c w).val l).toNat then some ((g.opC c w).val l).toNat else none
        fresh := true } }]

end Sys2Proof.Machine

/-- R129 to R131, R323, R447: ATOM and CAS without a fault: each active lane's read-modify-write, in ascending order of the lanes,
on memory at its home or on the scratchpad; the old words go to the destination, and the acquire part and the fence of the order
follow. In a staged team one on memory takes 0x28 where it has a destination, and is staged where it has none (R400).
R129, R130: one lane's read-modify-write at a home of this package reads the word as memory has it and leaves the new one there;
every byte outside the word reads as before. A CAS whose comparison fails writes nothing.
An RMW at another package is asked for, and completes once its answer has come (R426; log 83): nothing stands asked then. That one with
an s or ts destination is made once, and what poison an RMW leaves in memory, are the model's choices (logs 65 and 44). -/
def Obligations.Atomics : Prop :=
  (∀ r ∈ atomRows, ∀ (w : MainWord) (s s1 s3 : State) (c : Ctx),
     let scratch := w.x.getLsbD 11
     let width := atomWidth (bits w.x 10 9)
     let n := width / 8
     let g := r.sig w scratch
     let scalar := g.scalarForm c.vector w
     let a := g.opA c w
     let lanes := c.accessLanes scalar
     let at_ := scratchAddress a (r.offset w)
     let as := checkLanes s c.space { kind := .rmw, bytes := n, atomic := true, own := false } (fun l => a.val l + r.offset w)
       (cleanLanes a lanes)
     let lines := (as.1.map (fun a => lineOfKey a.x.key)).eraseDups
     let acq := fun (s : State) (keys : List Nat) => if acquiresAt (xOrder w) then s.acquirePart c (xScope w) keys else s
     let result := fun (s : State) (vs : List LaneValue) (va : Nat → Dword) =>
       s.modGroup c.tid c.gid (fun x => loadResult c s1.tick x scalar w (.int width false) .general vs va)
     let ends := fun (s2 : State) =>
       let x := s2.settleStores c (xScope w) true
       let end4 := x.1.acquire c.tid c.gid c.group.coreIx (xScope w) c.unit false
       (xOrder w ≠ 4 → s2.asked = [] → exec (r.make w) s = s2.goesOn c w) ∧
       (xOrder w = 4 → x.2 = none → x.1.heldFailures c = [] → end4.asked = [] → exec (r.make w) s = end4.goesOn c w)
     Issues g w s c →
     (scratch = false → c.team.staging = true → w.d ≠ 0xE0 → exec (r.make w) s = s.trapsWith c (c.whole 0x28 0 0)) ∧
     (Fits c scalar w.d width .general → (scratch = true ∨ c.team.staging = false ∨ w.d = 0xE0) → c.guardPoison = 0 →
      (∀ l, c.on l → a.poison l = false ∧ poisonOf (r.ops g c w) l = false) →
      (scratch = false → as.2 = []) →
      (scratch = true → ∀ l ∈ lanes, at_ l % n = 0 ∧ c.scratch.inside (at_ l) n = true) →
      (c.active = 0 → exec (r.make w) s = s.goesOn c w) ∧
      (c.active ≠ 0 → c.awaitsCommit = false → (scratch = true → c.absentLine (lanes.map at_) n = none) →
       s.before c (xOrder w) (xScope w) = .ready s1 →
       (scratch = false → c.stages = true →
        let s2 := stageAtomic s1 c w { sig := g, space := false, width := width, offset := r.offset w, step := fun g c w => r.step g c w,
                                       ops := fun _ => [] } (r.step g c w) as.1
        s2.asked = [] → exec (r.make w) s = s2.goesOn c w) ∧
       (scratch = false → c.stages = false → ∀ s2, s2 = s1.linesReady c lines →
        s2.linesFree c lines = true → s2.roomForKeys (wordKeys n as.1) = true →
        (as.1.any (fun a => a.x.pol == 0) && s2.ownWrites c.tid c.gid) = false →
        (acquiresAt (xOrder w) = false → s3 = s2) →
        (acquiresAt (xOrder w) = true → s2.acquireReady c (xScope w) (as.1.map (fun a => a.x.key)) = .ready s3) →
        let done := as.1.foldl (fun (acc : State × List LaneValue) a =>
          let x := (acc.1.dropL1 c (lineOfKey a.x.key)).rmwLane c (xOrder w) (xScope w) n (r.step g c w) a
          (x.1, acc.2 ++ [x.2])) (s3.touchLanes c .rmw 0 as.1, [])
        ends (result (acq done.1 (as.1.map (fun a => a.x.key))) done.2
          (fun l => ((as.1.find? (fun a => a.lane == l)).map (fun a => a.va)).getD 0))) ∧
       (scratch = true →
        let done := lanes.foldl (fun (acc : Scratchpad × List LaneValue) l =>
          let x := scratchAtomLane acc.1 c.team.pairs n ((r.step g c w).new l) (r.step g c w).fresh l (at_ l)
          (x.1, acc.2 ++ [x.2])) (s1.scratchOf c.tid c.group.coreIx, [])
        ends (result (acq (s1.modScratch c.tid c.group.coreIx (fun _ => done.1)) []) done.2 (fun l => BitVec.ofNat 64 (at_ l))))))) ∧
  (∀ (s : State) (c : Ctx) (order scope n : Nat) (st : AtomStep) (a : LaneAccess),
     localHome a.x.home = true → s.linkError c.hub (lineOfKey a.x.key) = none → a.x.key % 128 + n ≤ 128 → s.mem.wf = true →
     let r := s.rmwLane c order scope n st a
     let old := ofBytes (s.homeBytes a.x.key n)
     let b := st.operand a.lane
     r.2.lane = a.lane ∧ r.2.bytes = s.homeBytes a.x.key n ∧ r.2.origin = s.poisonIn a.x.key n ∧
     (st.op ≠ 0x10 → r.1.homeBytes a.x.key n = toBytes n (atomNew st.op (8 * n) old (ofBytes b))) ∧
     (st.op = 0x10 → b.length = 2 * n → old = ofBytes (b.take n) → r.1.homeBytes a.x.key n = b.drop n) ∧
     (st.op = 0x10 → old ≠ ofBytes (b.take n) → r.1.mem = s.mem ∧ r.1.memPoison = s.memPoison) ∧
     ((st.op = 0x10 → b.length = 2 * n ∧ old = ofBytes (b.take n)) →
       ∀ k, k < a.x.key ∨ a.x.key + n ≤ k → r.1.homeByte k = s.homeByte k))

/-- R132, R133: STC without a fault: in ascending order of the lanes, a lane that holds its reservation stores and takes 0,
another takes 1 and stores nothing; the fence of a seq-cst form follows when a lane has stored.
R400: an LDR or STC of a staged team takes 0x28.
R132, R133: after an LDR a lane holds the reservation of the word, and no other; an STC ends it either way, and stores
exactly when the lane still held it. -/
def Obligations.Reservations : Prop :=
  (∀ (w : MainWord) (s s1 : State) (c : Ctx),
     let g := storeSig 0x303 .byDest (.dstAny 32) w true 6
     let scalar := g.scalarForm c.vector w
     let n := widthBytes w.m
     let a := g.opA c w
     let d := storeData g c w n
     let r := checkLanes s c.space { kind := .write, bytes := n, atomic := true, own := true } (effectiveAddress a w n)
       (cleanLanes a (c.accessLanes scalar))
     let as := r.1.map (fun x => (x, d.bytes n x.lane))
     let s2 := s1.linesReady c (storeLines as)
     let q := as.foldl (fun (acc : State × List (Nat × Bool)) p =>
       let x := acc.1.storeConditional c (xScope w) (xOrder w) n p
       (x.1, acc.2 ++ [(p.1.lane, x.2)])) (s2.touchLanes c .write (xHint w) r.1, [])
     let s3 := q.1.modGroup c.tid c.gid (fun x => writeDest c x scalar w.d 32
       { shape := .general, val := fun l => if (l, true) ∈ q.2 then 0 else 1, poison := fun _ => false })
     let x := s3.settleStores c (xScope w) true
     let end4 := x.1.acquire c.tid c.gid c.group.coreIx (xScope w) c.unit false
     let ldr := loadSig 0x302 w true (xOrder w == 0 || xOrder w == 1 || xOrder w == 4)
     (Issues ldr w s c → c.team.staging = true → exec (.ldr w) s = s.trapsWith c (c.whole 0x28 0 0)) ∧
     (Issues g w s c → c.team.staging = true → exec (.stc w) s = s.trapsWith c (c.whole 0x28 0 0)) ∧
     (Issues g w s c → Fits c scalar w.d 32 .general → r.2 = [] → c.team.staging = false → c.guardPoison = 0 →
      (∀ l, c.on l → a.poison l = false ∧ d.opnd.poison l = false) →
      (c.active = 0 → exec (.stc w) s = s.goesOn c w) ∧
      (c.active ≠ 0 → s.before c (storeOrder (xOrder w)) (xScope w) = .ready s1 →
       s2.linesFree c (storeLines as) = true → s2.roomForKeys (durableKeys as) = true →
       (as.any (fun p => effectivePolicy p.1.x.pol (xHint w) == 0) && s2.ownWrites c.tid c.gid) = false →
       (xOrder w ≠ 4 ∨ (∀ x ∈ q.2, x.2 = false) → s3.asked = [] → exec (.stc w) s = s3.goesOn c w) ∧
       (xOrder w = 4 → (∃ x ∈ q.2, x.2 = true) → x.2 = none → x.1.heldFailures c = [] → end4.asked = [] →
         exec (.stc w) s = end4.goesOn c w)))) ∧
  (∀ (s : State) (c : Ctx) (n scope order : Nat) (p : LaneAccess × List Byte),
     let mine := fun (r : Reservation) => r.team == c.tid && r.gid == c.gid && r.lane == p.1.lane
     let home := homeHub p.1.x.home
     (s.reserve c n p.1).reserved c n p.1 = true ∧
     (∀ h, ((s.reserve c n p.1).hub h).reservations.filter mine =
       if h = home then [{ team := c.tid, gid := c.gid, lane := p.1.lane, address := p.1.x.key, width := n, cycle := s.cycle }] else []) ∧
     (let t := s.storeConditional c scope order n p
      t.2 = (s.reserved c n p.1 && (s.linkError c.hub (lineOfKey p.1.x.key)).isNone) ∧ (∀ h, (t.1.hub h).reservations.filter mine = []) ∧
      (t.2 = false → t.1.mem = s.mem ∧ t.1.memPoison = s.memPoison ∧ t.1.teams = s.teams ∧ t.1.cores = s.cores)))

namespace Sys2Proof.Machine

/-- R109, R364, R372: the trap of an instruction whose lanes meet some causes: the first cause in rank, with the lanes that meet it, every
active one in scalar form, and the values of the lowest of them. -/
def FirstCause (c : Ctx) (scalar : Bool) (fs : List LaneFault) (t : TrapInfo) : Prop :=
  t.pc = c.pos.pc ∧
  (∃ f ∈ fs, t.cause = f.cause ∧ ∀ x ∈ fs, f.rank ≤ x.rank) ∧
  (scalar = true → t.lanes = c.active) ∧
  (scalar = false → ∀ l, l < 64 → (laneBit t.lanes l = true ↔ ∃ f ∈ fs, f.cause = t.cause ∧ f.lane = l)) ∧
  ∃ f ∈ fs, f.cause = t.cause ∧ (∀ x ∈ fs, x.cause = t.cause → f.lane ≤ x.lane) ∧ t.val = f.val ∧ t.val2 = f.val2

/-- R42, R110, R364: a lane meets poison in an operand: its own in a v register, any active lane's in an operand that is common to the
instruction, which every lane of the entry meets. -/
def MeetsPoison (c : Ctx) (o : Byte × Nat × Opnd) (l : Nat) : Prop :=
  (isV o.1 = true ∧ c.on l ∧ o.2.2.poison l = true) ∨
  (isV o.1 = false ∧ laneBit c.entry l = true ∧ ∃ k, k < 64 ∧ c.on k ∧ o.2.2.poison k = true)

/-- R42, R110, R364, R373: an instruction whose guard or operands are poisoned takes a cause before any effect, for the lanes that meet
the poison, with its origin and the field of the first poisoned operand. -/
def TakesPoison (i : Instr) (s : State) (c : Ctx) (cause : Nat) (ops : List (Byte × Nat × Opnd)) : Prop :=
  ∀ l, l < 64 → (laneBit c.guardPoison l = true ∨ ∃ o ∈ ops, MeetsPoison c o l) →
    ∃ t : TrapInfo, exec i s = s.trapsWith c t ∧ t.cause = cause ∧ t.pc = c.pos.pc ∧
      (∀ k, k < 64 → (laneBit t.lanes k = true ↔ laneBit c.guardPoison k = true ∨ ∃ o ∈ ops, MeetsPoison c o k)) ∧
      t.val = c.group.regs.porig.cause.setWidth 64 ∧
      ∀ before o after, ops = before ++ o :: after → (∀ x ∈ before, ∀ k, k < 64 → ¬MeetsPoison c x k) →
        (∃ k, k < 64 ∧ MeetsPoison c o k) → t.val2 = BitVec.ofNat 64 o.2.1

end Sys2Proof.Machine

/-- R42, R109, R110, R131, R132, R364, R372: when a memory instruction traps before any effect: a returning one of a staged team takes
0x28; else the first cause in rank that any active lane meets is taken, with the lanes that meet it; else a store or RMW whose guard,
address or data is poisoned takes poison at store. An instruction whose walk has to read another package's table is taken back
and asks for it (log 83).
R108, R236, R337, R372, R380, R430: the cause that one access meets, from its address and the leaf of its walk, where no cached
translation serves it; one that meets none goes to the byte that the leaf names.
R379: what a walk meets at one level: an absent package or hub, an entry that is not valid, a pointer at the last level, a leaf above
level 2, or one whose page number does not suit its level. That a store takes 0x0C for its guard alone, and that a scalar form reports
every active lane, are the model's choices (log 44). -/
def Obligations.AccessTraps : Prop :=
  (∀ r ∈ accessRows, ∀ (w : MainWord) (s : State) (c : Ctx),
     let g := r.sig w
     let scalar := g.scalarForm c.vector w
     let fs := (checkLanes s c.space (r.how w) (r.address g c w) (cleanLanes (g.opA c w) (c.accessLanes scalar))).2
     ((r.make w = .atom w ∨ r.make w = .cas w) → w.x.getLsbD 11 = false) → Issues g w s c →
     (r.returns w = true → c.team.staging = true → exec (r.make w) s = s.trapsWith c (c.whole 0x28 0 0)) ∧
     ((r.returns w = true → c.team.staging = false) → (∀ x, r.result c w = some x → Fits c scalar w.d x.1 x.2) →
      (fs ≠ [] → (∀ f ∈ fs, f.cause ≠ walkAsks) → ∃ t, FirstCause c scalar fs t ∧ exec (r.make w) s = s.trapsWith c t) ∧
      ((∃ f ∈ fs, f.cause = walkAsks) → ∃ f ∈ fs, f.cause = walkAsks ∧
        exec (r.make w) s = .next (s.underWay c.tid c.gid c.unit c.pos [{ hub := c.hub, line := f.val.toNat, kind := .read false }])) ∧
      (fs = [] → r.stores = true → TakesPoison (r.make w) s c 0x0C (r.poisonous g c w)))) ∧
  (∀ (s : State) (sp : Space) (h : CheckHow) (va : Dword),
     let bad := fun (cause : Nat) (val2 : Dword) => ∃ f, checkAccess s sp h va = .bad f ∧ f.cause = cause ∧ f.val = none ∧ f.val2 = val2
     (va.toNat % h.bytes ≠ 0 → bad 0x25 0) ∧
     (va.toNat % h.bytes = 0 → canonical va = false → bad 0x20 (walkRecord 4 3 h.kind false)) ∧
     ∀ x, va.toNat % h.bytes = 0 → s.cached sp va h.kind = none → (∀ u, sp.tlb = some u → (s.core u).walker = []) →
       walk s sp [] va h.kind = .ok x →
       let e := x.leaf
       let home := s.pteHome e
       let pa := ptePpn e * 4096 + va.toNat % 2 ^ (12 + 9 * x.level)
       let key := memKey home pa
       let noRead := (h.kind = .read ∨ h.kind = .rmw) ∧ pteRd e = false
       let noWrite := (h.kind = .write ∨ h.kind = .rmw) ∧ pteW e = false
       let noTask := sp.kernel = false ∧ pteT e = false
       (s.peerPresent home = false → ∃ f, checkAccess s sp h va = .bad f ∧ f.cause = 0x60) ∧
       (s.peerPresent home = true →
        (pteMode e = 0 → localHome home = false → bad 0x27 1) ∧
        ((pteMode e = 0 → localHome home = true) →
         (pteDur e = true → s.inDurableWindow home pa = false → bad 0x27 2) ∧
         ((pteDur e = true → s.inDurableWindow home pa = true) → h.kind ≠ .fetch →
          (noRead → bad 0x21 (walkRecord x.level 4 h.kind false)) ∧
          (¬noRead → noTask → h.kind ≠ .write → bad 0x21 (walkRecord x.level 5 h.kind false)) ∧
          (¬noRead → (noTask → h.kind = .write) → noWrite → bad 0x22 (walkRecord x.level 4 h.kind true)) ∧
          (¬noWrite → noTask → h.kind = .write → bad 0x22 (walkRecord x.level 5 h.kind true)) ∧
          (¬noRead → ¬noWrite → ¬noTask →
           (∀ pos, s.refusedBy sp home pa (neededRights h.kind) = some pos → bad 0x26 (s.targetWord home pos)) ∧
           (s.refusedBy sp home pa (neededRights h.kind) = none →
            (localHome home = false → (s.hub sp.masterHub).cut = true → bad 0x63 (s.hub sp.masterHub).lclk) ∧
            ((localHome home = false → (s.hub sp.masterHub).cut = false) →
             ((s.queueRegister key).isSome = true → h.atomic = true → bad 0x29 0) ∧
             ((s.queueRegister key).isSome = true → h.atomic = false → h.bytes ≠ 8 → bad 0x25 0) ∧
             ((s.queueRegister key).isSome = false → h.own = true → localHome home = false → bad 0x29 0) ∧
             (((s.queueRegister key).isSome = true → h.atomic = false ∧ h.bytes = 8) →
              ((s.queueRegister key).isSome = false → h.atomic = false ∧ (h.own = true → localHome home = true)) →
              ∃ y, checkAccess s sp h va = .ok y ∧ y.key = key ∧ y.home = home ∧ y.pte = e ∧ y.mode = pteMode e ∧ y.dur = pteDur e)))))))) ∧
  (∀ (s : State) (sp : Space) (va lvl table home : Nat) (k : AccessKind),
     let key := memKey home (table + 8 * (va >>> (12 + 9 * lvl) % 512))
     let e : Dword := BitVec.ofNat 64 (ofBytes (((s.homeLine (lineOfKey key)).drop (key % 128)).take 8))
     let np := fun (reason : Nat) (r : Except XFault Walked) =>
       r = .error { cause := 0x20, rank := 12, val2 := walkRecord lvl reason k false }
     (s.peerPresent home = false → ∃ f, walkEntry s sp va lvl k table home = .error f ∧ f.cause = 0x60) ∧
     (s.peerPresent home = true → localHome home = true → s.linkError sp.masterHub (lineOfKey key) = none →
      (pteV e = true → walkEntry s sp va lvl k table home = .ok (e, key)) ∧
      (pteV e = false → np 0 (walkFrom s sp [] va k lvl table home [])) ∧
      (pteV e = true → isPointer e = true → lvl = 0 → np 1 (walkFrom s sp [] va k lvl table home [])) ∧
      (pteV e = true → isPointer e = true → ∀ n, lvl = n + 1 → walkFrom s sp [] va k lvl table home [] =
        walkFrom s sp [] va k n (ptePpn e * 4096) (s.pteHome e) [(lvl, e, key)]) ∧
      (pteV e = true → isPointer e = false →
        (2 < lvl → np 1 (walkFrom s sp [] va k lvl table home [])) ∧
        (lvl ≤ 2 → ptePpn e % 2 ^ (9 * lvl) ≠ 0 → np 2 (walkFrom s sp [] va k lvl table home [])) ∧
        (lvl ≤ 2 → ptePpn e % 2 ^ (9 * lvl) = 0 →
          walkFrom s sp [] va k lvl table home [] = .ok { leaf := e, level := lvl, key := key, pointers := [] }))))

/-! ## Maintenance, fences and copies -/

/-- R115 to R117: PREF only brings lines nearer: no register, no core's stores, and no byte of memory but those of writes on
their way and of the migration log; WB leaves no dirty copy of a named line in the cores that it reaches; INV takes the named lines from the team's partitions on the core, from the read-only paths and from the RDC as its scope says;
IINV takes them from the instruction caches that it reaches, and nothing else; IFENCE discards what the group has
fetched, once no WB of it is at work. Each completes where nothing of another package is awaited (log 83). -/
def Obligations.Maintenance : Prop :=
  ∀ (w : MainWord) (s : State) (c : Ctx),
    let names := fun (g : Sig) => namesLine s c.space ((g.opA c w).val 0) ((g.opB c w).val 0)
    let asks := fun (g : Sig) => c.namesAsk s ((g.opA c w).val 0) ((g.opB c w).val 0)
    (let g : Sig := { op := 0x282, form := .bySources, a := addressUse, c := offsetUse, memory := true, mOk := w.m == 0,
                      xMask := 0x1C0, fieldsOk := decide (xHint w < 6) }
     let lanes := cleanLanes (g.opA c w) (c.accessLanes (g.scalarForm c.vector w))
     let s1 := lanes.foldl (fun s l => s.prefetch c (xHint w) (effectiveAddress (g.opA c w) w 1) l) s
     Issues g w s c → (s1.asked = [] → exec (.pref w) s = s1.goesOn c w) ∧ s1.cores = s.cores ∧
       (s.mem.wf = true → ∀ k, s.dirAgrees (k / 128) → ¬s.travelling k → ¬s.hardwareByte c.hub [] k → s1.homeByte k = s.homeByte k) ∧
       ∀ tid gid x, s.group? tid gid = some x →
         ∃ x1, s1.group? tid gid = some x1 ∧ x1 = { x with readStamp := x1.readStamp }) ∧
    (let g := maintSig 0x283 5 w
     Issues g w s c → asks g = none → ∃ s1 : State, exec (.wb w) s = s1.goesOn c w ∧
       (c.active ≠ 0 → (∀ e ∈ (s.core c.unit).heldBy c.tid c.gid, s.refusedLate (unitHub c.unit) e.team e.gid e.line 1 e.made.kernel = none) →
         ∃ lines, s1.teams = (s.modGroup c.tid c.gid (fun x => { x with maintenance := lines })).teams) ∧
       (c.active = 0 → s1 = s) ∧
       (c.active ≠ 0 → (∀ e ∈ (s.core c.unit).combining, e.durable = false) →
         (∀ e ∈ (s1.core c.unit).heldBy c.tid c.gid, names g e.line = false) ∧
         ∀ h, ∀ p ∈ (s1.hub h).peers, c.reachesPeer (xScope w) h p.peer = true → names g p.line = true → p.dirty = false)) ∧
    (let g := maintSig 0x284 5 w
     Issues g w s c → asks g = none → ∃ s1 : State, exec (.inv w) s = s1.goesOn c w ∧ (c.active = 0 → s1 = s) ∧
       (c.active ≠ 0 →
         (∀ id, c.unit = .vector id → s1.mem = s.mem ∧ s1.cores = s.cores ∧
           ∀ t ∈ s1.teams, ∀ x ∈ t.cores, x.unit = c.unit → ∀ l ∈ x.l1.lines, names g l.line = false) ∧
         ((∀ id, c.unit ≠ .vector id) → ∀ p ∈ (s1.hub c.hub).peers, p.peer = peerNumber c.unit → names g p.line = false) ∧
         (2 ≤ xScope w → ∀ p ∈ s1.readOnly, p.hub = c.hub → ∀ l ∈ p.lines, names g l.line = false) ∧
         (3 ≤ xScope w → ∀ e ∈ (s1.hub c.hub).rdc, names g e.line = false))) ∧
    (let g := maintSig 0x285 3 w
     Issues g w s c → (∀ x ∈ s.cores, ∀ l ∈ x.icache, c.walksAsk s [max l.va.toNat ((g.opA c w).val 0).toNat] = none) → ∃ s1 : State, exec (.iinv w) s = s1.goesOn c w ∧ s1 = { s with cores := s1.cores } ∧ (c.active = 0 → s1 = s) ∧
       (c.active ≠ 0 → ∀ (i : Nat) (x : Core), s.cores[i]? = some x → ∃ x1 : Core, s1.cores[i]? = some x1 ∧ x1 = { x with icache := x1.icache } ∧
         ∀ l, l ∈ x1.icache ↔ l ∈ x.icache ∧
           ¬(c.reaches (xScope w) x.unit = true ∧ namesCode s c ((g.opA c w).val 0) ((g.opB c w).val 0) l = true))) ∧
    (let g : Sig := { op := 0x286, mOk := w.m == 0 }
     let s1 := if s.maintaining c.unit c.tid c.gid then s.drain c.unit c.tid c.gid else s
     Issues g w s c → s1.maintaining c.unit c.tid c.gid = false → s1.asked = [] →
     exec (.ifence w) s = (s1.modGroup c.tid c.gid (fun x => { x with fetched := [], maintenance := [] })).goesOn c w)

/-- R134 to R137: FENCE and PERSIST, once nothing that they wait for is outstanding and no failure is held, complete with the
acquire of their scope unless they are a release fence alone; PERSIST in a staged team does not wait.
R124, R135, R329: a fence that waits for nothing leaves no copy, no outstanding transaction, no mail and no held store of
its group, and, unless its release part is narrow, no store that its core's path still holds. That such a fence empties the
whole path, and not its group's entries alone, is the model's choice (log 70). -/
def Obligations.Fences : Prop :=
  (∀ (w : MainWord) (s : State) (c : Ctx),
     (let g : Sig := { op := 0x304, mOk := w.m == 0, xMask := 0x03F,
                       fieldsOk := decide (1 ≤ xOrder w ∧ xOrder w ≤ 4) && decide (xScope w < 7) }
      let x := s.settleStores c (if xOrder w = 1 then 0 else xScope w) true
      Issues g w s c → (c.active = 0 → exec (.fence w) s = s.goesOn c w) ∧
       (c.active ≠ 0 → x.2 = none → x.1.heldFailures c = [] → x.1.asked = [] → exec (.fence w) s =
         (if xOrder w = 2 then x.1 else x.1.acquire c.tid c.gid c.group.coreIx (xScope w) c.unit false).goesOn c w)) ∧
     (let g : Sig := { op := 0x305, mOk := w.m == 0, xMask := 0x007, fieldsOk := xScope w == 6 }
      let x := s.settleStores c 5 true
      let ends := fun (s1 : State) => (s1.acquire c.tid c.gid c.group.coreIx 5 c.unit false).goesOn c w
      Issues g w s c → (c.active = 0 → exec (.persist w) s = s.goesOn c w) ∧
       (c.active ≠ 0 → c.team.staging = true → s.heldFailures c = [] → exec (.persist w) s = ends s) ∧
       (c.active ≠ 0 → c.team.staging = false → x.2 = none → x.1.heldFailures c = [] → x.1.asked = [] → exec (.persist w) s = ends x.1))) ∧
  (∀ (s s1 : State) (c : Ctx) (scope : Nat), s.settleStores c scope true = (s1, none) →
     (∀ x ∈ c.team.copies, x.gid ≠ c.gid) ∧ (∀ x ∈ s1.txns, ¬(x.team = c.tid ∧ x.gid = c.gid)) ∧
     (∀ m ∈ s1.mails, ¬(m.team = c.tid ∧ m.gid = c.gid)) ∧ (s1.core c.unit).heldBy c.tid c.gid = [] ∧
     (c.team.narrow scope = false → (s1.core c.unit).combining = []))

namespace Sys2Proof.Machine

/-- What issue makes of a copy that has passed its checks (R121, R122): an arrival at once when it has no bytes, else a copy
that the engine starts. -/
def CopyIssues (i : Instr) (w : MainWord) (s : State) (c : Ctx) (x : Copy) : Prop :=
  (c.active = 0 → exec i s = s.goesOn c w) ∧
  (c.active ≠ 0 → c.awaitsCommit = false → s.copyFull c = false →
    (0 < x.rows * x.rowBytes → exec i s = (s.startCopy c x).goesOn c w) ∧
    (x.rows * x.rowBytes = 0 → w.d.getLsbD 6 = false → exec i s = s.goesOn c w) ∧
    (x.rows * x.rowBytes = 0 → w.d.getLsbD 6 = true → (s.arriveAt c.tid (bits w.d 5 0) none none).asked = [] →
      exec i s = (s.arriveAt c.tid (bits w.d 5 0) none none).goesOn c w))

end Sys2Proof.Machine

/-- R121 to R123: CPY and CPYW whose operands are clean and aligned, with their scratchpad side inside the allocation, issue their copy, of one row or of
rows with pitches, from an index list where they have one. -/
def Obligations.Copies : Prop :=
  ∀ (w : MainWord) (s : State) (c : Ctx),
    let within := bits w.m 1 0 == 2
    let noMisuse := w.d.getLsbD 6 = true → barMisuse s c (bits w.d 5 0) = false
    let by16 := fun (v : Dword) => v.toNat % 16 = 0
    (let g : Sig := { op := 0x293, inS := false, d := .form 0x7F,
                      a := .src (if within then tN32 else tN64) isUniform, b := .src tN32 isUniform, c := .src tN32 countCode,
                      mOk := decide (w.m.toNat < 3), xMask := 0x1C0, fieldsOk := decide (xHint w < 6) }
     let a := (g.opA c w).val 0
     let b := (g.opB c w).val 0
     let n := (g.opC c w).val 0
     let spad := (if within then a else b).toNat
     Issues g w s c → noMisuse → by16 a → by16 b → by16 n → n.toNat ≤ 2 ^ 24 →
     (n ≠ 0 → c.scratch.inside spad n.toNat = true) → c.guardPoison = 0 →
     (∀ l, c.on l → (g.opA c w).poison l = false ∧ (g.opB c w).poison l = false ∧ (g.opC c w).poison l = false) →
     CopyIssues (.cpy w) w s c { c.copy w with rowBytes := n.toNat, globalBase := if within then b else a, scratchBase := spad }) ∧
    (let idx := bits w.m 3 2 == 1
     let g : Sig := { op := 0x294, inS := false, d := .form 0x7F, a := .src tN64 windowCode,
                      b := .src tN32 (fun x => if idx then isUniform x else x == 0xE0)
                      mOk := decide (w.m.toNat < 8) && bits w.m 1 0 != 3, xMask := 0x1C0, fieldsOk := decide (xHint w < 6) }
     let r := fun (i : Nat) => c.group.regs.s (w.a.toNat - 0x80 + i)
     let base := if within then zextDword 32 (r 0).value else (r 0).value
     let p := bits (r 1).value 31 0
     let q := bits (r 1).value 63 32
     let wb := bits (r 3).value 23 0
     let n := bits (r 3).value 47 24
     let list := ((g.opB c w).val 0).toNat
     let x : Copy := { c.copy w with rows := n, rowBytes := wb, globalBase := base, globalPitch := (r 2).value, scratchBase := p,
                                     scratchPitch := q, indexList := if idx then some list else none }
     Issues g w s c → noMisuse → bits (r 3).value 63 48 = 0 → by16 base → p % 16 = 0 → by16 (r 2).value → q % 16 = 0 →
     wb % 16 = 0 → 0 < wb → 0 < n → (idx = true → list % 4 = 0 ∧ c.scratch.inside list (4 * n) = true) →
     (∀ i, i < n → c.scratch.inside (p + q * i) wb = true) → c.guardPoison = 0 →
     (∀ l, c.on l → (g.opB c w).poison l = false) → (∀ i, i < 4 → (r i).poison = false) →
     CopyIssues (.cpyw w) w s c x)

/-- R126 to R128: PUBL declares a paired buffer, exchanges its halves once no copy of the group goes into its shadow and no WB of
it is at work (R313), and frees it; nothing but the team's slots changes. -/
def Obligations.PairedBuffers : Prop :=
  ∀ (w : MainWord) (s : State) (c : Ctx),
    let n := bits w.c 2 0
    let ends := fun (i : Instr) (q : Option PairSlot) => exec i s = (s.modTeam c.tid (fun t => t.setPair n q)).goesOn c w
    (let g : Sig := { op := 0x295, inS := false, a := .src tN32 isUniform, b := .src tN32 isUniform, c := .form 0x07,
                      mOk := w.m == 0 }
     let a := ((g.opA c w).val 0).toNat
     let b := ((g.opB c w).val 0).toNat
     Issues g w s c → (c.active = 0 → exec (.publDecl w) s = s.goesOn c w) ∧
      (c.active ≠ 0 → a % 128 = 0 → b % 128 = 0 → b ≠ 0 → c.scratch.inside a (2 * b) = true → c.team.pairOverlap n a b = false →
        (∀ q, c.team.pair n = some q → ∀ x ∈ c.team.copies, x.intoShadow q = false) →
        ends (.publDecl w) (some { base := a, size := b, side := false }))) ∧
    (let g : Sig := { op := 0x295, inS := false, c := .form 0x07, mOk := w.m == 1 }
     Issues g w s c → (c.active = 0 → exec (.publSwap w) s = s.goesOn c w) ∧
      ∀ q, c.active ≠ 0 → c.team.pair n = some q → (∀ x ∈ c.team.copies, x.gid = c.gid → x.intoShadow q = false) →
        s.maintaining c.unit c.tid c.gid = false → ends (.publSwap w) (some { q with side := !q.side })) ∧
    (let g : Sig := { op := 0x295, inS := false, c := .form 0x07, mOk := w.m == 2 }
     Issues g w s c → (c.active = 0 → exec (.publFree w) s = s.goesOn c w) ∧
      (c.active ≠ 0 → (c.team.pair n).isSome = true → ends (.publFree w) none))

/-! ## Barriers -/

/-- R138, R139: BARI, BARA, BARW, BARS and BARQ on a barrier that the group may use: an expected count, an arrival after a
release at team scope, a wait that acquires, an arrival that is the last of its generation and does not wait, and the
query.
R138: an arrival adds 1; the one that reaches the expected count ends the generation, whose number moves on while the
arrivals start again at 0. A group's arrival is recorded with the generation it arrived in. -/
def Obligations.Barriers : Prop :=
  (∀ (w : MainWord) (s s1 : State) (c : Ctx),
     let n := bits w.c 5 0
     let acquired := fun (s : State) => (s.acquire c.tid c.gid c.group.coreIx 1 c.unit false).goesOn c w
     let arrived := s1.arriveAt c.tid n (some c.gid) (some (c.arrivedRegs w))
     let ready := c.active ≠ 0 ∧ barMisuse s c n = false
     (let g := barSig 0x310 .unused (.src tN32 isUniform) w
      let a := (loWord ((g.opA c w).val (lowestLane c.active))).toNat
      Issues g w s c → (c.active = 0 → exec (.bari w) s = s.goesOn c w) ∧
       (ready → (c.team.barrier n).arrivals = 0 → 1 ≤ a → a ≤ 1024 → exec (.bari w) s =
         (s.modTeam c.tid (fun t => t.modBarrier n (fun b => { b with expected := a, arrivals := 0 }))).goesOn c w)) ∧
     (Issues (barSig 0x311 .unused .unused w) w s c → (c.active = 0 → exec (.bara w) s = s.goesOn c w) ∧
       (ready → c.team.opening n = false → s.release c 1 false = .ready s1 → (c.team.barrier n).reord = [] → arrived.asked = [] →
         exec (.bara w) s = arrived.goesOn c w)) ∧
     (Issues (barSig 0x312 .unused .unused w) w s c → (c.active = 0 → exec (.barw w) s = s.goesOn c w) ∧
       (ready → s.team? c.tid = some c.team → c.team.group? c.gid = some c.group →
         ((c.group.arrGen[n]?).getD none = none → exec (.barw w) s = s.goesOn c w) ∧
         (∀ gen, (c.group.arrGen[n]?).getD none = some gen → gen ≠ (c.team.barrier n).gen → exec (.barw w) s = acquired s))) ∧
     (Issues (barSig 0x313 .unused .unused w) w s c → (c.active = 0 → exec (.bars w) s = s.goesOn c w) ∧
       (ready → c.team.opening n = false → s.release c 1 false = .ready s1 → (c.team.barrier n).reord = [] → arrived.asked = [] →
         ∀ t g gen, arrived.team? c.tid = some t → t.group? c.gid = some g → (g.arrGen[n]?).getD none = some gen →
           gen ≠ (t.barrier n).gen → exec (.bars w) s = acquired arrived)) ∧
     (Issues (barSig 0x314 (.dst 64 statusCode) .unused w) w s c → (c.active = 0 → exec (.barq w) s = s.goesOn c w) ∧
       (ready →
         let b := c.team.barrier n
         exec (.barq w) s = (c.put s (writeScalar c.group w.d
           (BitVec.ofNat 64 (b.arrivals % 65536 + b.expected % 65536 * 2 ^ 16 + b.gen.toNat * 2 ^ 32))
           (decide (c.guardPoison ≠ 0)))).goesOn c w))) ∧
  (∀ (s : State) (t : Team) (n : Nat) (gid : Option Nat) (regs : Option GroupRegs),
     s.team? t.id = some t → t.mode = .plain → (t.barrier n).reord = [] → n < t.barriers.length →
     ∃ t1, (s.arriveAt t.id n gid regs).team? t.id = some t1 ∧
       (t1.barrier n).expected = (t.barrier n).expected ∧
       (∀ m, m ≠ n → t1.barrier m = t.barrier m) ∧
       (if (t.barrier n).expected ≤ (t.barrier n).arrivals + 1 then
         (t1.barrier n).gen = (t.barrier n).gen + 1 ∧ (t1.barrier n).arrivals = 0
        else (t1.barrier n).gen = (t.barrier n).gen ∧ (t1.barrier n).arrivals = (t.barrier n).arrivals + 1) ∧
       ∀ i g, gid = some i → t.group? i = some g → n < g.arrGen.length →
         ∃ g1, t1.group? i = some g1 ∧ g1.regs = g.regs ∧ g1.arrGen[n]? = some (some (t.barrier n).gen))

/-! ## Control flow -/

namespace Sys2Proof.Machine

/-- Where a control instruction takes the lanes of its entry (R57): the active ones to their targets, the others to the
fall-through address at the priority of field B, all at given depths. -/
def lanesTo (c : Ctx) (w : MainWord) (target : Nat → LanePos) (l : Nat) : Option LanePos :=
  if laneBit c.active l then some (target l)
  else if laneBit c.entry l then some { pc := fallPc c w, pri := w.b, depth := c.pos.depth }
  else none

/-- A transfer completes with the effects of s1: the lanes move, and those that reach a target are marked so (R20). -/
def Transfers (i : Instr) (s s1 : State) (c : Ctx) (w : MainWord) (target : Nat → LanePos) : Prop :=
  exec i s = .next (s1.advance c (lanesTo c w target) c.active (if laneBit c.active 0 then some (target 0).pc else none)).answersUsed

/-- R61: a link word: the return address without its two low bits, and the return priority. -/
def linkOf (pc : Dword) (fp : Byte) : Dword := BitVec.ofNat 64 (bits pc 56 2) ||| BitVec.ofNat 64 (fp.toNat * 2 ^ 55)

end Sys2Proof.Machine

/-- R57 to R63: NOP goes on; BRA and BRX transfer; CALL and CALLX write the link word and go one call deeper; RET takes the
address and priority of the link word and comes back. No guard or operand is poisoned, and the depth allows it.
R61, R63: a RET through the link word of a call comes back to the return address, at the priority that the call gave. -/
def Obligations.ControlTransfers : Prop :=
  (∀ (w : MainWord) (s : State) (c : Ctx),
     let near := c.pos.pc + ((imm20 w).signExtend 64 <<< 2)
     (let g : Sig := { op := 0x340, mOk := w.m == 0 }
      Issues g w s c → c.guardPoison = 0 → exec (.nop w) s = s.goesOn c w) ∧
     (let g : Sig := { op := 0x341, d := .form 0xFF, b := .form 0xFF, mOk := w.m == 0, branch := true }
      Issues g w s c → c.guardPoison = 0 →
      Transfers (.bra w) s s c w (fun _ => { pc := near, pri := w.d, depth := c.pos.depth })) ∧
     (let g : Sig := { op := 0x342, d := .form 0xFF, a := .src tN64 isAddress, b := .form 0xFF, mOk := w.m == 0 }
      let a := g.opA c w
      Issues g w s c → c.guardPoison = 0 → (∀ l, c.on l → a.poison l = false) →
      Transfers (.brx w) s s c w (fun l => { pc := a.val l, pri := w.d, depth := c.pos.depth })) ∧
     (let g : Sig := { op := 0x343, d := .form 0xFF, a := .dstAny 64, b := .form 0xFF, mOk := w.m == 0, branch := true }
      Issues g w s c → c.guardPoison = 0 → c.pos.depth ≠ 255 →
      Fits c false w.a 64 (if c.partialWrite then .general else .uniform) →
      (c.active = 0 → Transfers (.call w) s s c w (fun _ => { pc := near, pri := w.d, depth := c.pos.depth + 1 })) ∧
      (c.active ≠ 0 → ∃ g1, Wrote c c.group g1 (!isV w.a) w.a 64 (fun _ => linkOf (fallPc c w) w.b) (fun _ => false) ∧
        Transfers (.call w) s (c.put s g1) c w (fun _ => { pc := near, pri := w.d, depth := c.pos.depth + 1 }))) ∧
     (let g : Sig := { op := 0x344, d := .form 0xFF, a := .src tN64 isAddress, b := .form 0xFF, c := .dstAny 64, mOk := w.m == 0 }
      let a := g.opA c w
      Issues g w s c → c.guardPoison = 0 → (∀ l, c.on l → a.poison l = false) → c.pos.depth ≠ 255 →
      Fits c false w.c 64 (if c.partialWrite then .general else .uniform) →
      (c.active = 0 → Transfers (.callx w) s s c w (fun l => { pc := a.val l, pri := w.d, depth := c.pos.depth + 1 })) ∧
      (c.active ≠ 0 → ∃ g1, Wrote c c.group g1 (!isV w.c) w.c 64 (fun _ => linkOf (fallPc c w) w.b) (fun _ => false) ∧
        Transfers (.callx w) s (c.put s g1) c w (fun l => { pc := a.val l, pri := w.d, depth := c.pos.depth + 1 }))) ∧
     (let g : Sig := { op := 0x345, a := .s tN64, b := .form 0xFF, mOk := w.m == 0, imm := true }
      let a := g.opA c w
      Issues g w s c → c.guardPoison = 0 → (∀ l, c.on l → a.poison l = false) → (c.active = 0 ∨ c.pos.depth ≠ 0) →
      Transfers (.ret w) s s c w (fun l =>
        { pc := sextDword 57 (BitVec.ofNat 64 (bits (a.val l) 54 0 * 4)), pri := BitVec.ofNat 8 (bits (a.val l) 62 55),
          depth := c.pos.depth - 1 }))) ∧
  (∀ (pc : Dword) (fp : Byte), pc.toNat % 4 = 0 → sextDword 57 pc = pc →
     sextDword 57 (BitVec.ofNat 64 (bits (linkOf pc fp) 54 0 * 4)) = pc ∧
     BitVec.ofNat 8 (bits (linkOf pc fp) 62 55) = fp)

/-- R65, R66, R67: EXIT ends the active lanes, and with the last live lane its group retires, but the one by which a scalar core
that handles cause 0x70 ends its residence (R391); YIELD moves its lanes on and
holds its group back for 8 or 32 cycles; LOOP opens a level, or passes over a body with count 0.
R68: in the S profile an arrival at the end of the innermost body, from inside it or by an ERET, starts the next iteration, or ends
the level after the last one; the next level out is checked at the same end at once. That an ERET's target is such an arrival, and that
a LOOP at depth 0 ends the suspension, are the model's choices (log 41).
R69: a transfer into the innermost body keeps the loop, one to its end from inside it is an arrival, and any other pops the level and
looks at the next one out. -/
def Obligations.ExitYieldLoop : Prop :=
  (∀ (w : MainWord) (s : State) (c : Ctx), c.guardPoison = 0 →
     (let g : Sig := { op := 0x346, mOk := w.m == 0 }
      let left := s.modGroup c.tid c.gid (fun x => { x with
        regs := { x.regs with live := x.regs.live &&& ~~~c.active }
        ldep := if c.active ≠ 0 ∧ x.profile = .S then 0 else x.ldep })
      let s2 := left.advance c (fun l => if laneBit c.active l then none else fallThrough c w l) 0 none
      let saves := c.active ≠ 0 ∧ c.team.cls = .scalar ∧ c.group.handling.isSome = true ∧ c.kernel = true
      Issues g w s c → (saves → exec (.exit w) s = .next (s.endResidence c.tid c.gid).answersUsed) ∧ (¬saves →
      ∀ x, s2.group? c.tid c.gid = some x →
       (x.regs.live ≠ 0 → exec (.exit w) s = .next s2.answersUsed) ∧
       (x.regs.live = 0 → exec (.exit w) s = .next (s2.retireGroup c.tid c.gid).answersUsed ∧
         ∀ y, (s2.retireGroup c.tid c.gid).group? c.tid c.gid = some y → y.retired = true ∧ y.mailboxes = [] ∧ y.regs.tiles = none))) ∧
     (let g : Sig := { op := 0x347, b := .form 0xFF, mOk := w.m == 0 }
      Issues g w s c → exec (.yield w) s = .next ((s.modGroup c.tid c.gid (fun x => { x with
          yieldUntil := if c.active = 0 then x.yieldUntil else s.cycle + (if c.vector then 8 else 32) })).advance c
        (fun l => if laneBit c.active l then some { pc := fallPc c w, pri := w.b, depth := c.pos.depth } else fallThrough c w l) 0 none).answersUsed) ∧
     (let g : Sig := { op := 0x348, inV := false, a := .src tN32 loopCount, mOk := w.m == 0, branch := true }
      let start := fallPc c w
      let stop := c.pos.pc + ((imm20 w).signExtend 64 <<< 2)
      let n := loWord ((g.opA c w).val 0)
      Issues g w s c → (c.active = 0 → exec (.loop w) s = s.goesOn c w) ∧
       (c.active ≠ 0 → c.group.ldep < 3 → start.toNat < stop.toNat → stop.toNat - start.toNat ≤ 2048 →
         (c.group.ldep ≠ 0 → c.group.trap.lsus = false ∧
           ∃ v, c.group.loops[c.group.ldep - 1]? = some v ∧ stop.toNat ≤ v.lend.toNat) →
         (n = 0 → exec (.loop w) s =
           .next (s.advance c (fun l => if laneBit c.entry l then some { c.pos with pc := stop } else none) 0 none).answersUsed) ∧
         (n ≠ 0 → exec (.loop w) s = (s.modGroup c.tid c.gid (fun x => { x with
           loops := x.loops.set x.ldep { cnt := n, sta := start, lend := stop }, ldep := x.ldep + 1
           trap := { x.trap with lsus := false } })).goesOn c w)))) ∧
  (∀ (loops : List LoopLevel) (origin : Option Dword) (d : Nat) (pc : Dword) (v : LoopLevel), loops[d]? = some v →
     let ends := v.lend = pc ∧ ∀ a, origin = some a → v.body a = true
     (ends → 1 < v.cnt.toNat → arrive loops origin (d + 1) pc = (loops.set d { v with cnt := v.cnt - 1 }, d + 1, v.sta)) ∧
     (ends → v.cnt.toNat ≤ 1 → arrive loops origin (d + 1) pc = arrive loops origin d pc) ∧
     (¬ends → arrive loops origin (d + 1) pc = (loops, d + 1, pc)) ∧ arrive loops origin 0 pc = (loops, 0, pc)) ∧
  (∀ (loops : List LoopLevel) (from_ : Dword) (d : Nat) (target : Dword) (v : LoopLevel), loops[d]? = some v →
     let keeps := v.body target = true ∨ (target = v.lend ∧ v.body from_ = true)
     (keeps → popLoops loops from_ (d + 1) target = d + 1) ∧
     (¬keeps → popLoops loops from_ (d + 1) target = popLoops loops from_ d target) ∧ popLoops loops from_ 0 target = 0)

namespace Sys2Proof.Machine

/-- A control instruction with the operands whose poison it takes as 0x0D, and what it checks ahead of them. -/
structure ControlRow where
  make : MainWord → Instr
  sig : MainWord → Sig
  ops : Sig → Ctx → MainWord → List (Byte × Nat × Opnd)
  /-- A check ahead of the poison: the call depth (R62), depth zero (R63), and the link register's shape (R41). -/
  ready : Sig → Ctx → MainWord → Bool

/-- R58 to R66: the control instructions. -/
def controlRows : List ControlRow := [
  { make := .nop, sig := fun w => { op := 0x340, mOk := w.m == 0 }, ops := fun _ _ _ => [], ready := fun _ _ _ => true },
  { make := .bra, sig := fun w => { op := 0x341, d := .form 0xFF, b := .form 0xFF, mOk := w.m == 0, branch := true },
    ops := fun _ _ _ => [], ready := fun _ _ _ => true },
  { make := .brx, sig := fun w => { op := 0x342, d := .form 0xFF, a := .src tN64 isAddress, b := .form 0xFF, mOk := w.m == 0 },
    ops := fun g c w => [(w.a, 1, g.opA c w)], ready := fun _ _ _ => true },
  { make := .call, sig := fun w => { op := 0x343, d := .form 0xFF, a := .dstAny 64, b := .form 0xFF, mOk := w.m == 0, branch := true },
    ops := fun _ _ _ => [],
    ready := fun _ c w => decide ((c.active ≠ 0 → c.pos.depth ≠ 255) ∧ Fits c false w.a 64 (if c.partialWrite then .general else .uniform)) },
  { make := .callx,
    sig := fun w => { op := 0x344, d := .form 0xFF, a := .src tN64 isAddress, b := .form 0xFF, c := .dstAny 64, mOk := w.m == 0 },
    ops := fun g c w => [(w.a, 1, g.opA c w)],
    ready := fun _ c w => decide ((c.active ≠ 0 → c.pos.depth ≠ 255) ∧ Fits c false w.c 64 (if c.partialWrite then .general else .uniform)) },
  { make := .ret, sig := fun w => { op := 0x345, a := .s tN64, b := .form 0xFF, mOk := w.m == 0, imm := true },
    ops := fun g c w => [(w.a, 1, g.opA c w)], ready := fun _ c _ => decide (c.active ≠ 0 → c.pos.depth ≠ 0) },
  { make := .exit, sig := fun w => { op := 0x346, mOk := w.m == 0 }, ops := fun _ _ _ => [], ready := fun _ _ _ => true },
  { make := .yield, sig := fun w => { op := 0x347, b := .form 0xFF, mOk := w.m == 0 }, ops := fun _ _ _ => [], ready := fun _ _ _ => true }]

end Sys2Proof.Machine

/-- R42, R62, R63, R67, R69, R364, R373: when a control instruction traps before any effect: a poisoned guard or operand is poison at
branch; a call at depth 255 overflows, with the target of the lowest active lane; a return at depth 0 traps with its link word; a LOOP
beyond three levels, with a body that is empty, too long or outside its outer one, or while loops are suspended with levels open takes
the hardware loop fault. The model's choice: the loop fault comes ahead of a poisoned guard (log 19). -/
def Obligations.ControlTraps : Prop :=
  ∀ (w : MainWord) (s : State) (c : Ctx),
    (∀ r ∈ controlRows, let g := r.sig w
     Issues g w s c → r.ready g c w = true → TakesPoison (r.make w) s c 0x0D (r.ops g c w)) ∧
    (let g : Sig := { op := 0x343, d := .form 0xFF, a := .dstAny 64, b := .form 0xFF, mOk := w.m == 0, branch := true }
     Issues g w s c → c.active ≠ 0 → c.pos.depth = 255 →
     exec (.call w) s = s.trapsWith c (c.whole 0x0E (c.pos.pc + ((imm20 w).signExtend 64 <<< 2)) 0)) ∧
    (let g : Sig := { op := 0x344, d := .form 0xFF, a := .src tN64 isAddress, b := .form 0xFF, c := .dstAny 64, mOk := w.m == 0 }
     Issues g w s c → c.active ≠ 0 → c.pos.depth = 255 →
     exec (.callx w) s = s.trapsWith c (c.whole 0x0E ((g.opA c w).val (lowestLane c.active)) 0)) ∧
    (let g : Sig := { op := 0x345, a := .s tN64, b := .form 0xFF, mOk := w.m == 0, imm := true }
     Issues g w s c → c.active ≠ 0 → c.pos.depth = 0 →
     exec (.ret w) s = s.trapsWith c (c.whole 0x0F ((g.opA c w).val (lowestLane c.active)) 0)) ∧
    (let g : Sig := { op := 0x348, inV := false, a := .src tN32 loopCount, mOk := w.m == 0, branch := true }
     let start := fallPc c w
     let stop := c.pos.pc + ((imm20 w).signExtend 64 <<< 2)
     let x := c.group
     let bad := x.ldep = 3 ∨ stop.toNat ≤ start.toNat ∨ 2048 < stop.toNat - start.toNat ∨ (x.trap.lsus = true ∧ x.ldep ≠ 0) ∨
       ∃ n v, x.ldep = n + 1 ∧ x.loops[n]? = some v ∧ v.lend.toNat < stop.toNat
     Issues g w s c →
     (bad → (c.active ≠ 0 ∨ c.guardPoison ≠ 0) → exec (.loop w) s = s.trapsWith c (c.whole 0x07 (BitVec.ofNat 64 x.ldep) stop)) ∧
     (¬bad → TakesPoison (.loop w) s c 0x0D []))

/-- R57, R204, R408: what completing an instruction changes beside its effects: the lanes that move have their new positions, the
entry's waits end, and nothing else that the instruction could observe changes: no register, predicate, mailbox or control
register, no other group, and nothing of memory, cores or hubs but the patrol counts.
R68, R69: in the S profile, while loops are not suspended, a transfer first pops the levels that it leaves; an arrival at the end of
the innermost body then starts the next iteration or ends the level. In the V profile no loop state changes. -/
def Obligations.CompletionFrame : Prop :=
  ∀ (s : State) (c : Ctx) (pos : Nat → Option LanePos) (taken : Dword) (target : Option Dword) (t : Team) (g : Group),
    s.team? c.tid = some t → t.group? c.gid = some g → (g.profile = .S → g.regs.pos ≠ []) →
    let s1 := s.advance c pos taken target
    let looping := g.profile = .S ∧ g.trap.lsus = false
    let depth := match target with
      | some x => if looping ∧ 0 < g.ldep then popLoops g.loops c.pos.pc g.ldep x else g.ldep
      | none => g.ldep
    let r := arrive g.loops (some c.pos.pc) depth ((pos 0).getD (g.regs.at 0)).pc
    let loops := looping ∧ 0 < depth
    (∃ t1 g1, s1.team? c.tid = some t1 ∧ t1.group? c.gid = some g1 ∧
      t1 = { t with groups := t1.groups, patrolCount := t1.patrolCount } ∧
      (∀ gid, gid ≠ c.gid → t1.group? gid = t.group? gid) ∧
      g1 = { g with regs := { g.regs with pos := g1.regs.pos }, waits := g1.waits, byTarget := g1.byTarget, ages := g1.ages,
                    issuedAt := g1.issuedAt, patrolCount := g1.patrolCount, loops := g1.loops, ldep := g1.ldep } ∧
      (loops → g1.loops = r.1 ∧ g1.ldep = r.2.1) ∧ (¬loops → g1.loops = g.loops ∧ g1.ldep = depth) ∧
      (∀ x ∈ g1.waits, x ∈ g.waits ∧ ¬(x.entry = c.pos ∧ x.kernel = g.kernel)) ∧
      (∀ l p, g.regs.pos[l]? = some p → g1.regs.pos[l]? =
        some (if loops ∧ l = 0 then { (pos l).getD p with pc := r.2.2 } else (pos l).getD p)) ∧
      g1.byTarget = (g.byTarget &&& ~~~c.entry) ||| taken) ∧
    (∀ tid, tid ≠ c.tid → s1.team? tid = s.team? tid) ∧
    s1 = { s with teams := s1.teams, hub0 := s1.hub0, hub1 := s1.hub1 } ∧
    ∀ h, s1.hub h = { s.hub h with queues := (s1.hub h).queues }

/-! ## Traps -/

namespace Sys2Proof.Machine

/-- An instruction that writes a v register: what the checks know of it, the code of its destination and its width, the shape of what
it writes, and what else must hold for it to reach the check of shapes. -/
structure ShapeRow where
  make : MainWord → Instr
  sig : MainWord → Sig
  width : MainWord → Nat
  shape : Sig → Ctx → MainWord → Shape
  code : MainWord → Byte := fun w => w.d
  scalar : Sig → Ctx → MainWord → Bool := fun g c w => g.scalarForm c.vector w
  ready : Ctx → MainWord → Bool := fun _ _ => true

/-- A result that is uniform when it is not partial, and the shape of a load's result (R41, R111). -/
def uniformUnlessPartial (c : Ctx) : Shape := if c.partialWrite then .general else .uniform
def loadedShape (c : Ctx) (aCode : Byte) (hint : Nat) : Shape := if c.partialWrite then .general else loadShape aCode hint

/-- R41, R52 to R55: integer instructions, selection and moves. -/
def shapeRowsInt : List ShapeRow :=
  intRows.map (fun r =>
    { make := r.make, sig := r.sig, width := fun w => (mTy w).width
      shape := fun g c w =>
        writtenShape c [g.opA c w, g.opB c w] (if (mTy w).width = 32 then r.affine (g.opA c w) (g.opB c w) else none) }) ++
  intOneRows.map (fun r =>
    { make := r.make, sig := r.sig, width := fun w => (mTy w).width, shape := fun g c w => writtenShape c [g.opA c w] none }) ++
  intThreeRows.map (fun r =>
    { make := r.make, sig := r.sig, width := fun w => (mTy w).width
      shape := fun g c w => writtenShape c [g.opA c w, g.opB c w, g.opC c w] none }) ++
  [{ make := .sel, sig := fun w => { op := 0x022, form := .byDest, d := .dstAny (mTy w).width, a := .s (mTy w), b := .s (mTy w),
                                     c := .form 0x07, mOk := decide (w.m.toNat < 8) }, width := fun w => (mTy w).width,
     shape := fun g c w =>
       let p := c.group.regs.p (bits w.c 2 0)
       if c.partialWrite = false ∧ (g.opA c w).shape = .uniform ∧ (g.opB c w).shape = .uniform ∧
         (c.active &&& p = 0 ∨ c.active &&& ~~~p = 0) then .uniform else .general },
   { make := .mov, sig := fun w => { op := 0x023, form := .byDest, d := .dstAny (movTy w.m.toNat).width,
                                     a := .src (movTy w.m.toNat) (fun code => !(w.m == 8 || w.m == 9) || code != 0xFC),
                                     mOk := decide (w.m.toNat < 10), imm := true }, width := fun w => (movTy w.m.toNat).width,
     shape := fun g c w =>
       let a := g.opA c w
       writtenShape c [a] (if (movTy w.m.toNat).width = 32 ∧ a.shape = .affine then some (a.base, a.stride) else none) },
   { make := .lea, sig := fun w => { op := 0x025, form := .byDest, d := .dstAny 64, a := .s tN64, b := .s (mTy w), c := .form 0x07,
                                     mOk := decide (w.m.toNat < 4) }, width := fun _ => 64,
     shape := fun g c w => writtenShape c [g.opA c w, g.opB c w] none }]

/-- R75: floating-point and conversion results. -/
def shapeRowsFloat : List ShapeRow :=
  floatRows.map (fun r =>
    { make := r.make, sig := r.sig, width := fun w => (r.ty w).width, shape := fun g c w => writtenShape c (r.srcs g c w) none }) ++
  dotRows.map (fun r => { make := r.make, sig := fun w => if bits w.m 1 0 = 2 then { r.sig w with c := .s (.int 32 true) } else r.sig w,
                          width := fun _ => 32, shape := fun g c w => writtenShape c (r.srcs g c w) none }) ++
  [{ make := .fabs, sig := fun w => floatSig 0x086 w false false true, width := fun w => (mFmt w).width,
     shape := fun g c w => writtenShape c [g.opA c w] none },
   { make := .fneg, sig := fun w => floatSig 0x087 w false false true, width := fun w => (mFmt w).width,
     shape := fun g c w => writtenShape c [g.opA c w] none },
   { make := .fclass, sig := fun w => { floatSig 0x08B w false false true with d := .dstAny 32 }, width := fun _ => 32,
     shape := fun g c w => writtenShape c [g.opA c w] none },
   { make := .cvt, sig := fun w => cvtSig 0x100 w false (decide (w.m.toNat < 8)),
     width := fun w => if (cvtFmt (bits w.x 4 0)).width = 64 then 64 else 32, shape := fun g c w => writtenShape c [g.opA c w] none },
   { make := .cvts,
     sig := fun w =>
       let g0 := cvtSig 0x101 w true (w.m == 0 || w.m == 4)
       { g0 with fieldsOk := g0.fieldsOk && !(cvtFmt (bits w.x 9 5)).isInt &&
                   decide ((cvtFmt (bits w.x 4 0)).width < (cvtFmt (bits w.x 9 5)).width) },
     width := fun w => if (cvtFmt (bits w.x 4 0)).width = 64 then 64 else 32,
     shape := fun g c w => writtenShape c [g.opA c w, g.opB c w] none }] ++
  specialRows.map (fun r => { make := r.1, width := fun w => (mFmt w).width, shape := fun g c w => writtenShape c [g.opA c w] none
                              sig := fun w => { floatSig r.2.1 w false false true with
                                inS := false, mOk := w.m == 0 || w.m == 8, d := .dstAny 32
                                a := .s (OTy.float (if bits w.m 3 2 = 2 then .f16 else .f32)) } })

/-- R54, R90 to R99, R101, R153, R157: predicates as words, helpers, and cross-lane, collective and tile results. -/
def shapeRowsLane : List ShapeRow :=
  let general := fun (_ : Sig) (_ : Ctx) (_ : MainWord) => Shape.general
  let tileReady := fun (c : Ctx) (_ : MainWord) => decide (c.group.harvest = false ∧ c.active ≠ 0)
  let band := fun (op : BitVec 10) (w : MainWord) => ({ op := op, inS := false, form := .perLane, d := .dst 32 isV, a := .s tN32, b := .s tN32,
                                                        c := bandUse w, mOk := blockFmtOk w.m.toNat, imm := w.m != 5 } : Sig)
  let tile := fun (op : BitVec 10) (w : MainWord) => ({ op := op, inS := false, form := .perLane, d := tileDest, a := tileUse,
                                                        mOk := decide (w.m.toNat < 4) } : Sig)
  [{ make := .qscl, width := fun _ => 32, shape := general,
     sig := fun w => { op := 0x120, inS := false, form := .perLane, d := .dst 32 isV, a := .s (.float .f32), b := bandUse w,
                       mOk := blockFmtOk w.m.toNat, imm := true } },
   { make := .qpack, width := fun _ => 32, shape := general, sig := fun w => { band 0x121 w with a := .s (.float .f32) } },
   { make := .qunpk, width := fun _ => 32, shape := general, sig := band 0x122 },
   { make := .shape, width := fun _ => 32, shape := fun _ c _ => uniformUnlessPartial c,
     scalar := fun _ _ w => isScalarReg w.d || w.d == 0xE0,
     sig := fun w => { op := 0x123, inS := false, form := .once, d := .dstAny 32, a := .src tN32 isV, mOk := decide (w.m.toNat < 3) } },
   { make := .ballot, width := fun _ => 64, shape := fun _ c _ => uniformUnlessPartial c,
     sig := fun w => { op := 0x181, inS := false, form := .byDest, d := .dstAny 64, a := .form (if w.m = 0 then 0x07 else 0),
                       mOk := decide (w.m.toNat < 4) } },
   { make := .lxch, sig := fun w => exchangeSig 0x182 w 0x07 true, width := fun _ => 32,
     shape := fun g c w => if c.partialWrite = false ∧ (g.opA c w).shape = .uniform ∧ (∀ l ∈ lanes64, laneBit c.active l = true →
       ∀ j ∈ (exchangeLane w (g.opB c w) l).toList, laneBit c.entry j = true) then .uniform else .general },
   { make := .lxop, sig := fun w => exchangeSig 0x183 w 0xF7 (decide (bits w.c 7 4 < 11)), width := fun _ => 32, shape := general },
   { make := .scan, width := fun _ => 32, shape := general,
     sig := fun w => { op := 0x184, inS := false, form := .perLane, d := .dst 32 isV, a := .s tN32, c := .form 0xF7,
                       mOk := decide (w.m.toNat < 2), fieldsOk := decide (bits w.c 7 4 < 11) } },
   { make := .part, width := fun _ => 32, shape := general, ready := fun c _ => decide (c.entry = c.live),
     sig := fun w => { op := 0x185, inS := false, form := .perLane, d := .dst 32 (fun c => isV c || c == 0xE0), a := .s tN32,
                       b := .s tN32, c := .src tN32 isScalarReg, mOk := decide (w.m.toNat < 4) } },
   { make := .tredr, width := fun _ => 32, shape := general, sig := tile 0x204, ready := tileReady },
   { make := .tredc, width := fun _ => 32, shape := general, sig := tile 0x205, ready := tileReady },
   { make := .tget, width := fun _ => 32, shape := general, ready := tileReady,
     sig := fun w => { op := 0x20A, inS := false, form := .perLane, d := tileDest, a := tileUse, b := .src tN32 isUniform,
                       mOk := w.m == 0, imm := true } }]

/-- R62, R111, R119, R120, R129, R130, R132: link words, loads and the results of atomics. -/
def shapeRowsMemory : List ShapeRow :=
  let loads := fun (w : MainWord) => xOrder w == 0 || xOrder w == 1 || xOrder w == 4
  let unstaged := fun (c : Ctx) (_ : MainWord) => decide (c.team.staging = false)
  let ty := fun (w : MainWord) => (widthTy w.m).width
  [{ make := .ld, sig := fun w => loadSig 0x280 w false (loads w), width := ty, shape := fun _ c w => loadedShape c w.a (xHint w) },
   { make := .ldr, sig := fun w => loadSig 0x302 w true (loads w), width := ty, shape := fun _ c w => loadedShape c w.a (xHint w),
     ready := unstaged },
   { make := .stc, sig := fun w => storeSig 0x303 .byDest (.dstAny 32) w true 6, width := fun _ => 32, shape := fun _ _ _ => .general,
     ready := unstaged },
   { make := .lds, width := ty, shape := fun _ c w => loadedShape c w.a 0,
     sig := fun w => { op := 0x290, inS := false, form := .byDest, d := .dst (ty w) anyCode, a := scratchUse, c := offsetUse,
                       memory := true, mOk := decide (w.m.toNat < 7), xMask := 0x03F, fieldsOk := decide (xScope w < 2) && loads w } },
   { make := .ldk, width := ty,
     shape := fun g c w => if c.partialWrite then .general
       else if isUniform w.b || decide ((g.opB c w).shape = .uniform) then .uniform else .general,
     sig := fun w => { op := 0x292, inS := false, form := .byDest, d := .dst (ty w) anyCode, a := .form 0x03, b := .s tN32,
                       c := offsetUse, memory := true, mOk := w.m == 4 || w.m == 5 || w.m == 6 } },
   { make := .call, code := fun w => w.a, scalar := fun _ _ _ => false, width := fun _ => 64, shape := fun _ c _ => uniformUnlessPartial c,
     ready := fun c _ => decide (c.active = 0 ∨ c.pos.depth ≠ 255),
     sig := fun w => { op := 0x343, d := .form 0xFF, a := .dstAny 64, b := .form 0xFF, mOk := w.m == 0, branch := true } },
   { make := .callx, code := fun w => w.c, scalar := fun _ _ _ => false, width := fun _ => 64, shape := fun _ c _ => uniformUnlessPartial c,
     ready := fun c _ => decide (c.active = 0 ∨ c.pos.depth ≠ 255),
     sig := fun w => { op := 0x344, d := .form 0xFF, a := .src tN64 isAddress, b := .form 0xFF, c := .dstAny 64, mOk := w.m == 0 } }] ++
  atomRows.map (fun r => { make := r.make, sig := fun w => r.sig w (w.x.getLsbD 11), width := fun w => atomWidth (bits w.x 10 9),
                           shape := fun _ _ _ => .general
                           ready := fun c w => decide (w.x.getLsbD 11 = true ∨ c.team.staging = false ∨ w.d = 0xE0) })

/-- The instructions with their opcodes that the V profile alone has (R25), in no order of levels, and those of K. -/
def vOnlyRows : List ((MainWord → Instr) × BitVec 10) := [
  (.fdot2, 0x08C), (.fdot4, 0x08D), (.frcp, 0x110), (.frsq, 0x111), (.fexp2, 0x112), (.flog2, 0x113), (.fsin, 0x114), (.fcos, 0x115),
  (.ftanh, 0x116), (.qscl, 0x120), (.qpack, 0x121), (.qunpk, 0x122), (.shape, 0x123), (.prdx, 0x180), (.ballot, 0x181), (.lxch, 0x182),
  (.lxop, 0x183), (.scan, 0x184), (.part, 0x185), (.reord, 0x186), (.tmma, 0x200), (.tzero, 0x201), (.tld, 0x202), (.tdrn, 0x203),
  (.tredr, 0x204), (.tredc, 0x205), (.tbcr, 0x206), (.tbcc, 0x207), (.trot, 0x208), (.tew, 0x209), (.tget, 0x20A), (.tset, 0x20B),
  (.lds, 0x290), (.sts, 0x291), (.ldk, 0x292), (.cpy, 0x293), (.cpyw, 0x294), (.publDecl, 0x295), (.publSwap, 0x295), (.publFree, 0x295),
  (.bari, 0x310), (.bara, 0x311), (.barw, 0x312), (.bars, 0x313), (.barq, 0x314), (.savev, 0x38A), (.savevState, 0x38A), (.restv, 0x38B),
  (.restvState, 0x38B), (.name, 0x38C), (.holdArm, 0x38D), (.holdOff, 0x38D), (.rstv, 0x38E), (.harvOn, 0x38F), (.harvOff, 0x38F),
  (.hchkLost, 0x390), (.hchkLostc, 0x390), (.hchkRevs, 0x390)]
def privilegedRows : List ((MainWord → Instr) × BitVec 10) := [
  (.eret, 0x382), (.tlbi, 0x385), (.engr, 0x389), (.savev, 0x38A), (.savevState, 0x38A), (.restv, 0x38B), (.restvState, 0x38B),
  (.harvOn, 0x38F), (.harvOff, 0x38F)]

/-- The instruction takes a decode trap for its whole entry, with TVAL its words (R24). -/
def TakesDecodeTrap (i : Instr) (w : MainWord) (s : State) (c : Ctx) (op : BitVec 10) (cause : Nat) : Prop :=
  exec i s = s.trapsWith c { cause := cause, pc := c.pos.pc, lanes := c.entry, val := mainBits op w, val2 := 0 }

end Sys2Proof.Machine

/-- R41, R75: an instruction whose result is wider than the declaration of its destination takes cause 0x08, with the register and
both shapes, and nothing else changes.
R5, R24, R25, R364: an instruction of the other profile takes cause 0x01, and a privileged one at task level 0x05, for the whole
entry, with TVAL the words of the instruction, whatever the guard and the other fields; neither has any other effect. ENGS is an
instruction of control cores (R183). That the shape is checked also when no lane is active is the model's choice (log 46). -/
def Obligations.ShapePrivilegeProfile : Prop :=
  (∀ r ∈ shapeRowsInt ++ shapeRowsFloat ++ shapeRowsLane ++ shapeRowsMemory, ∀ (w : MainWord) (s : State) (c : Ctx),
     let g := r.sig w
     let sh := r.shape g c w
     Issues g w s c → r.ready c w = true → r.scalar g c w = false →
     ∀ n, (destRegs (r.code w) (r.width w)).find? (fun n => decide ((c.group.regs.v n).shape.code < sh.code)) = some n →
     exec (r.make w) s = s.trapsWith c (c.whole 0x08 (BitVec.ofNat 64 n)
       (BitVec.ofNat 64 ((c.group.regs.v n).shape.code + 4 * sh.code)))) ∧
  (∀ (w : MainWord) (s : State) (c : Ctx), s.ctx w = some c →
     (∀ r ∈ vOnlyRows, c.vector = false → TakesDecodeTrap (r.1 w) w s c r.2 0x01) ∧
     (c.vector = true → TakesDecodeTrap (.loop w) w s c 0x348 0x01) ∧
     (c.vector = true ∨ s.controlIssuer = false →
       ∀ i ∈ [Instr.engsGo w, .engsSt w, .engsCmd w, .engsSig w], TakesDecodeTrap i w s c 0x388 0x01) ∧
     (∀ r ∈ privilegedRows, c.kernel = false → (c.vector = true ∨ r.2 ∈ [(0x382 : BitVec 10), 0x385, 0x389]) →
       TakesDecodeTrap (r.1 w) w s c r.2 0x05))

/-- R174, R364: TRAP and SYSC: the active lanes take cause 0x0A or 0x0B with TEPC the fall-through address, TVAL the operand
and TMASK themselves; the other lanes of the entry go on. -/
def Obligations.TrapInstructions : Prop :=
  ∀ r ∈ [(Instr.trap, 0x380, 0x0A), (.sysc, 0x381, 0x0B)], ∀ (w : MainWord) (s : State) (c : Ctx),
    let g : Sig := { op := r.2.1, a := uniformSource, mOk := w.m == 0, imm := true }
    Issues g w s c → (c.active = 0 → exec (r.1 w) s = s.goesOn c w) ∧
      (c.active ≠ 0 → exec (r.1 w) s = .next (((s.modGroup c.tid c.gid (fun x =>
          { x.place (fun l => if laneBit c.active l then none else fallThrough c w l) with byTarget := x.byTarget &&& ~~~c.entry })).takeTrap
        c.tid c.gid c.active
        { cause := r.2.2, pc := fallPc c w, lanes := c.active, val := (g.opA c w).val (lowestLane c.active), val2 := 0 }).modGroup
        c.tid c.gid (fun x => x.counted c.group c.pos s.tick)).answersUsed)

/-- R365, R366: taking a trap saves the cause, the recorded PC, the values, the lanes and the entry's priority and depth,
raises the level, and sends the trap lanes to the handler of the cause's class; other lanes keep their positions, and no
other register, no memory and no other group changes. A nested trap is told as one. The group's reservations are lost
(R133).
R175, R308: ERET at kernel level, of a group whose kernel frontier is one entry, returns: the entry's lanes take TEPC and
the saved priority and depth, or every lane its staged record; the level becomes PLVL, and LSUS ends. No other register of
the group changes.
R69, R175: in the S profile the checking of loops resumes, with the loop state as the control registers hold it; that the PC that the
work item returns to is an arrival is the model's choice (log 41). -/
def Obligations.TrapEntryAndReturn : Prop :=
  (∀ (s : State) (team : Team) (g : Group) (m : Dword) (t : TrapInfo),
     s.team? team.id = some team → team.group? g.gid = some g →
     let s1 := s.takeTrap team.id g.gid m t
     let old := g.regs.at (lowestLane m)
     let class_ := if t.cause < 0x20 then 0 else if t.cause < 0x40 then 1 else if t.cause < 0x50 then 2
       else if t.cause < 0x60 then 3 else if t.cause < 0x70 then 4 else 5
     (∃ team1 g1, s1.team? team.id = some team1 ∧ team1.group? g.gid = some g1 ∧
       team1 = { team with groups := team1.groups } ∧ (∀ gid, gid ≠ g.gid → team1.group? gid = team.group? gid) ∧
       g1 = { g with trap := g1.trap, aside := g1.aside, kernelLanes := g1.kernelLanes, byTarget := g1.byTarget,
                     preemptedAt := g1.preemptedAt, handling := g1.handling, waits := g1.waits, regs := { g.regs with pos := g1.regs.pos } } ∧
       g1.trap = { g.trap with level := .kernel, plvl := g.trap.level, nest := decide (g.trap.level = .kernel),
                               lsus := decide (g.profile = .S), epri := old.pri, edep := old.depth,
                               cause := BitVec.ofNat 7 t.cause, epc := t.pc, val := t.val, val2 := t.val2, mask := t.lanes } ∧
       (∀ l p, g.regs.pos[l]? = some p → g1.regs.pos[l]? = some
         (if laneBit m l then { pc := team.ktvec + BitVec.ofNat 64 (0x100 * class_), pri := 0, depth := 0 } else p)) ∧
       (g.trap.level = .kernel → g1.aside = g.aside ∧ g1.kernelLanes = g.kernelLanes) ∧
       (g.trap.level = .task → g1.kernelLanes = m ∧ ∀ l p, g.regs.pos[l]? = some p →
         g1.aside[l]? = some (if laneBit m l then { p with pc := t.pc } else p))) ∧
     (∀ tid, tid ≠ team.id → s1.team? tid = s.team? tid) ∧
     s1 = { s with teams := s1.teams, hub0 := s1.hub0, hub1 := s1.hub1 } ∧
     ∀ h, s1.hub h = { s.hub h with reservations := (s1.hub h).reservations } ∧
       ∀ r, r ∈ (s1.hub h).reservations ↔ r ∈ (s.hub h).reservations ∧ ¬(r.team = team.id ∧ r.gid = g.gid)) ∧
  (∀ (w : MainWord) (s : State) (c : Ctx),
     let g : Sig := { op := 0x382, privileged := true, mOk := w.m == 0, fieldsOk := w.pred == 0 && !w.neg }
     let placed := fun (l : Nat) (p : LanePos) => match c.group.trap.rstg, c.group.staged with
       | true, some st => ((st[l]?).map (fun x => x.pos)).getD p
       | _, _ => if laneBit c.entry l then { pc := c.group.trap.epc, pri := c.group.trap.epri, depth := c.group.trap.edep } else p
     let looping := c.group.profile = .S ∧ 0 < c.group.ldep
     let r := arrive c.group.loops none c.group.ldep (placed 0 (c.group.regs.at 0)).pc
     Issues g w s c → c.entry = c.group.current → s.team? c.tid = some c.team → c.team.group? c.gid = some c.group →
     0 < c.group.regs.pos.length →
     ∃ (s1 : State) (g1 : Group), exec (.eret w) s = .next (s1.settleLive c.tid c.gid).answersUsed ∧ s1 = { s with teams := s1.teams } ∧
       s1.group? c.tid c.gid = some g1 ∧
       g1 = { c.group with regs := { c.group.regs with pos := g1.regs.pos, live := g1.regs.live }, trap := g1.trap,
                           staged := g1.staged, kernelLanes := g1.kernelLanes, byTarget := g1.byTarget, aside := g1.aside,
                           ages := g1.ages, handling := g1.handling, issuedAt := g1.issuedAt, loops := g1.loops, ldep := g1.ldep } ∧
       (looping → g1.loops = r.1 ∧ g1.ldep = r.2.1) ∧ (¬looping → g1.loops = c.group.loops ∧ g1.ldep = c.group.ldep) ∧
       (∀ l p, c.group.regs.pos[l]? = some p → g1.regs.pos[l]? =
         some (if looping ∧ l = 0 then { placed l p with pc := r.2.2 } else placed l p)) ∧
       g1.trap = { c.group.trap with level := c.group.trap.plvl, lsus := false, rstg := g1.trap.rstg } ∧
       (c.group.trap.plvl = .task → g1.kernelLanes = 0 ∧ g1.aside = []) ∧
       (c.group.trap.rstg = false → g1.regs.live = c.group.regs.live ∧ g1.trap.rstg = false) ∧
       (∀ st, c.group.trap.rstg = true → c.group.staged = some st → g1.trap.rstg = false ∧ g1.staged = none ∧
         ∀ l, l < 64 → (laneBit g1.regs.live l = true ↔ ∃ x, st[l]? = some x ∧ x.live = true)))

/-! ## Control registers, translation and waiting -/

namespace Sys2Proof.Machine

/-- What the checks know of MFCR and MTCR (R176). -/
def mfcrSig (s : State) (w : MainWord) : Sig :=
  let mode := s.crModeNow w.x.toNat
  { op := 0x383, privileged := decide (mode = some .hidden), priv2 := BitVec.ofNat 64 w.x.toNat, d := .dst 64 statusCode,
    mOk := w.m == 0, xMask := 0xFFF, fieldsOk := decide (mode = some .ro) || decide (mode = some .rw) }
def mtcrSig (s : State) (w : MainWord) : Sig :=
  let mode := s.crModeNow w.x.toNat
  { op := 0x384, privileged := decide (mode = some .hidden), priv2 := BitVec.ofNat 64 w.x.toNat, a := uniformSource,
    mOk := w.m == 0, xMask := 0xFFF, fieldsOk := decide (mode = some .rw) || decide (mode = some .wo) }

end Sys2Proof.Machine

/-- R176, R177, R283, R376, R386: MFCR writes the value of a register that the level and core may read, and MTCR the operand
to one that they may write: of the group, of its team, of its hub, or of its cluster.
R176, R177, R279, R394: a control register of a group reads back what was written to it, in the bits that it holds, and
the write changes no other register of the group; TSTAT keeps LVL, HARV, LSUS and RSTG, and PLVL against a write of 2 or 3.
R176, R188, R445: LOC tells where the group is, HLIM its team's limit word, and CYCLE, TBASE and LCLK the counters of the package and
the hub; with power every step advances CYCLE, by how much being free (log 2), and without power neither CYCLE nor TBASE moves. -/
def Obligations.ControlRegisters : Prop :=
  (∀ (w : MainWord) (s : State) (c : Ctx),
     let n := w.x.toNat
     let v := ((mtcrSig s w).opA c w).val (lowestLane c.active)
     (Issues (mfcrSig s w) w s c → (c.active = 0 → exec (.mfcr w) s = s.goesOn c w) ∧
       (c.active ≠ 0 → exec (.mfcr w) s =
         (s.modGroup c.tid c.gid (fun x => writeScalar x w.d (s.readCr c n) (decide (c.guardPoison ≠ 0)))).goesOn c w)) ∧
     (Issues (mtcrSig s w) w s c → (c.active = 0 → exec (.mtcr w) s = s.goesOn c w) ∧
       (c.active ≠ 0 →
         let writes := fun (s1 : State) => exec (.mtcr w) s = s1.goesOn c w
         (n ∈ [0x000, 0x001, 0x002, 0x003, 0x004, 0x005, 0x010, 0x011, 0x012, 0x013, 0x014, 0x020, 0x021, 0x022, 0x024, 0x025, 0x026,
             0x028, 0x029, 0x02A, 0x02C] → writes (s.modGroup c.tid c.gid (fun g => g.writeCr n v))) ∧
         (n = 0x006 → writes (s.modTeam c.tid (fun t => { t with ktvec := v &&& ~~~0xFF }))) ∧
         (n = 0x008 → writes (s.modTeam c.tid (fun t => { t with asn := v.extractLsb' 0 16 }))) ∧
         (n = 0x009 → writes (s.modTeam c.tid (fun t => { t with ptroot := tableBits v }))) ∧
         (n ∈ [0x007, 0x00A, 0x00B, 0x00E] → writes (s.modHub c.hub (fun h => h.writeCr n v))) ∧
         (∀ s1, n = 0x00D → s.release c 3 false = .ready s1 →
           let r := s1.completeRequest c.hub (v.extractLsb' 0 16) (v.getLsbD 16)
           (r.getD s1).asked = [] → writes ((r.getD s1).modGroup c.tid c.gid (fun g => { g with prqRes := r.isNone }))) ∧
         (∀ k, (n = 0x060 ∨ n = 0x061) → c.team.cluster = some k → (∀ b ∈ bankBytes v, bankByteOk b = true) →
           k.formatsFree (decide (n = 0x061)) v = true →
           writes (s.modCluster c.tid (fun k => k.setFormats (decide (n = 0x061)) v))) ∧
         (n = 0x062 → writes (s.modCluster c.tid (fun k => { k with efpst := v &&& 0x1F }))) ∧
         (n = 0x063 → v = 0 → writes s) ∧
         (n = 0x063 → v = 1 → c.group.handling.isSome = true →
           exec (.mtcr w) s = .next ((s.advance c (fallThrough c w) 0 none).endControl c.tid).answersUsed)))) ∧
  (∀ (s : State) (c : Ctx) (v : Dword), c.group.loops.length = 3 →
     let all : Dword := BitVec.allOnes 64
     let held : List (Nat × (Dword → Dword)) :=
       [(0x001, (· &&& 0x7F)), (0x002, (· &&& all)), (0x003, (· &&& all)), (0x004, (· &&& all)), (0x005, (· &&& all)),
        (0x010, (· &&& fpstWritable)), (0x011, (· &&& 0xFFFFFF)), (0x012, (· &&& all)), (0x013, (· &&& all)), (0x014, (· &&& 0xFFFFFFFF)),
        (0x020, (· &&& 0xFFFFFFFF)), (0x021, (· &&& 0xFFFFFFFF)), (0x022, (· &&& 0xFFFFFFFF)), (0x024, (· &&& all)), (0x025, (· &&& all)),
        (0x026, (· &&& all)), (0x028, (· &&& all)), (0x029, (· &&& all)), (0x02A, (· &&& all)), (0x02C, (· &&& 3)),
        (0x000, fun v =>
          let old := s.readCr c 0x000
          (old &&& 0x1000063) ||| (v &&& 0xFFFF10) ||| (if bits v 3 2 < 2 then v &&& 0xC else old &&& 0xC))]
     ∀ r ∈ held, s.readCr { c with group := c.group.writeCr r.1 v } r.1 = r.2 v ∧
       ∀ q ∈ held, q.1 ≠ r.1 → s.readCr { c with group := c.group.writeCr r.1 v } q.1 = s.readCr c q.1) ∧
  (∀ (s : State) (c : Ctx), unitChiplet c.unit < 16 → unitCore c.unit < 64 → c.group.slot < 64 →
     let loc := s.readCr c 0x042
     bits loc 63 54 = s.flash.package % 1024 ∧ bits loc 53 53 = hubNumber c.hub ∧ bits loc 52 49 = unitChiplet c.unit ∧
     bits loc 48 43 = unitCore c.unit ∧ bits loc 42 37 = c.group.slot ∧ bits loc 36 0 = 0) ∧
  (∀ (s : State) (c : Ctx), s.readCr c 0x040 = s.cycle ∧ s.readCr c 0x041 = (s.hub c.hub).lclk ∧ s.readCr c 0x043 = c.team.hlim ∧
     s.readCr c 0x044 = s.tbase ∧ s.readCr c 0x015 = c.team.rbcnt.setWidth 64 ∧
     (s.powered = true → ∃ n, 0 < n ∧ s.pass.cycle = s.cycle + BitVec.ofNat 64 n) ∧
     (s.powered = false → s.pass.cycle = s.cycle ∧ s.pass.tbase = s.tbase))

/-- R178, R179, R384: TLBI removes the translations that its kind names from every core in scope once every access is over;
WAITE whose word meets its condition completes with 0 and the acquire of its order, and one whose time is out with 1. What TLBI .page
removes, and what TLBI waits for, are the model's choices (log 43). -/
def Obligations.TranslationAndWait : Prop :=
  ∀ (w : MainWord) (s s1 s2 : State) (c : Ctx),
    (let g : Sig := { op := 0x385, privileged := true, a := uniformSource, b := uniformSource, mOk := decide (w.m.toNat < 4),
                      xMask := 0x007, fieldsOk := decide (xScope w < 5) }
     let l := lowestLane c.active
     let removed := s2.removeTlb c (xScope w) w.m.toNat (((g.opB c w).val l).setWidth 16) ((g.opA c w).val l)
     Issues g w s c → (c.active = 0 → exec (.tlbi w) s = s.goesOn c w) ∧
      (c.active ≠ 0 → s.settleStores c (xScope w) true = (s1, none) →
        s2 = (s1.cores.filter (fun x => c.tlbReaches (xScope w) x.unit)).foldl (fun s x => s.drainCore x.unit) s1 →
        s2.accessesDone c (xScope w) = true → s2.podAnswer (xScope w) = none → s2.heldFailures c = [] → s2.asked = [] →
        exec (.tlbi w) s = removed.goesOn c w) ∧
      ∀ x ∈ removed.cores, c.tlbReaches (xScope w) x.unit = true →
        (∀ e ∈ x.tlb, tlbRemoved w.m.toNat (((g.opB c w).val l).setWidth 16) ((g.opA c w).val l) e = false) ∧
        (∀ e ∈ x.walker, pointerRemoved w.m.toNat (((g.opB c w).val l).setWidth 16) ((g.opA c w).val l) e = false)) ∧
    (let g : Sig := { op := 0x386, d := .dst 64 statusCode, a := uniformAddress, b := uniformSource, c := uniformSource,
                      mOk := decide (w.m.toNat < 4), xMask := 0x03F, fieldsOk := decide (xScope w < 6 ∧ xOrder w < 2) }
     let l := lowestLane c.active
     let a := g.opA c w
     let b := (g.opB c w).val l
     let t := (g.opC c w).val l
     let r := checkLanes s c.space { kind := .read, bytes := 8, atomic := false, own := false } a.val [l]
     let met := fun (x : Nat) => (bits w.m 1 0 = 0 ∧ x = b.toNat) ∨ (bits w.m 1 0 = 1 ∧ x ≠ b.toNat) ∨
       (bits w.m 1 0 = 2 ∧ b.toNat ≤ x) ∨ (bits w.m 1 0 = 3 ∧ x < b.toNat)
     let ends := fun (s3 : State) (v : Dword) => exec (.waite w) s = (s3.modGroup c.tid c.gid (fun x =>
       writeScalar (x.unwait c.pos) w.d v ((g.opB c w).poison l || (g.opC c w).poison l || decide (c.guardPoison ≠ 0)))).goesOn c w
     Issues g w s c → (c.active = 0 → exec (.waite w) s = s.goesOn c w) ∧
      (∀ x v, c.active ≠ 0 → a.poison l = false → r = ([x], []) →
        (s.touchLanes c .read 0 [x]).readLanes c (fun y => y.how (xOrder w) 0 false) 8 [x] = .ok s2 [v] → v.origin = 0 → s2.asked = [] →
        (met (ofBytes v.bytes) → (xOrder w ≠ 1 → ends s2 0) ∧
          (∀ s3, xOrder w = 1 → s2.acquireReady c (xScope w) [x.x.key] = .ready s3 →
            (s3.acquirePart c (xScope w) [x.x.key]).asked = [] → ends (s3.acquirePart c (xScope w) [x.x.key]) 0)) ∧
        (¬met (ofBytes v.bytes) → t ≠ BitVec.allOnes 64 → t.toNat ≤ (s2.cycle - waiteStart c s2.cycle).toNat → ends s2 1)))

/-! ## Launch, engines, names and mail -/

/-- R180, R235, R331, R400: LNCH releases at package scope, reads the packet and offers it: the status tells what became of it, 0 when
the queue took it, and the packet stands last in the queue then, with the clock that its acceptance releases and its hub acquires. A
staged team traps. The model's choices: the order of the statuses (log 37), and that one that crosses a
failed bridge takes 0x60 (log 59). -/
def Obligations.LaunchInstruction : Prop :=
  ∀ (w : MainWord) (s s1 : State) (c : Ctx),
    let g : Sig := { op := 0x387, d := .dst 64 statusCode, a := uniformAddress, b := uniformSource, mOk := w.m == 0 }
    let l := lowestLane c.active
    let v := (g.opB c w).val l
    let r := s1.readPacket c ((g.opA c w).val l)
    let o := if v >>> 7 ≠ 0 then (s1, 4) else r.1.offerPacket (hubOfNumber (bits v 6 6)) (bits v 5 0) c.space r.2
    (Issues g w s c → (c.active = 0 → exec (.lnch w) s = s.goesOn c w) ∧
      (c.active ≠ 0 → c.team.staging = true → exec (.lnch w) s = s.trapsWith c (c.whole 0x28 0 0)) ∧
      (c.active ≠ 0 → c.team.staging = false → s.release c 3 false = .ready s1 →
        let crosses := v >>> 7 = 0 ∧ hubOfNumber (bits v 6 6) ≠ c.hub
        (¬(crosses ∧ s1.bridgeUp = false) → o.1.asked = [] →
          exec (.lnch w) s = (o.1.modGroup c.tid c.gid (fun x => writeScalar x w.d (BitVec.ofNat 64 o.2)
            (decide (c.guardPoison ≠ 0) || (g.opA c w).poison l || (g.opB c w).poison l))).goesOn c w) ∧
        (crosses ∧ s1.bridgeUp = false → exec (.lnch w) s = s.trapsWith c
          (c.whole 0x60 (BitVec.ofNat 64 (s.peerNumberOf (peerOf (hubOfNumber (bits v 6 6))))) 0)))) ∧
    ∀ (h : HubId) (q : Nat) (sp : Space) (raw : Option (List Byte)),
      let queue := (s.hub h).queue q
      let p := s.offerPacket h q sp raw
      (p.2 ≠ 0 → p.1 = s) ∧ (queue.en = false → p.2 = 4) ∧ (queue.en = true → raw = none → p.2 = 3) ∧
      (queue.en = true → p.2 = 1 → 16 ≤ queue.packets.length) ∧
      ∀ bytes, raw = some bytes → p.2 = 0 → queue.en = true ∧ queue.packets.length < 16 ∧
        (p.1.hub h).lclk = maxTime (s.hub h).lclk (s.releasedClock sp) ∧
        (p.1.hub h).queue q = { queue with packets := queue.packets ++ [Packet.accepted queue.nextSeq bytes (s.releasedClock sp)], nextSeq := queue.nextSeq + 1 }

/-- R183 to R185: ENGS of a control core starts an engine of its cluster, tells its status, sends it a command and takes its
signal; ENGR resumes or declines the stopped operation of a cluster's access engine. Which status answers where several conditions
hold is the model's choice (log 80). -/
def Obligations.EngineControl : Prop :=
  ∀ (w : MainWord) (s s1 : State) (c : Ctx) (x : EngAt),
    let sig := fun (m : Nat) (d b : FieldUse) => ({ op := 0x388, inS := s.controlIssuer, inV := false, d := d, a := uniformSource,
                                                    b := b, mOk := w.m == BitVec.ofNat 4 m, imm := true } : Sig)
    let answers := fun (i : Instr) (g : Sig) (s2 : State) (v : Nat) => exec i s = (s2.modGroup c.tid c.gid (fun y =>
      writeScalar y w.d (BitVec.ofNat 64 v) (engArgs g c w).poison)).goesOn c w
    let on := fun (g : Sig) => c.active ≠ 0 ∧ s.engineAt c.tid (engineOf (bits (engArgs g c w).a 1 0)) = some x
    (let g := sig 0 (.dst 64 statusCode) uniformSource
     let n := (engArgs g c w).b
     Issues g w s c → (c.active = 0 → exec (.engsGo w) s = s.goesOn c w) ∧
      (on g → (x.engine.state = .running → answers (.engsGo w) g s 1) ∧ (x.engine.state = .faulted → answers (.engsGo w) g s 3) ∧
        (x.engine.state = .stopped → 2048 ≤ n.toNat → answers (.engsGo w) g s 2) ∧
        (x.engine.state = .stopped → n.toNat < 2048 → answers (.engsGo w) g (s.modEngine c.tid x.kind (fun e =>
          { e with pc := n.toNat, state := .running, stack := [], loops := List.replicate 3 { n := 0, m := 0, start := 0 },
                   halting := false, took := false })) 0))) ∧
    (let g := sig 1 (.dst 64 statusCode) .unused
     Issues g w s c → (c.active = 0 → exec (.engsSt w) s = s.goesOn c w) ∧ (on g → answers (.engsSt w) g s x.engine.status)) ∧
    (let g := sig 2 .unused uniformSource
     Issues g w s c → (c.active = 0 → exec (.engsCmd w) s = s.goesOn c w) ∧
      (on g → x.engine.cmds.length < 4 → s.release c 2 false = .ready s1 → s1.asked = [] → exec (.engsCmd w) s =
        (s1.modEngine c.tid x.kind (fun e => { e with cmds := e.cmds ++ [loWord (engArgs g c w).b] })).goesOn c w)) ∧
    (let g := sig 3 (.dst 64 statusCode) .unused
     Issues g w s c → (c.active = 0 → exec (.engsSig w) s = s.goesOn c w) ∧
      (∀ v rest, on g → x.engine.sigs = v :: rest →
        let t := (s.modEngine c.tid x.kind (fun e => { e with sigs := rest })).acquire c.tid c.gid c.group.coreIx 2 c.unit false
        t.asked = [] → answers (.engsSig w) g t v.toNat)) ∧
    (let g : Sig := { op := 0x389, privileged := true, d := .dst 64 statusCode, a := uniformSource, b := uniformSource, mOk := w.m == 0 }
     let n := bits (engArgs g c w).a 4 0
     let b := (engArgs g c w).b
     let access := engineOf (bits (engArgs g c w).a 6 5) = .access
     Issues g w s c → (c.active = 0 → exec (.engr w) s = s.goesOn c w) ∧
      (c.active ≠ 0 → (24 ≤ n → answers (.engr w) g s 2) ∧ (n < 24 → 1 < b.toNat → answers (.engr w) g s 4) ∧
        (n < 24 → b.toNat ≤ 1 → (∀ t, s.onClusterNumber n = some t → ¬access ∨ s.stoppedOp t.id = none) → answers (.engr w) g s 1) ∧
        (∀ t, n < 24 → b.toNat ≤ 1 → s.onClusterNumber n = some t → access → (s.stoppedOp t.id).isSome = true →
          s.release c 3 false = .ready s1 → ((s1.dropEngineRequest t.id).disposeOp t.id (decide (b = 1))).asked = [] →
          answers (.engr w) g ((s1.dropEngineRequest t.id).disposeOp t.id (decide (b = 1))) 0)))

/-- R188 to R190: NAME gives a group its name, HOLD arms and closes a mailbox of a register, and RSTV posts a register's words
as mail after a release, in a group that is no harvest context and outside a staged team.
R189: a held register makes the instruction that names it wait, and the first read of a register that mail has released is
an acquire at the scope of its HOLD, after which the instruction runs.
That HOLD.off waits exactly while accepted mail of its register is being forwarded is the model's choice (log 53). -/
def Obligations.NamesAndMail : Prop :=
  (∀ (w : MainWord) (s s1 : State) (c : Ctx), c.group.harvest = false →
     let n := w.d.toNat
     (let g : Sig := { op := 0x38C, inS := false, d := .dst 64 statusCode, mOk := w.m == 0 }
      Issues g w s c → (c.active = 0 → exec (.name w) s = s.goesOn c w) ∧
       (∀ x, c.active ≠ 0 → (c.team.twin = none ∨ c.team.leader = true ∨ c.group.name.isSome = true) → s.giveName c.tid c.gid = some (s1, x) →
         exec (.name w) s = (s1.modGroup c.tid c.gid (fun y => writeScalar y w.d x (decide (c.guardPoison ≠ 0)))).goesOn c w)) ∧
     (let g := fun (m : Nat) => ({ op := 0x38D, inS := false, d := .code, b := uniformSource, mOk := w.m == BitVec.ofNat 4 m,
                                   xMask := 0x007, fieldsOk := decide (xScope w < 6), operandsBad := holdBad s w } : Sig)
      let armed := c.group.mailboxes.filter (fun m => m.armed)
      c.group.name.isSome = true → (c.group.regs.v n).shape = .general →
      (Issues (g 0) w s c → (c.active = 0 → exec (.holdArm w) s = s.goesOn c w) ∧
        (c.active ≠ 0 → (∀ m ∈ armed, m.reg ≠ n) → armed.length < 8 → exec (.holdArm w) s =
          (s.modGroup c.tid c.gid (fun x => (x.arm n ((((g 0).opB c w).val (lowestLane c.active)).setWidth 16) (xScope w)).replayMail n)).goesOn c w)) ∧
      (Issues (g 1) w s c → (c.active = 0 → exec (.holdOff w) s = s.goesOn c w) ∧
        (c.active ≠ 0 → (∃ m ∈ armed, m.reg = n) → s.mailComing c.group n = false →
          exec (.holdOff w) s = (s.modGroup c.tid c.gid (fun x => { x with
            mailboxes := x.mailboxes.filter (fun m => !(m.armed && m.reg == n))
            waits := x.waits.filter (fun v => decide (v.kind ≠ .heldRegister n)) })).goesOn c w) ∧
        (c.active ≠ 0 → (∃ m ∈ armed, m.reg = n) → s.mailComing c.group n = true →
          exec (.holdOff w) s = s.waitsFor s c w (.closing n)))) ∧
     (let g : Sig := { op := 0x38E, inS := false, d := .code, a := uniformSource, b := .src tN32 isV, c := uniformSource,
                       mOk := w.m == 0, xMask := 0x007, fieldsOk := decide (xScope w < 6),
                       operandsBad := if isV w.d then none else some 0 }
      let l := lowestLane c.active
      let name := (g.opA c w).val l
      let r := c.group.regs.v w.b.toNat
      Issues g w s c → (c.active = 0 → exec (.rstv w) s = s.goesOn c w) ∧
       (let s2 := s1.postMail c.tid c.gid c.hub name n (((g.opC c w).val l).setWidth 16) (lanes64.map r.lane) (xScope w)
        c.active ≠ 0 → c.team.staging = false → r.poison = 0 → s.release c (xScope w) false = .ready s1 → s1.mailDenied c name = false →
          s2.asked = [] → exec (.rstv w) s = s2.goesOn c w))) ∧
  (∀ (w : MainWord) (s : State) (c : Ctx) (n : Nat),
     let g := intSig 0x001 w true false
     s.ctx w = some c → g.check c w = none →
     (c.group.held ((g.vregs w).1 ++ (g.vregs w).2) = some n →
       exec (.iadd w) s = .next (s.modGroup c.tid c.gid (fun x => x.wait c.pos (.heldRegister n) (fallPc c w))).answersUsed) ∧
     (c.group.held ((g.vregs w).1 ++ (g.vregs w).2) = none →
       (∃ m ∈ c.group.mailboxes, m.delivered = true ∧ m.reg ∈ (g.vregs w).1) →
       ∀ c1, (s.readMail c (g.vregs w).1).ctx w = some c1 →
         c1.group.held ((g.vregs w).1 ++ (g.vregs w).2) = none →
         (∀ m ∈ c1.group.mailboxes, ¬(m.delivered = true ∧ m.reg ∈ (g.vregs w).1)) → g.check c1 w = none →
         exec (.iadd w) s = exec (.iadd w) (s.readMail c (g.vregs w).1)))

/-- R191, R192: HARV of a latency-critical team sets its limits and revokes what exceeds them, or ends harvesting; HCHK tells
a harvest context what it has lost and how often, and tells 0 elsewhere; .lostc clears what it tells. Which contexts a revocation takes
among those that serve is the model's choice (log 56). -/
def Obligations.Harvesting : Prop :=
  ∀ (w : MainWord) (s : State) (c : Ctx),
    let sig := fun (m : Nat) => ({ op := 0x38F, inS := false, privileged := true, a := uniformSource, mOk := w.m == BitVec.ofNat 4 m, imm := true } : Sig)
    let v := ((sig 0).opA c w).val (lowestLane c.active)
    let mayHarvest := c.active ≠ 0 ∧ c.team.latencyCritical = true ∧ c.group.harvest = false
    (Issues (sig 0) w s c → (c.active = 0 → exec (.harvOn w) s = s.goesOn c w) ∧
      (mayHarvest → limitBad v = false → (s.harvestLimit c.team v).asked = [] → exec (.harvOn w) s = (s.harvestLimit c.team v).goesOn c w)) ∧
    (Issues (sig 1) w s c → (c.active = 0 → exec (.harvOff w) s = s.goesOn c w) ∧
      (mayHarvest → limitBad v = false →
        let s1 := c.team.vectorCores.foldl (fun s id => s.revoke id (s.harvestOn id)) (s.modTeam c.tid (fun x => { x with hlim := 0 }))
        s1.revoking c.team = false → s1.asked = [] → exec (.harvOff w) s = s1.goesOn c w)) ∧
    ∀ r ∈ ([(.hchkLost, 0, fun g => g.lost), (.hchkLostc, 1, fun g => g.lost), (.hchkRevs, 2, fun g => g.revocations)] :
        List ((MainWord → Instr) × Nat × (Group → Dword))),
      Issues { op := 0x390, inS := false, d := .dst 64 statusCode, mOk := w.m == BitVec.ofNat 4 r.2.1 } w s c →
      (c.active = 0 → exec (r.1 w) s = s.goesOn c w) ∧
      (c.active ≠ 0 → exec (r.1 w) s = (s.modGroup c.tid c.gid (fun x =>
        writeScalar (if c.group.harvest = true ∧ r.2.1 = 1 then { x with lost := 0 } else x) w.d
          (if c.group.harvest then r.2.2 c.group else 0) (decide (c.guardPoison ≠ 0)))).goesOn c w)

/-! ## Context images -/

/-- R186, R187: SAVEV writes an image whose range passes its checks, and RESTV puts one whose header and range pass them into
the group; SAVEV.state redirects the group's mail and, in the handler of a pre-emption, ends its residence.
R186, R187: what SAVEV writes, RESTV gives back: the v registers with their poison, the s registers with theirs, and from
the .state image every lane's position and life, the predicates and the floating-point status. Which registers a poisoned image
poisons is the model's choice (log 82). -/
def Obligations.ContextImages : Prop :=
  (∀ (w : MainWord) (s s1 : State) (c : Ctx) (bs : List Byte) (bad : List (Nat × Nat × Byte)),
     let l := lowestLane c.active
     let sig := fun (op : BitVec 10) => ({ op := op, inS := false, privileged := true, a := uniformAddress, mOk := decide (w.m.toNat < 3) } : Sig)
     let k := w.m.toNat
     (let a := ((sig 0x38A).opA c w).val l
      let image := plainImage c.team c.group k
      Issues (sig 0x38A) w s c → (c.active = 0 → exec (.savev w) s = s.goesOn c w) ∧
       (c.active ≠ 0 → a.toNat % 64 = 0 → c.imageFault s a image.length .write = none → s.writeImages c [(a, image)] = some s1 →
         s1.asked = [] → exec (.savev w) s = (s1.modGroup c.tid c.gid (fun x => x.savedKind k)).goesOn c w)) ∧
     (let g : Sig := { op := 0x38A, inS := false, privileged := true, a := uniformAddress, b := uniformAddress, mOk := w.m == 3 }
      let a := (g.opA c w).val l
      let b := (g.opB c w).val l
      let records := armedRecords c.group
      let images := (a, stateImage c.group b) :: records.map (fun r => (b + BitVec.ofNat 64 r.1, r.2))
      let s3 := (s1.redirectMail c a b).advance c (fallThrough c w) 0 none
      Issues g w s c → (c.active = 0 → exec (.savevState w) s = s.goesOn c w) ∧
       (c.active ≠ 0 → (∀ x ∈ c.team.copies, x.gid ≠ c.gid) → (∀ m ∈ s.mails, ¬(m.team = c.tid ∧ m.gid = c.gid)) →
         a.toNat % 64 = 0 → (records ≠ [] → b.toNat % 64 = 0) → c.imageFault s a 0x540 .write = none →
         (∀ r ∈ records, c.imageFault s (b + BitVec.ofNat 64 r.1) r.2.length .write = none) →
         s.writeImages c images = some s1 →
         let s4 := if c.group.handling.isSome then s3.endResidence c.tid c.gid else s3
         s4.asked = [] → exec (.savevState w) s = .next s4.answersUsed)) ∧
     (let a := ((sig 0x38B).opA c w).val l
      let event := restoreEvent k c.team.desc.regmap bs bad
      let puts := fun (f : GroupRegs → GroupRegs) => s1.asked = [] →
        exec (.restv w) s = (s1.modGroup c.tid c.gid (fun x => { x with regs := f x.regs }.restored c.pos.pc a event)).goesOn c w
      Issues (sig 0x38B) w s c → (c.active = 0 → exec (.restv w) s = s.goesOn c w) ∧
       (c.active ≠ 0 → s.openImage c a k = .ok (s1, bs, bad) →
         (k = 0 → puts (fun r => r.restoreVregs c.team.desc.regmap bs bad)) ∧ (k = 1 → puts (fun r => r.restoreSregs bs bad)) ∧
         (k = 2 → (imageField bs 3 1 = 0 ∨ c.group.regs.tiles.isSome = true ∨ s.noTileSet c = false) →
           puts (fun r => r.restoreTiles bs bad)))) ∧
     (let g : Sig := { op := 0x38B, inS := false, privileged := true, a := uniformAddress, mOk := w.m == 3 }
      let b := BitVec.ofNat 64 (imageField bs 0x4D8 8)
      let shapes := c.team.desc.regmap
      let delivered := ((List.range 8).filterMap (entryMailbox bs)).filterMap (fun m => if m.delivered then some m.reg else none)
      Issues g w s c → (c.active = 0 → exec (.restvState w) s = s.goesOn c w) ∧
       (∀ s2 h, c.active ≠ 0 → s.openImage c ((g.opA c w).val l) 3 = .ok (s1, bs, bad) → s1.readHeader c b 0 = .ok (s2, h) →
         (∀ n ∈ delivered, c.imageFault s2 (b + BitVec.ofNat 64 (recordOffset shapes n)) (recordSize (shapes.getD n .general)) .read = none) →
         let s3 := (s2.rebindName c.tid c.gid (BitVec.ofNat 64 (imageField bs 0x4E0 8))).reloadMail c b delivered
         s3.asked = [] → exec (.restvState w) s = (s3.modGroup c.tid c.gid (fun x => x.restoreState bs)).goesOn c w))) ∧
  (∀ (t : Team) (g h : Group) (b : Dword),
     g.regs.vregs.length ≤ 128 → h.regs.vregs.length = g.regs.vregs.length → g.regs.sregs.length = 96 → h.regs.sregs.length = 96 →
     g.regs.preds.length = 7 → g.regs.predPoison.length = 7 → g.regs.pos.length = 64 → g.aside = [] →
     (∀ r ∈ g.regs.vregs, ∀ ws, r.store = .general ws → ws.length = 64) →
     (h.regs.restoreVregs g.regs.shapes (vregsImage t g) []).vregs = g.regs.vregs ∧
     (h.regs.restoreSregs (sregsImage g) []).sregs = g.regs.sregs ∧
     (let r := h.restoreState (stateImage g b)
      r.regs.preds = g.regs.preds ∧ r.regs.predPoison = g.regs.predPoison ∧ r.regs.fpst = g.regs.fpst &&& fpstWritable ∧
      r.trap.rstg = true ∧ ∃ st, r.staged = some st ∧ st.length = 64 ∧
        ∀ l p, g.regs.pos[l]? = some p → ∃ x, st[l]? = some x ∧ x.pos = p ∧ x.live = laneBit g.regs.live l))

/-! ## Engine words -/

namespace Sys2Proof.Machine

/-- An engine word completes: the engine stands as given and its team has made progress (R408). -/
def State.engineGoes (s : State) (x : EngAt) (e : Engine) : Host.Outcome State Fault Refusal :=
  .next ((s.modEngine x.team.id x.kind (fun _ => e)).engineProgress x.team)

/-- An engine word faults with a cause at its own index, before any effect (R29, R299). -/
def State.engineStops (s : State) (x : EngAt) (cause : Byte) : Host.Outcome State Fault Refusal :=
  .next (s.engineFault x cause x.engine.pc x.engine.pc 0)

/-- R28, R161: a word with the entries that it pops and those that it pushes, each top first. -/
def stackRows (lit : BitVec 13) (a b : Word) : List (Instr × List Word × List Word) := [
  (.push lit, [], [BitVec.ofInt 32 lit.toInt]),
  (.ext lit, [a], [BitVec.ofNat 32 (a.toNat * 2 ^ 13 + lit.toNat)]),
  (.dup, [a], [a, a]), (.drop, [a], []), (.swap, [b, a], [a, b]), (.over, [b, a], [a, b, a]),
  (.add, [b, a], [BitVec.ofNat 32 (a.toNat + b.toNat)]), (.sub, [b, a], [BitVec.ofInt 32 (a.toNat - b.toNat)]),
  (.mul, [b, a], [BitVec.ofNat 32 (a.toNat * b.toNat)]),
  (.engAnd, [b, a], [a &&& b]), (.engOr, [b, a], [a ||| b]), (.engXor, [b, a], [a ^^^ b]),
  (.engShl, [b, a], [if b.toNat < 32 then BitVec.ofNat 32 (a.toNat * 2 ^ b.toNat) else 0]),
  (.engShr, [b, a], [if b.toNat < 32 then BitVec.ofNat 32 (a.toNat / 2 ^ b.toNat) else 0])]

end Sys2Proof.Machine

/-- R28, R161: each literal, stack and arithmetic word pops and pushes what its row says and goes on with the next word; too
few entries, or more than eight after it, are a parameter stack fault; R29: word 2,047 that would fall through is an illegal
word. -/
def Obligations.EngineStack : Prop :=
  ∀ (lit : BitVec 13) (a b : Word), ∀ r ∈ stackRows lit a b, ∀ (s : State) (x : EngAt), s.engineIssuer = some x →
    (∀ rest, x.engine.stack = r.2.1 ++ rest → rest.length + r.2.2.length ≤ 8 →
      (x.engine.pc < 2047 →
        exec r.1 s = s.engineGoes x { x.engine with stack := r.2.2 ++ rest, pc := x.engine.pc + 1, took := false }) ∧
      (2047 ≤ x.engine.pc → exec r.1 s = s.engineStops x 0x40)) ∧
    (x.engine.stack.length < r.2.1.length ∨ 8 + r.2.1.length < x.engine.stack.length + r.2.2.length →
      exec r.1 s = s.engineStops x 0x41)

/-- R161, R162: GETL, SETL, LOOP, ENDL, JMP, JZ and HALT, WAITC and SIGC: the stack, the loop registers and the PC after each;
where the word waits, nothing changes. That HALT at word 2,047 stops with PC 0, and that LOOP with count 0 and no ENDL ahead reports word
2,047 with the PC at itself, are the model's choices (log 50). -/
def Obligations.EngineControlWords : Prop :=
  ∀ (s : State) (x : EngAt) (reg : Fin 3) (v t : Word) (rest : List Word), s.engineIssuer = some x → x.engine.pc < 2047 →
    let e := x.engine
    let l := e.loopReg reg
    let up : Engine := { e with pc := e.pc + 1, took := false }
    let popped : Engine := { e with stack := rest }
    let upPopped : Engine := { popped with pc := e.pc + 1, took := false }
    (e.stack.length < 8 → exec (.getl reg) s = s.engineGoes x { up with stack := (l.n - l.m) :: e.stack }) ∧
    (e.stack = v :: rest →
      exec (.setl reg) s = s.engineGoes x (upPopped.setLoop reg { l with m := v }) ∧
      (v ≠ 0 → exec (.engLoop reg) s = s.engineGoes x (upPopped.setLoop reg { n := v, m := v, start := e.pc + 1 })) ∧
      (v = 0 → ∀ k, e.pc < k → k < 2047 → decodeEngine x.kind (e.wordAt k) = .instr (.endl reg) →
        (∀ j, e.pc < j → j < k → decodeEngine x.kind (e.wordAt j) ≠ .instr (.endl reg)) →
        exec (.engLoop reg) s = s.engineGoes x { popped with pc := k + 1 }) ∧
      (v = 0 → (∀ k, e.pc < k → k < 2047 → decodeEngine x.kind (e.wordAt k) ≠ .instr (.endl reg)) →
        exec (.engLoop reg) s = .next (s.engineFault x 0x40 e.pc 2047 0)) ∧
      (v.toNat < 2048 → exec .jmp s = s.engineGoes x { popped with pc := v.toNat }) ∧
      (2048 ≤ v.toNat → exec .jmp s = s.engineStops x 0x40) ∧
      (e.sigs.length < 4 → exec .sigc s = s.engineGoes x { upPopped with sigs := e.sigs ++ [v] }) ∧
      (4 ≤ e.sigs.length → exec .sigc s = .next s)) ∧
    (1 < l.m.toNat → l.start < 2048 →
      exec (.endl reg) s = s.engineGoes x { e.setLoop reg { l with m := l.m - 1 } with pc := l.start }) ∧
    (l.m.toNat ≤ 1 → exec (.endl reg) s = s.engineGoes x (up.setLoop reg { l with m := 0 })) ∧
    (e.stack = t :: v :: rest →
      (v = 0 → t.toNat < 2048 → exec .jz s = s.engineGoes x { popped with pc := t.toNat }) ∧
      (v ≠ 0 → exec .jz s = s.engineGoes x upPopped)) ∧
    (e.ops = [] → exec .halt s =
      .next ((s.engineProgress x.team).modEngine x.team.id x.kind (fun _ =>
        { e with state := .stopped, halting := false, pc := e.pc + 1 }))) ∧
    (e.ops ≠ [] → exec .halt s = .next (s.modEngine x.team.id x.kind (fun _ => { e with halting := true }))) ∧
    (e.stack.length < 8 → e.cmds = v :: rest →
      exec .waitc s = s.engineGoes x { up with stack := v :: e.stack, cmds := rest }) ∧
    (e.stack.length < 8 → e.cmds = [] → exec .waitc s = .next s) ∧
    (8 ≤ e.stack.length → exec .waitc s = s.engineStops x 0x41)

/-- R163, R291: TKPOP, TKPSH and TKTST by the queue's consumer and producer move one token or push the count, wait on an empty
or a full queue, and are token map violations by another engine.
R165: AGSET, AGSTR, AGWRAP and AGRD set and read the generator, and wait while an operation uses it; an inner count of 0 is
an operand fault. A generator's address is its base and the walk's offset, taken to a remainder where it wraps. -/
def Obligations.EngineTokensAndGenerators : Prop :=
  (∀ (s : State) (x : EngAt) (q : BitVec 4), s.engineIssuer = some x → x.engine.pc < 2047 →
     let n := q.toNat
     let k := x.cluster.tokens.getD n 0
     let up : Engine := { x.engine with pc := x.engine.pc + 1, took := false }
     let set := fun (v : Nat) => s.modCluster x.team.id (fun c => { c with tokens := c.tokens.set n v })
     (mayPop x n = true →
       (0 < k → exec (.tkpop q) s = (set (k - 1)).engineGoes x up) ∧ (k = 0 → exec (.tkpop q) s = .next s) ∧
       (x.engine.stack.length < 8 →
         exec (.tktst q) s = s.engineGoes x { up with stack := BitVec.ofNat 32 k :: x.engine.stack }) ∧
       (8 ≤ x.engine.stack.length → exec (.tktst q) s = s.engineStops x 0x41)) ∧
     (mayPop x n = false → exec (.tkpop q) s = s.engineStops x 0x45 ∧ exec (.tktst q) s = s.engineStops x 0x45) ∧
     (mayPush x n = true → (k < 16 → exec (.tkpsh q) s = (set (k + 1)).engineGoes x up) ∧ (16 ≤ k → exec (.tkpsh q) s = .next s)) ∧
     (mayPush x n = false → exec (.tkpsh q) s = s.engineStops x 0x45)) ∧
  ((∀ (s : State) (x : EngAt) (a : BitVec 3) (u v w : Word) (rest : List Word), s.engineIssuer = some x → x.engine.pc < 2047 →
     let n := a.toNat
     let e := x.engine
     let g := x.cluster.gen n
     let set := fun (h : AddrGen) (st : List Word) => (s.modCluster x.team.id (fun c => { c with gens := c.gens.set n h })).engineGoes
       x { e with stack := st, pc := e.pc + 1, took := false }
     let free := e.genInUse n = false
     let busy := e.genInUse n = true
     (e.stack = v :: u :: rest → rest.length ≤ 8 →
       (free → exec (.agset a) s = set { base := v ++ u, s0 := 0, s1 := 0, c0 := 1, i := 0, j := 0, wrap := 0 } rest) ∧
       (busy → exec (.agset a) s = .next s)) ∧
     (e.stack = w :: v :: u :: rest → rest.length ≤ 8 →
       (v ≠ 0 → free → exec (.agstr a) s = set { g with s0 := u, c0 := v, s1 := w, i := 0, j := 0 } rest) ∧
       (v ≠ 0 → busy → exec (.agstr a) s = .next s) ∧
       (v = 0 → exec (.agstr a) s = s.engineStops x 0x42)) ∧
     (e.stack = w :: rest → rest.length ≤ 8 →
       (free → exec (.agwrap a) s = set { g with wrap := w } rest) ∧ (busy → exec (.agwrap a) s = .next s)) ∧
     (e.stack = rest → rest.length < 8 →
       (free → exec (.agrd a) s = set g (BitVec.ofNat 32 g.address.toNat :: rest)) ∧ (busy → exec (.agrd a) s = .next s))) ∧
   (∀ g : AddrGen,
     let o : Int := g.i.toNat * g.s0.toInt + g.j.toNat * g.s1.toInt
     g.address = BitVec.ofInt 64 (g.base.toNat + if g.wrap = 0 then o else o % g.wrap.toNat)))

namespace Sys2Proof.Machine

/-- R166 to R170: the launch words, with their operations. -/
def launchRows (pop push : BitVec 4) : List (Instr × EngCode × EngineKind × Nat × Nat) := [
  (.cpyin pop push, .cpyin, .access, 0, 5), (.cpyout pop push, .cpyout, .access, 1, 5), (.gath pop push, .gath, .access, 2, 6),
  (.scat pop push, .scat, .access, 3, 6), (.mdfil pop push, .mdfil, .access, 4, 5), (.wpre pop push, .wpre, .array, 0, 4),
  (.wswp pop push, .wswp, .array, 1, 0), (.strm pop push, .strm, .array, 2, 6), (.strms pop push, .strms, .array, 3, 6),
  (.drn pop push, .drn, .drain, 0, 5), (.dclr pop push, .dclr, .drain, 1, 2), (.kscl pop push, .kscl, .kiln, 0, 6),
  (.kpack pop push, .kpack, .kiln, 1, 8), (.kunpk pop push, .kunpk, .kiln, 2, 8)]

end Sys2Proof.Machine

/-- R164: a launch word takes its parameters, its token and starts its operation, behind the outstanding ones; it waits for a
token, and, with the token taken, for room and for the generators it names (R165); a parameter outside its limits, too few
parameters and another engine's queue are faults that take no token. The model's choices: the token map is asked before the stack, and
the stack before the parameters and the token (log 50), and what one generator does on both sides of a copy (log 71). -/
def Obligations.EngineLaunches : Prop :=
  ∀ (pop push : BitVec 4), ∀ r ∈ launchRows pop push, ∀ (s : State) (x : EngAt), s.engineIssuer = some x →
    let e := x.engine
    let n := r.2.2.2.2
    let params := (e.stack.take n).reverse
    let p := fun i => (params.getD i 0).toNat
    let mapped := (pop = 0 ∨ mayPop x pop.toNat = true) ∧ (push = 0 ∨ mayPush x push.toNat = true)
    let k := x.cluster.tokens.getD pop.toNat 0
    let s1 := if pop = 0 ∨ e.took = true then s
      else s.modCluster x.team.id (fun c => { c with tokens := c.tokens.set pop.toNat (k - 1) })
    let ready := e.took = true ∨ pop = 0 ∨ 0 < k
    let room := e.ops.length < 4 ∧ ∀ g ∈ copyGens r.2.1 p, e.genInUse g = false
    x.kind = r.2.2.1 → (∀ o ∈ e.ops, o.stopCause = 0) → e.pc < 2047 →
    (mapped → n ≤ e.stack.length → (e.took = true ∨ launchOk x.cluster r.2.1 p = true) →
      (ready → room → ∃ op : EngOp, op.code = r.2.2.2.1 ∧ op.pop = pop.toNat ∧ op.push = push.toNat ∧ op.params = params ∧
        op.word = e.pc ∧ op.id = e.launched ∧ op.started = false ∧ op.row = 0 ∧ op.stopCause = 0 ∧ op.abandoned = false ∧
        exec r.1 s = s1.engineGoes x
          { e with stack := e.stack.drop n, ops := e.ops ++ [op], pc := e.pc + 1, took := false, launched := e.launched + 1 }) ∧
      (ready → ¬ room → exec r.1 s = .next (s1.modEngine x.team.id x.kind (fun _ => { e with took := true }))) ∧
      (¬ ready → exec r.1 s = .next s)) ∧
    (mapped → n ≤ e.stack.length → e.took = false → launchOk x.cluster r.2.1 p = false → exec r.1 s = s.engineStops x 0x42) ∧
    (mapped → e.stack.length < n → exec r.1 s = s.engineStops x 0x41) ∧
    (¬ mapped → exec r.1 s = s.engineStops x 0x45)

/-- R29, R299, R300: an engine fault leaves the engine faulted with its PC, everything else of it as it was, and a report that
names the word waits at a control core that still runs; the illegal word is cause 0x40. -/
def Obligations.EngineFaults : Prop :=
  (∀ (s : State) (x : EngAt) (cause : Byte) (pc word : Nat) (v : Dword), s.engineIssuer = some x → x.cluster.exited = false →
    let t := s.engineFault x cause pc word v
    (∃ y : EngAt, t.engineAt x.team.id x.kind = some y ∧
      y.engine = { x.engine with state := .faulted, cause := cause, pc := pc, took := false, halting := false } ∧
      ∀ k, k ≠ x.kind → y.cluster.engine k = x.cluster.engine k) ∧
    (∀ g, s.group? x.team.id 0 = some g → ∃ g1, t.group? x.team.id 0 = some g1 ∧
      g1 = { g with async := g.async ++ [.engineFault x.kind cause word v] }) ∧
    t.mem = s.mem ∧ t.memPoison = s.memPoison ∧ t.tier = s.tier ∧ t.hub0 = s.hub0 ∧ t.hub1 = s.hub1 ∧
    t.agenda = s.agenda ++ [.engineFaultReport x.team.id]) ∧
  (∀ (s : State) (x : EngAt), s.engineIssuer = some x → exec .engineIllegalWord s = s.engineStops x 0x40)

/-! ## Hardware events -/

namespace Sys2Proof.Machine

/-- A step of the hardware completes with the effects of s1, once nothing that it asked of other packages is unanswered; the answers
are used up (log 83). -/
def Closes (i : Instr) (s s1 : State) : Prop := s1.asked = [] → exec i s = .next s1.answersUsed

end Sys2Proof.Machine

/-- R182, R235, R239, R240, R386, R400, R408: what a hub does at its queues: a doorbell offers the window's packet unless the queue
is busy or the host does not reach the hub; the checks of the head packet retire it with launch error and a reason or let it wait or be
placed; a satisfied signal is counted; a page request that is completed leaves the ring; errors are counted; a packet or a group whose
patrol counter reaches its limit is killed with 0x55 or takes 0x53.
The model's choices among these clauses: which hub a host reaches after a failed boot, and that a doorbell to another is lost (log 30);
that a doorbell is answered in one step (log 60);
which packets a queue's expired count kills (log 55), and the values that no rule states of a patrol's trap (log 16). -/
def Obligations.QueueEvents : Prop :=
  ∀ (s : State) (h : HubId) (n : Nat),
    let q := (s.hub h).queue n
    let sp := queueSpace h q
    (q.busy = true → exec (.doorbell h n) s = .next s) ∧
    (s.hostReaches h = false → exec (.doorbell h n) s = .next s) ∧
    (q.busy = false → s.hostReaches h = true → ∀ (t : State) (st : Nat),
      s.offerPacket h n hostSpace (some ((List.range 128).map (fun i => q.window.getD i 0))) = (t, st) →
      exec (.doorbell h n) s = .next (t.modQueue h n (fun x => { x with status := BitVec.ofNat 8 st }))) ∧
    (∀ p : Packet, q.head = some p → p.life = .queued →
      (∀ (t : State) (r : Nat), s.readBundle sp p = .bad t r →
        Closes (.bundleValidation h n) s (t.retirePacket h n p.seq 1 (BitVec.ofNat 8 r) [])) ∧
      (∀ (t : State) (d : KernelDesc) (v : Nat), s.readBundle sp p = .good t d v →
        (p.bad q d v = true → Closes (.bundleValidation h n) s (t.retirePacket h n p.seq 1 0x0A [])) ∧
        (p.bad q d v = false → ∀ u : State,
          (t.readMap sp h p d = (u, none) → Closes (.bundleValidation h n) s (u.retirePacket h n p.seq 1 0x0A [])) ∧
          (∀ m : PlacementMap, t.readMap sp h p d = (u, some m) →
            Closes (.bundleValidation h n) s (u.modPacket h n p.seq (fun x =>
              { x with life := if p.field 2 1 = 0 then .placing else .waiting, desc := some d, map := some m, index := some [0, 0, 0, 0] })))))) ∧
    (∀ (p : Packet) (k : Nat), q.head = some p → p.life = .waiting → k < p.field 2 1 → p.satisfied.contains k = false →
      let read := Instr.dependenceSignalRead h n k
      let refused := Host.Outcome.next (φ := Fault) (ρ := Refusal) (s.retirePacket h n p.seq 1 0x0A [])
      (∀ f, translate s sp (p.signalAddress k) .read = .bad f → exec read s = refused) ∧
      (∀ x, translate s sp (p.signalAddress k) .read = .ok x → (s.hubReach h x 8).isSome = true → exec read s = refused) ∧
      (∀ x, translate s sp (p.signalAddress k) .read = .ok x → s.hubReach h x 8 = none →
        let a := s.hubAsks h (lineOfKey x.key)
        let r := a.1.hubFetch sp (p.signalAddress k) 8 x
        let t := r.1.hubAcquire h (lineOfKey x.key)
        (a.2 = false → exec read s = .next a.1) ∧
        (a.2 = true → linkOrigin r.2.2 = true → Closes read s (t.retirePacket h n p.seq 1 0x0A [])) ∧
        (a.2 = true → r.2.2 = 0 → p.field (0x60 + 8 * k) 8 ≤ ofBytes r.2.1 → Closes read s (t.modPacket h n p.seq (fun y => y.satisfy k))) ∧
        (a.2 = true → linkOrigin r.2.2 = false → (r.2.2 ≠ 0 ∨ ofBytes r.2.1 < p.field (0x60 + 8 * k) 8) → Closes read s t))) ∧
    (∀ (c : Candidate) (cs : List Candidate) (t : State) (us : List CoreUnit), (s.emitAll h).candidatesOf h = c :: cs →
      (s.emitAll h).consider h [] c = (t, true, us) → exec (.placementConsideration h) s = .next t) ∧
    ((s.emitAll h).candidatesOf h = [] → exec (.placementConsideration h) s = .next (s.emitAll h)) ∧
    (∀ (va : Dword) (cause status : Byte), exec (.completionRecordFault h va cause status) s =
      .next (s.modHub h (fun x => x.queueEvent 0x76 va (BitVec.ofNat 64 (cause.toNat % 128 + 256 * status.toNat))))) ∧
    (∀ (p : Packet), s.packetsOver h q = [p] → exec (.queuePatrolExpiry h n) s =
      .next ((s.modQueue h n (fun x => { x with patrolCount := 0 })).killPacket h n p.seq 0x55)) ∧
    (exec (.correctedError h) s = .next (s.modHub h (fun x => { x with cecnt := x.cecnt + 1 }))) ∧
    (∀ x : ErrorTarget, exec (.uncorrectableError x) s =
      .next ((s.modHub (s.errorHub x) (fun y => { y with uecnt := y.uecnt + 1 })).errorIn x)) ∧
    (∀ (t : Team) (g : Group) (e : HubEvent), s.eventReady h = some (t, g, e) →
      exec (.eventDelivery h) s =
        .next ((s.modHub h (fun x => { x with events := x.events.tail })).takeAsync t.id g.gid e.cause.toNat e.val e.val2)) ∧
    (∀ (x : StopSource) (a : PageAsk), s.pageAsk x = some a → (s.hub a.team.hub).ringFull = true → exec (.pageRequest x) s = .next s) ∧
    (∀ (x : StopSource) (a : PageAsk), s.pageAsk x = some a → (s.hub a.team.hub).ringFull = false →
      ∃ t : State, exec (.pageRequest x) s = .next t ∧ (t.hub a.team.hub).prqt = (s.hub a.team.hub).prqt + 1 ∧
        { tag := (s.hub a.team.hub).freeTag, source := x, slot := (s.hub a.team.hub).prqt } ∈ (t.hub a.team.hub).requests) ∧
    (∀ (tag : Half) (r : PageRequest), (s.hub h).requests.find? (fun y => y.tag == tag) = some r →
      let t := s.modHub h (fun x => { x with requests := x.requests.filter (fun y => y.tag != tag) })
      (∀ team copy, r.source = .copy team copy →
        exec (.prqcResume h tag) s = .next (t.disposeCopy team copy false) ∧
        exec (.prqcDecline h tag) s = .next (t.disposeCopy team copy true)) ∧
      (∀ team, r.source = .engine team →
        exec (.prqcResume h tag) s = .next (t.disposeOp team false) ∧ exec (.prqcDecline h tag) s = .next (t.disposeOp team true))) ∧
    (∀ (o : Nat) (v : Dword), exec (.registerWrite h o v) s = .next (s.writeQueueSpace h true o v)) ∧
    (∀ (t : Team) (tid gid : Nat) (g : Group) (w : EntryWait), s.team? tid = some t → s.group? tid gid = some g →
      s.groupOver t g = true → g.patrolWait = some w →
      ∃ v v2, exec (.groupPatrolExpiry tid gid) s =
        .next (s.modGroup tid gid (fun x => { x.post (.patrol 0x53 v v2) with patrolCount := 0 })) ∧
        (∀ b m, w.kind = .barrier b m → v = 1 ∧ v2 = BitVec.ofNat 64 b) ∧ (∀ l, w.kind = .absentLine l → v = 2 ∧ v2 = BitVec.ofNat 64 (128 * l))) ∧
    (∀ (t : Team) (tid : Nat), s.team? tid = some t → s.teamOver t = true → t.twin = none →
      (t.cluster.any (fun c => c.exited) = true → exec (.clusterPatrolExpiry tid) s = .next (s.killTeam tid 0x54)) ∧
      (t.cluster.any (fun c => c.exited) = false → ∃ v v2, exec (.clusterPatrolExpiry tid) s =
        .next (s.modTeam tid (fun x => { x with
          patrolCount := 0, groups := x.groups.map (fun g => if g.retired then g else g.post (.patrol 0x54 v v2)) }))))

/-- R65, R190, R192, R212, R215, R228, R246 to R253, R260, R402: what becomes of teams and groups: the cores of a placement are
reserved one after the other and it commits with the last, or returns whole; a cleared team issues; a group's slot is freed;
mail, a revocation and a pre-emption are taken at an issue boundary; an overdue save kills with 0x70. That an
event whose condition does not hold changes nothing (log 6), and how a save and a placement go on where R249 to R253 leave it open (logs
56 and 57), are the model's choices. -/
def Obligations.TeamEvents : Prop :=
  ∀ (s : State) (tid : Nat) (t : Team), s.team? tid = some t →
    (∀ j, t.life = .reserving j →
      (∀ u, t.wantCores[j]? = some u → s.reservedBefore t u = true → exec (.coreReservation tid) s = .next s) ∧
      (∀ u, t.wantCores[j]? = some u → s.reservedBefore t u = false →
        let part := t.wantParts.getD j j
        (s.usable u = false → exec (.coreReservation tid) s = .next (s.returnPlacement tid)) ∧
        (s.usable u = true → s.shareOf t.needNow [t.id] part u = none → exec (.coreReservation tid) s = .next (s.returnPlacement tid)) ∧
        (∀ (sh : CoreShare) (slots : List Nat), s.usable u = true → s.shareOf t.needNow [t.id] part u = some (sh, slots) →
          let s1 := s.modTeam tid (fun x => { x with
            cores := x.cores ++ [sh], groups := x.seat j (t.needNow.cores.getD part ([], 0)).1 slots, life := .reserving (j + 1) })
          exec (.coreReservation tid) s = .next (if j + 1 = t.wantCores.length then s1.acknowledge tid else s1)))) ∧
    (t.source ≠ .launch → s.acknowledge tid = s.commitPlacement tid) ∧
    (t.source = .launch → t.twin = none → s.acknowledge tid = ((s.commitPlacement tid).modPacket t.hub t.queue t.packet (fun p =>
      p.handOut (t.ix.map (fun w => w.toNat)))).queueProgress t) ∧
    (∀ w, t.source = .launch → t.twin.bind s.team? = some w → w.reserved = false →
      s.acknowledge tid = (s.modTeam tid (fun x => { x with leader := true })).modTeam w.id (fun x => { x with leader := false })) ∧
    (t.life = .clearing true → t.source ≠ .launch → exec (.rangeClearDone tid) s = .next (s.returnPlacement tid)) ∧
    (t.life = .clearing true → t.source = .launch → exec (.rangeClearDone tid) s = .next (s.modTeam tid (fun x => { x with life := .withdrawing }))) ∧
    (t.life = .clearing false → t.source = .launch →
      exec (.rangeClearDone tid) s = .next (s.startTeam t)) ∧
    (t.life = .clearing false → t.source = .saved →
      exec (.rangeClearDone tid) s = .next (s.modTeam tid (fun x => { x with life := .restoring }))) ∧
    (t.life = .clearing false → t.source = .parked → s.teamQuiet t = true → exec (.rangeClearDone tid) s = .next (s.unpark t)) ∧
    (t.life = .withdrawing → t.twin = none → exec (.withdrawal tid) s = .next (s.returnPlacement tid)) ∧
    (∀ (gid : Nat) (g : Group), s.group? tid gid = some g →
      (s.slotReady t g = true → (∀ f, firstFailure g.failures = some f → exec (.groupSlotFree tid gid) s = .next (s.killTeam tid f.cause)) ∧
        (firstFailure g.failures = none →
          exec (.groupSlotFree tid gid) s = .next ((s.modGroup tid gid (fun x => { x with slotFreed := true })).settleTeam tid))) ∧
      (∀ c, firstCause g.takable = some c → g.retired = false → g.saved = false →
        let took := Host.Outcome.next (φ := Fault) (ρ := Refusal) ((s.modGroup tid gid (fun x => { x with async := x.async.erase c })).takeCause tid gid c)
        (∀ b, c = .preemption b → exec (.preemption tid gid) s = took) ∧
        (c = .harvestRevoke → exec (.harvestRevoke tid gid) s = took) ∧
        (∀ x y z, c = .mail x y z → exec (.mailUndeliverable tid gid) s = took)) ∧
      (s.overBudget t g = true → exec (.saveBudgetExpiry tid gid) s = .next (s.killTeam tid 0x70)) ∧
      (s.overBudget t g = false → exec (.saveBudgetExpiry tid gid) s = .next s) ∧
      (∀ w, g.waits = [w] → exec (.entryWake tid gid) s = .next (s.wakeWait tid gid w)) ∧
      (∃ f : EntryWait → EntryWait, exec (.waiteRecheck tid gid) s = .next (s.modGroup tid gid (fun x => { x with waits := x.waits.map f })) ∧
        (∀ (w : EntryWait) a k b, w.kind = .memoryWord a k b → f w = { w with kind := .rereading k }))) ∧
    (t.allSaved = true → exec (.teamSaveComplete tid) s = .next (s.hubSave t)) ∧
    (t.life = .restoring → s.teamQuiet t = true → Closes (.teamRestoreComplete tid) s (s.hubRestore t)) ∧
    (t.life = .rollingBack → exec (.rollbackComplete tid) s = .next (s.modTeam tid (fun x =>
      if x.life = .rollingBack then { x.preemptAfter with life := .running } else x))) ∧
    (∀ (c : CoreId) (r : Revocation), s.revocations.find? (fun x => decide (x.core = c)) = some r → (s.cycle - r.start).toNat < 384 →
      exec (.revocationComplete c) s = .next s) ∧
    (∀ (c : CoreId) (r : Revocation), s.revocations.find? (fun x => decide (x.core = c)) = some r → 384 ≤ (s.cycle - r.start).toNat →
      ∃ u : State, exec (.revocationComplete c) s = .next u ∧ ∀ x ∈ u.revocations, x.core ≠ c)

/-- R20, R64, R116, R133, R187, R190, R316, R331, R338, R341 to R345, R351, R426, R429, R430: what happens to code lines, stores, lines and mail
on their way: a filled code line holds the words of its home; a line moves through the directory's states; a home answers a
request and its response frees it; a reference ends a hub's fence; an acknowledged mail leaves; a persist entry reaches the
tier.
The model's choices among these clauses: that an event whose condition does not hold changes nothing, and that a request or mail that
is held back comes again (log 6), which hub a host reaches (log 30), what a peer's request makes of a durable line (log 58), that stores
on their way are checked again at their target (log 78), and that mail waits for an image that is still written (log 82). -/
def Obligations.MemoryEvents : Prop :=
  ∀ (s : State) (h : HubId) (n line : Nat),
    let hub := s.hub h
    let d := hub.entry line
    let quiet := homed h line = true ∧ d.pending = none
    (∀ (u : CoreUnit) (asn : Half) (va : Dword) (t : Team) (g : Group) x, s.fetcher u asn = some (t, g) →
      translate s (fetchSpace t g u) va .fetch = .ok x →
      (s.linkError (unitHub u) (lineOfKey x.key) = none →
        Closes (.codeLineFill u asn va) s ((s.touch (fetchSpace t g u) va .fetch x).fillLine u asn (lineOf va) x)) ∧
      ((s.linkError (unitHub u) (lineOfKey x.key)).isSome = true → exec (.codeLineFill u asn va) s = .next s)) ∧
    (∀ (t : Team) (g : Group) (u : CoreUnit) (p : LanePos), s.issuer = some (t, g, u, p) → bits p.pc 1 0 ≠ 0 →
      exec .branchIntoLiteral s = .next (s.fetchFault t.id g.gid (g.entryLanes p)
        { cause := 0x06, pc := p.pc, lanes := g.entryLanes p, val := 5, val2 := p.pc }).answersUsed) ∧
    (∀ r : Reservation, hub.reservations[n]? = some r → 4096 ≤ (s.cycle - r.cycle).toNat →
      exec (.reservationExpiry h n) s = .next (s.modHub h (fun x => { x with reservations := x.reservations.eraseIdx n }))) ∧
    (∀ (c : CoreId) (e : Combining), (s.core (.vector c)).combining[n]? = some e → s.mayDrain (.vector c) e = true →
      let u := s.modCore (.vector c) (fun x => { x with combining := x.combining.erase e })
      let refused := s.refusedLate c.hub e.team e.gid e.line 1 e.made.kernel
      (refused = none → exec (.storeCombiningDrain c n) s = .next (u.performEntry c.hub e)) ∧
      (∀ pos, refused = some pos →
        exec (.storeCombiningDrain c n) s = .next (u.holdFailure e.team e.gid (s.lateFailure e.line pos e.bytes e.made)))) ∧
    (∀ x : Txn, s.txn? n = some x → x.answer = none → x.error = none → x.plane ≠ heldPlane →
      let answered := fun (u : State) (data origins : List Byte) (lease : Dword) => Host.Outcome.next (φ := Fault) (ρ := Refusal)
        ((u.modTxn x.id (fun y => { y with
          answer := some { data := data, origins := origins, wts := u.wtsOf x.line, lease := lease, failed := 0 } })).due
          (.transactionResponse x.id))
      let denied := Host.Outcome.next (φ := Fault) (ρ := Refusal)
        ((s.modTxn x.id (fun y => { y with error := some 0x26 })).due (.transactionResponse x.id))
      (x.kind = .read false → s.txnBehind x = false →
        exec (.plainRead n) s = answered (s.ioRead x.line) (s.homeLine x.line) (s.lineOrigins x.line) 0) ∧
      (x.kind = .read true → s.txnBehind x = false → ∃ (u : State) (l : Dword), s.grantLease x.hub x.line = (u, l) ∧
        exec (.leasedRead n) s = answered (u.ioRead x.line) (s.homeLine x.line) (s.lineOrigins x.line) l) ∧
      (∀ bs how, x.kind = .write bs how → s.txnBehind x = false →
        let refused := s.refusedLate x.hub x.team x.gid x.line 1 how.made.kernel
        (refused = none → exec (.homeWrite n) s = answered (s.homeWriteLine x.line bs (x.writer how false)) [] [] 0) ∧
        (refused.isSome = true → exec (.homeWrite n) s = denied)) ∧
      (∀ r how, x.kind = .rmw r how → s.txnBehind x = false →
        let refused := s.refusedLate x.hub x.team x.gid x.line 2 how.made.kernel
        (refused = none → exec (.homeWrite n) s = answered (s.rmwAtHome r (x.writer how true)) (s.homeBytes r.key r.size)
          (List.replicate r.size (s.poisonIn r.key r.size)) 0) ∧
        (refused.isSome = true → exec (.homeWrite n) s = denied)) ∧
      (x.kind = .read false → s.txnBehind x = true → exec (.plainRead n) s = .next (s.due (.plainRead n))) ∧
      (s.txnOver x = true → exec (.transactionTimeout n) s = .next (s.txnError n (s.timeoutCause x)))) ∧
    (∀ x : Txn, s.txn? n = some x →
      let u := { s with txns := s.txns.filter (fun y => y.id != n) }
      (∀ e, x.error = some e → exec (.transactionResponse n) s = .next (u.failTxn x e)) ∧
      (∀ a, x.error = none → x.answer = some a → exec (.transactionResponse n) s = .next (u.answerTxn x a))) ∧
    (quiet → n < 44 → hub.copyOf n line = none → d.state = .I →
      ∃ u : State, exec (.peerRead h n ⟨line, false⟩) s = .next u ∧ (u.hub h).entry line = { d with state := .E, owner := n, sharers := [] } ∧
        (u.hub h).copyOf n line = some { peer := n, line := line, state := .E, data := s.homeLine line }) ∧
    (quiet → n < 44 → hub.copyOf n line = none → s.durableLine line = true → d.state = .I →
      ∃ u : State, exec (.peerRead h n ⟨line, true⟩) s = .next u ∧ (u.hub h).entry line = { d with state := .S, sharers := [n] } ∧
        (u.hub h).copyOf n line = some { peer := n, line := line, state := .S, data := s.homeLine line }) ∧
    (quiet → n < 44 → (∀ p ∈ hub.peers, p.line = line → p.peer = n) →
      ∃ u : State, exec (.readExclusive h n line) s = .next u ∧ exec (.upgrade h n line) s = .next u ∧
        (u.hub h).entry line = { line := line, state := .M, owner := n, sharers := [], pending := none }) ∧
    (∀ (p : Nat), d.pending = some (n, [p]) → exec (.invalidationAcknowledgement h p line) s = .next (s.grantM h n line)) ∧
    (∀ (p q : Nat), p ≠ q → d.pending = some (n, [p, q]) → exec (.invalidationAcknowledgement h p line) s =
      .next (s.modHub h (fun x => x.setEntry { d with pending := some (n, [q]) }))) ∧
    (∀ p : PeerLine, quiet → hub.copyOf n line = some p → d.owner = n → d.state = .M → p.dirty = true →
      exec (.writeBack h n line) s = .next ({ s with mem := s.mem.writeBytes (line * 128) (p.data.take 128) }.modHub h (fun x =>
        (x.dropCopy n line).setEntry { d with state := .I, owner := 0 }))) ∧
    (∀ p : PeerLine, quiet → hub.copyOf d.owner line = some p → d.state = .M →
      exec (.ioCoherentRead h line) s = .next (s.setHub h ((hub.setCopy { p with state := .O }).setEntry { d with state := .O }))) ∧
    (∀ (bs : List (Nat × Byte)) (durable : Bool), homed h line = true → (∀ b ∈ bs, b.1 < 128) →
      (durable = true → s.durableLine line = true ∧ s.roomForKeys (bs.map (fun b => line * 128 + b.1)) = true) →
      exec (.ioCoherentWrite h ⟨line, durable⟩ bs) s =
        .next (s.homeWriteLine line (bs.map (fun b => (line * 128 + b.1, b.2))) { hubWriter h with durable := durable })) ∧
    (∀ ref : Dword,
      let u := hub.livePlanes.foldl State.heard s
      exec (.refUpdate h ref) s = .next (u.modHub h (fun x =>
        { x.raise ref with lref := ref, lastRef := u.tbase, fenced := false, cut := false }))) ∧
    (s.referencePackage ≠ s.flash.package → exec .refBroadcast s = .next s) ∧
    (s.referencePackage = s.flash.package → ∃ u : State, exec .refBroadcast s = .next u ∧
      u.hub0.fenced = false ∧ u.hub0.lref = s.refNow ∧ u.hub0.lastRef = s.tbase ∧
      (s.bridgeUp = true → s.hubPresent .h1 = true → u.hub1.fenced = false ∧ u.hub1.lref = s.refNow ∧ u.hub1.lastRef = s.tbase) ∧
      (s.bridgeUp = false → u.hub1.fenced = s.hub1.fenced ∧ u.hub1.lref = s.hub1.lref ∧ u.hub1.lastRef = s.hub1.lastRef)) ∧
    (hub.fenced = false →
      let u := s.modHub h (fun x => { x with fenced := true, fencedAt := s.tbase, rdc := [] })
      exec (.guardAnswer h) s = .next u ∧ (s.unreferenced h = true → exec (.leaseFenceTimeout h) s = .next u)) ∧
    (s.cutOff h = true → exec (.leaseCut h) s = .next (s.modHub h (fun x => { x with cut := true }))) ∧
    (∀ note : Note, hub.notes = [note] → note.line = line → note.published = false → note.core = none →
      ∃ u : State, exec (.releasePublished h line) s = .next u ∧ u = s.publish note) ∧
    (∀ e : PersistEntry, hub.persist[n]? = some e → exec (.persistBufferDrain h n) s =
      .next (({ s with
          tier := s.tier.writeBytes (e.granule * 64) e.data
          tierPoison := e.origins.zipIdx.foldl (fun (m : Marks) (x : Byte × Nat) => m.write (e.granule * 16 + x.2) x.1) s.tierPoison } :
        State).modHub h (fun x =>
        { x with persist := x.persist.eraseIdx n }))) ∧
    (exec (.energyStoreDecline h n) s =
      .next (s.modHub h (fun x => if n < x.pbcap.toNat then { x with pbcap := BitVec.ofNat 24 n } else x))) ∧
    (∀ m : Mail, s.mails.find? (fun y => y.id == n) = some m →
      let answered := fun (u : State) (r : Nat) => Host.Outcome.next (φ := Fault) (ρ := Refusal)
        ((u.modMail m.id (fun y => { y with outcome := some r })).due (.mailAck m.id))
      let travels := m.outcome = none ∧ m.forward = false ∧ ¬(s.nameAway m.name = true ∧ m.plane = heldPlane)
      (travels → s.mailHeld m = true → exec (.mailArrival n) s = .next (s.due (.mailArrival n))) ∧
      (travels → s.mailHeld m = false →
        (∀ u r, s.direct m false = .answer u r → exec (.mailArrival n) s = answered u r) ∧
        (∀ u, s.direct m false = .forward u →
          exec (.mailArrival n) s = .next ((u.modMail m.id (fun y => { y with forward := true })).due (.mailForward m.id))) ∧
        (s.direct m false = .wait → exec (.mailArrival n) s = .next (s.due (.mailArrival n)))) ∧
      (m.outcome = none → m.forward = true → ∀ u r, s.direct m true = .answer u r → exec (.mailForward n) s = answered u r) ∧
      (∀ r, m.outcome = some r →
        let u := { s.heard m.plane with mails := s.mails.filter (fun y => y.id != n) }
        exec (.mailAck n) s = .next (if r = 0 then u else u.refuseMail m r))) ∧
    (∀ (x : AccessTarget) (e : AccessEntry), n < 64 → ∃ u : State, exec (.accessTableWrite x n e) s = .next u ∧
      (x, n, maskEntry e) ∈ u.access ∧ (∀ y m f, (y ≠ x ∨ m ≠ n) → ((y, m, f) ∈ u.access ↔ (y, m, f) ∈ s.access))) ∧
    (∀ (wd wr : Bool) (a : Nat) (bs : List Byte), s.hub0.recovery = true → exec (.hostAccess wd wr a bs) s = .next s) ∧
    (∀ (a : Nat) (bs : List Byte), exec (.hostAccess true true a bs) s = .next (s.hostWindow a bs) ∧
      exec (.hostAccess true false a bs) s = .next s ∧ exec (.hostAccess false true a bs) s = .next (s.hostWrite a bs) ∧
      exec (.hostAccess false false a bs) s = .next (s.hostRead a bs.length))

/-- R123 to R125, R164, R166, R283, R290, R299 to R301, R305, R448: what copies and engine operations do after their issue: a line
lands or its write fails; a copy without lines left arrives at its barrier; a fault stops the copy or the operation at its
cursor and asks for the page; the oldest complete operation pushes its token; poison at store and a refused write fault the
engine; HALT stops it; a report reaches the control core. The model's choices: which of several
pieces or operations moves next (log 1), and that an event whose condition does not hold changes nothing (log 6). -/
def Obligations.CopyAndEngineEvents : Prop :=
  ∀ (s : State) (tid n : Nat) (k : EngineKind),
    (∀ x : CopyAt, s.copyAt tid n = some x →
      (∀ p, x.pick (s.piecesWith x (fun f => decide (f = .lands ∨ f = .mismatch))) = some p →
        (s.pieceFate x p = .mismatch → exec (.copyLineLanded tid n) s = .next (s.pairMismatch tid)) ∧
        (s.pieceFate x p ≠ .mismatch → x.copy.dir = .outward → Closes (.copyLineLanded tid n) s (s.writePiece x p)) ∧
        (s.pieceFate x p ≠ .mismatch → x.copy.dir ≠ .outward → Closes (.copyLineLanded tid n) s (s.landPiece x p))) ∧
      (∀ p, x.pick (s.piecesWith x (fun f => decide (f = .fails))) = some p → exec (.copyWriteFailure tid n) s = .next (s.writePiece x p)) ∧
      (∀ p f va, s.stoppingPiece x = some (p, f, va) → ∃ u : State, exec (.copyTranslationFault tid n) s = .next u ∧
        u.agenda = s.agenda ++ [.pageRequest (.copy tid n)] ∧ u.mem = s.mem ∧
        (∀ t ∈ u.teams, t.id = tid → ∀ c ∈ t.copies, c.id = n → c.stopped = true ∧ c.cursor = p ∧ c.stopVa = va)) ∧
      (x.copy.left = [] → x.team.onCores = true → x.copy.dir ≠ .outward → x.copy.barrier.any x.team.opening = false → s.copyReleased x = true →
        let u := s.modTeam tid (fun t => { t with copies := t.copies.filter (fun y => y.id != n) })
        (∀ b, x.copy.barrier = some b → exec (.copyCompletion tid n) s = .next (u.arriveAt tid b none none)) ∧
        (x.copy.barrier = none → exec (.copyCompletion tid n) s = .next u))) ∧
    (∀ x : EngAt, s.engineAt tid k = some x →
      (∀ q, pickOp s (s.opTurns x) = some q → Closes (.engineOpStart tid k) s (s.turnOp x q)) ∧
      (∀ o rest, x.engine.ops = o :: rest → s.mayFinish x = true →
        let u := s.modCluster tid (fun c => { c with
          efpst := c.efpst ||| o.flags.setWidth 64
          tokens := if o.push = 0 then c.tokens else c.tokens.set o.push (c.tokens.getD o.push 0 + 1) })
        exec (.engineOpFinish tid k) s = .next ((u.modEngine tid k (fun e => { e with ops := rest })).engineProgress x.team)) ∧
      (s.mayFinish x = false → exec (.engineOpFinish tid k) s = .next s) ∧
      (k = .access → ∀ q, pickOp s (s.opStops x) = some q → ∀ off f, s.opFate x q.1 = .stops off f →
        Closes (.engineTranslationFault tid) s (s.stopOp x q.2 q.1 off f)) ∧
      (k = .access → ∀ q, pickOp s (s.opPoisons x) = some q →
        exec (.enginePoisonAtStore tid) s = .next ((s.startRow x q.2 q.1).opFault x q.2 0x44 q.1.row 0)) ∧
      (∀ cause o, k = .access →
        x.engine.ops.find? (fun o => o.started && !o.abandoned && (engCode .access o.code).outward) = some o →
        exec (.engineWriteRefused tid cause) s =
          .next (s.engineRefused tid o.id (min o.row (opRows (engCode .access o.code) o.par - 1)) cause)) ∧
      (x.engine.halting = true → x.engine.ops = [] → x.engine.state = .running → x.cluster.frozen = false →
        exec (.engineStop tid k) s = .next (((s.modEngine tid k Engine.stop).engineProgress x.team).settleArray tid))) ∧
    (∀ (t : Team) (c : Cluster), s.team? tid = some t → t.cluster = some c →
      (c.exited = true → exec (.engineFaultReport tid) s = .next (s.settleArray tid)) ∧
      (∀ (g : Group) (r : AsyncCause), c.exited = false → s.group? tid 0 = some g → g.retired = false → g.saved = false →
        firstCause g.takable = some r → r.isEngine = true →
        exec (.engineFaultReport tid) s = .next ((s.modGroup tid 0 (fun x => { x with async := x.async.erase r })).takeCause tid 0 r)) ∧
      (∀ (high : Bool) (v : Dword), (bankBytes v).all bankByteOk = true → c.formatsFree high v = true →
        exec (.bankFormatWrite tid high v) s = .next (s.modCluster tid (fun c => if high then { c with bfmth := v } else { c with bfmtl := v }))) ∧
      (s.freezable t = true →
        let u := s.modCluster tid (fun c => [EngineKind.access, .array, .drain, .kiln].foldl Cluster.rollBackWord c)
        (c.exited = false → exec (.clusterFreezeDone tid) s = .next (u.post tid 0 (.preemption false))) ∧
        (c.exited = true → exec (.clusterFreezeDone tid) s =
          .next ((u.modTeam tid (fun x => { x with life := .saving })).due (.teamSaveComplete tid)))) ∧
      (∀ g : Group, s.group? tid 0 = some g → g.handling.isSome = true → exec (.cres tid) s = .next (s.endControl tid)))

/-- R355, R421 to R425, R428, R434, R436 to R438, R440, R443 to R445: what happens to chiplets, planes, packages and power: an isolated
chiplet's LIVE bit is cleared, no core of it stays, and its hub queues 0x75, which a full queue loses; a dead plane's PLST bit clears on
both hubs and its map moves on; a silent package is known as failed, what was on its way to it completes with error and no RDC entry of it
stays; the third failed frame takes a port down; power loss leaves the tier and the flash, and boot counts CYCLE and TBASE from 0; sags
are counted, and the clock steps by 25 MHz, at the 3.2 kW rating not below 2.3 GHz.
The model's choices among these clauses: that an event whose condition does not hold changes nothing (log 6), the draw and the floor of the clock at other
limits (logs 16, 33), the lower of the two hubs' limits (log 36), and the plane that a switch timeout leaves dead on that hub (log 76). -/
def Obligations.PackageEvents : Prop :=
  ∀ (s : State) (h : HubId) (n : Nat),
    let hub := s.hub h
    let dead := fun (u : State) (g : HubId) => (u.hub g).plst = (s.hub g).plst &&& ~~~(BitVec.twoPow 8 n)
    (∀ i ∈ [Instr.chctlIso h n, .chipletFatalError h n, .ucieLinkFailure h n],
      (hub.live.getLsbD n = false → exec i s = .next s) ∧
      (hub.live.getLsbD n = true → ∃ u : State, exec i s = .next u ∧ (u.hub h).live.getLsbD n = false ∧
        ((u.hub h).evtLost = true ∨ (u.hub h).events.getLast? =
          some { cause := 0x75, val := BitVec.ofNat 64 (n + 16 * hubNumber h), val2 := 0 }) ∧
        ∀ c ∈ u.cores, ¬(unitHub c.unit = h ∧ unitChiplet c.unit = n))) ∧
    (∀ table : List Byte, hub.live.getLsbD n = false → hub.fit.getLsbD n = true → s.tableAt h n = some table →
      exec (.chctlRen h n) s = .next (s.due (.enumerationComplete h n (s.freshTable table)))) ∧
    (∀ table : List Byte, hub.live.getLsbD n = false → hub.fit.getLsbD n = true → n < 16 →
      let v := BitVec.ofNat 64 (n + 16 * hubNumber h)
      (tableOk n table = true → ∃ c : Capability, c.pos = n ∧
        exec (.enumerationComplete h n table) s = .next ((s.setTable h n table).modHub h (fun x =>
          { x with live := x.live ||| BitVec.twoPow 16 n, caps := c :: x.caps.filter (fun y => y.pos != n) }.queueEvent 0x75 v 1))) ∧
      (tableOk n table = false → exec (.enumerationComplete h n table) s =
        .next ((s.setTable h n table).modHub h (fun x => { x with live := x.live &&& ~~~(BitVec.twoPow 16 n) }.queueEvent 0x75 v 0)))) ∧
    (∃ u : State, exec .bridgeFailure s = .next u ∧ u.bridgeUp = false ∧ u.mem = s.mem ∧ u.teams = s.teams ∧
      (∀ e ∈ u.hub0.rdc, keyHome (e.line * 128) ≠ peerOf .h1) ∧ (∀ e ∈ u.hub1.rdc, keyHome (e.line * 128) ≠ peerOf .h0) ∧
      ∀ x ∈ u.txns, x.plane ≠ heldPlane → linkHub x.plane ≠ x.hub → x.error.isSome = true) ∧
    (∃ u : State, exec (.linkTimeout h n) s = .next u ∧ (∀ g, dead u g) ∧
      (∀ l ∈ u.ports, l.plane = n → l.state = 3 ∧ l.trained = false)) ∧
    (∃ u : State, exec (.portStop h n) s = .next u ∧ (∀ g, dead u g) ∧
      (∀ l ∈ u.ports, l.plane = n → l.state = 2 ∧ l.trained = false)) ∧
    (∀ p : Nat, ∃ u : State, exec (.switchTimeout h n p) s = .next u ∧ dead u h ∧
      (∀ y ∈ u.txns, y.hub = h → y.plane = n → s.txnTo y p = true → y.error.isSome = true) ∧
      (∀ m ∈ u.mails, m.hub = h → m.plane = n → s.mailTo m p = true → m.outcome.isSome = true)) ∧
    (∀ l : Link, s.port? n = some l →
      (s.planeReached h n = true → l.state ≠ 2 → ∃ u : State, exec (.planeUp h n) s = .next u ∧
        (u.hub h).plst = hub.plst ||| BitVec.twoPow 8 n ∧
        (l.trained = false → ∀ y ∈ u.ports, y.plane = n → y.trained = true ∧ y.state = 0)) ∧
      (l.state = 2 → exec (.planeUp h n) s = .next s)) ∧
    (s.planeReached h n = false → exec (.planeUp h n) s = .next s) ∧
    (s.remapReady h n = true → hub.dying.contains n = true → hub.plst.getLsbD n = false → ∀ p i, hub.nextLive n = some p →
      hub.movingIndices n = [i] → i < 8 → ∃ u : State, exec (.planeRemap h n) s = .next u ∧ (u.hub h).plmap = setMap hub.plmap i p ∧
        (u.hub h).dying.contains n = false) ∧
    ((s.tbase - s.beat).toNat < 10 * 1024 → exec .membershipBeat s = .next s) ∧
    (10 * 1024 ≤ (s.tbase - s.beat).toNat → s.livePlanes ≠ [] →
      exec .membershipBeat s = .next { s.broadcast s.livePlanes with beat := s.tbase }) ∧
    (∀ (r : Bool), n ≠ s.flash.package → n < 1024 → (∀ p ∈ s.packages, p.package = n → p.state ≠ .failed) →
      ∃ u : State, exec (.beatReceived n r) s = .next u ∧ ∃ p ∈ u.packages, p.package = n ∧ p.lastBeat = s.tbase ∧
        p.state = if r then .recovering else .up) ∧
    (∀ p : PeerPackage, p ∈ s.packages → p.package = n →
      let fails := fun (i : Instr) => ∃ u : State, exec i s = .next u ∧
        (∃ q ∈ u.packages, q.package = n) ∧ (∀ q ∈ u.packages, q.package = n → q.state = .failed) ∧
        (∀ x ∈ u.txns, s.txnTo x n = true → x.error.isSome = true) ∧
        (∀ m ∈ u.mails, s.mailTo m n = true → m.outcome.isSome = true) ∧
        ∀ g, ∀ e ∈ (u.hub g).rdc, localHome (keyHome (e.line * 128)) = true ∨ s.packageOf (keyHome (e.line * 128) / 2) ≠ n
      ((p.state = .up ∨ p.state = .recovering) → 30 * 1024 ≤ (s.tbase - p.lastBeat).toNat → fails (.membershipTimeout n)) ∧
      (p.state = .recovering → 1024 * s.hub0.reclim.toNat ≤ (s.tbase - p.recoveringSince).toNat → fails (.recoveryLimit n)) ∧
      (p.state = .failed → ∃ u : State, exec (.packageRejoin n) s = .next u ∧
        ∃ q ∈ u.packages, q.package = n ∧ q.state = .up ∧ q.lastBeat = s.tbase)) ∧
    (∀ l : Link, s.port? n = some l →
      let replayed := (s.modPort n (fun y => { y with authFailures := y.authFailures + 1 })).sent n
      (l.spent = true → exec (.frameAuthFailure h n) s = .next (s.portLeaves n 2)) ∧
      (l.spent = false → l.authFailures < 2 → exec (.frameAuthFailure h n) s = .next replayed) ∧
      (l.spent = false → 2 ≤ l.authFailures → exec (.frameAuthFailure h n) s = .next (replayed.portLeaves n 3)) ∧
      (l.state = 1 → exec (.rekeyComplete h n) s = .next (s.modPort n (fun y =>
        { y with state := 0, rekeys := y.rekeys + 1, counter := 0, received := 0, keyed := s.tbase, authFailures := 0 }))) ∧
      (l.state = 2 → ∃ u : State, exec (.rekeyComplete h n) s = .next u ∧
        (s.planeReached (linkHub n) n = true → (u.hub (linkHub n)).plst.getLsbD n = true))) ∧
    (exec (.rekeyStart h n) s = .next (s.modPort n (fun y => if y.trained ∧ y.state = 0 then { y with state := 1 } else y))) ∧
    (s.powered = true → ∃ u : State, exec .powerLoss s = .next u ∧ u.powered = false ∧ u.teams = [] ∧ u.flash = s.flash ∧ u.mem = u.tier) ∧
    (s.powered = true → exec .powerOnReset s = .next s) ∧
    (s.powered = false → ∃ u : State, exec .powerOnReset s = .next u ∧ u.powered = true ∧ u.cycle = 0 ∧ u.tbase = 0 ∧ u.tier = s.tier ∧
      (s.flash.kernelOk = false → u.teams = []) ∧ (s.flash.firmwareOk.1 = false → u.teams = [] ∧ u.hub0.live = 0)) ∧
    (∃ u : State, exec (.supplySag h n) s = .next u ∧ n ∈ (u.hub h).sagging ∧ (∀ g, (u.hub g).sags = (s.hub g).sags + 1)) ∧
    (exec (.sagRecovery h n) s = .next (s.modHub h (fun x => { x with sagging := x.sagging.filter (fun p => p != n) }))) ∧
    (∃ u : State, exec (.powerLimitStep n) s = .next u ∧
      let limit := min s.hub0.pwrLimit.toNat s.hub1.pwrLimit.toNat
      (∀ g, (u.hub g).watts = BitVec.ofNat 16 n) ∧
      (n ≤ limit → ∀ g, (s.hub g).mhz.toNat + 25 ≤ 2500 → (u.hub g).mhz = (s.hub g).mhz + 25) ∧
      (limit = 3200 → ∀ g, min 2300 (s.hub g).mhz.toNat ≤ (u.hub g).mhz.toNat))

/-! ## The machine as a whole -/

/-- R20, R26, R29, R64, R371, R450: a step runs the instruction that stands at the program counter. A group without a cause to take
executes what its entry's start word decodes to, from the words of its core's code line, or of the line that its hub reads when none
is cached; an engine executes the word of its PC, and an unassigned word or an index beyond its instruction memory is an illegal word; an
event that is next is performed. Around the instruction a step only lets time pass and chooses what is next. A fetch that has asked
another package for its line comes again (log 83). -/
def Obligations.StepRunsDecoded : Prop :=
  (∀ (s : State) (tid gid : Nat) (t : Team) (g : Group) (u : CoreUnit) (p : LanePos) x (i : Instr),
    s.next = .agent (.group tid gid) → s.team? tid = some t → t.group? gid = some g → firstCause g.takable = none →
    t.coreOf g = some u → g.issuing = some p → translate s (fetchSpace t g u) p.pc .fetch = .ok x → bits p.pc 1 0 = 0 →
    let s1 := s.touch (fetchSpace t g u) p.pc .fetch x
    let r := s1.codeAt t g u (lineOf p.pc) x
    let w := p.pc.toNat % 64 / 4
    ((lineMarks r.2)[w]? = some .start → decodeMain (bytesFrom r.2 w) = .instr i → r.1.asked = [] → step s = finish (exec i r.1)) ∧
    (g.fetched = [] → (s1.core u).codeLine t.asn (lineOf p.pc) = none → s1.fetchFailed (unitHub u) (lineOfKey x.key) = none →
      let line := ((s1.countMigration (unitHub u) t.asn (lineOf p.pc) x).readBeyond (unitHub u) x.mode x.pol (lineOfKey x.key)).2.1
      r.2 = wordsOf ((line.drop (x.key % 128 / 64 * 64)).take 64))) ∧
  (∀ (s : State) (x : EngAt) (tid : Nat) (k : EngineKind), s.next = .agent (.engine tid k) → s.engineIssuer = some x →
    (∀ i : Instr, x.engine.pc < 2048 → decodeEngine k (x.engine.imem.getD x.engine.pc 0) = .instr i → step s = finish (exec i s)) ∧
    ((2048 ≤ x.engine.pc ∨ ∃ r, decodeEngine k (x.engine.imem.getD x.engine.pc 0) = .rejected r) →
      step s = finish (exec .engineIllegalWord s))) ∧
  (∀ (s : State) (i : Instr), s.next = .event i → step s = finish (exec i s)) ∧
  (∀ (s : State), s.next = .idle → step s = .next s.afterStep) ∧
  (∀ (s : State) (r : Fault) (q : Refusal), finish (.next s) = .next s.afterStep ∧ finish (.fault r) = .fault r ∧
    finish (.refused q) = .refused q)

namespace Sys2Proof.Machine

/-- The bytes of two 32-bit words. -/
def twoWords (w0 w1 : Word) : List Byte := bytesOfWord w0 ++ bytesOfWord w1

end Sys2Proof.Machine

/-- R5, R26, R310, R313: words written out from the tables of the spec decode to the instructions that they stand for. -/
def Obligations.DecodeWords : Prop :=
  let plain : MainWord := { lits := .none, neg := false, pred := 0, d := 0, a := 0, b := 0, c := 0, m := 0, x := 0 }
  decodeMain (twoWords 0x00000D00 0) = .instr (.nop plain) ∧
  decodeMain (twoWords 0x88000A04 0x0004008B) = .instr (.st { plain with a := 0x88, b := 0x8B, m := 4 }) ∧
  decodeMain (twoWords 0x898C0A00 0x00040000) = .instr (.ld { plain with d := 0x8C, a := 0x89, m := 4 }) ∧
  decodeMain (twoWords 0x00001C10 0x02200000) = .instr (.fence { plain with pred := 1, x := 0x022 }) ∧
  decodeEngine .access 0x4400 = .instr .add ∧ decodeEngine .kiln 0x6400 = .instr .halt ∧
  decodeEngine .drain 0x8103 = .instr (.tkpsh 3) ∧ decodeEngine .access 0xC800 = .instr (.agstr 0) ∧
  decodeEngine .array 0xA012 = .instr (.wpre 1 2) ∧ decodeEngine .access 0xA012 = .instr (.cpyin 1 2)

/-- R5, R26: the encoder and the decoder agree: a well-formed instruction that has an encoding is what the decoder reads from it,
whatever its operands, a main word from its bytes and an engine word from its two bytes on an engine that has it. -/
def Obligations.DecodeEncode : Prop :=
  ∀ i : Instr, i.wf = true →
    (8 ≤ (encode i).length → decodeMain (encode i) = .instr i) ∧
    ((encode i).length = 2 → decodeEngineBytes (engineFor i) (encode i) = .instr i) ∧
    (mainOf i ≠ none → 8 ≤ (encode i).length) ∧ (mainOf i = none → engineWordOf i ≠ none → (encode i).length = 2)

/-- The memories of the package keep their canonical form with every step, whoever moves. -/
def Obligations.MemoryInvariant : Prop :=
  ∀ s t : State, s.memoryOk = true → step s = .next t → t.memoryOk = true

/-- Memory in its canonical form: a byte reads as it was last written, and a write changes no other byte; a range reads as it was
written; memories that read alike are equal lists. -/
def Obligations.MemoryLaws : Prop :=
  ∀ (m n : Memory), m.wf = true →
    (∀ a v x, (m.write a v).read x = if x = a then v else m.read x) ∧
    (∀ a bs, (m.writeBytes a bs).readBytes a bs.length = bs ∧
      ∀ x, (x < a ∨ a + bs.length ≤ x) → (m.writeBytes a bs).read x = m.read x) ∧
    (∀ cs x, (m.writeCells cs).read x = ((cs.reverse.find? (fun c => c.1 == x)).map (fun c => c.2)).getD (m.read x)) ∧
    (n.wf = true → (∀ x, m.read x = n.read x) → m = n)

/-- R200, R213, R238, R341, R349, R354, R378, R409, R432, R440, R441, R444: what reset leaves. Memory holds what the firmware leaves there,
its table and its information block, at the addresses that log 4 chooses, and the tier and all marks of poison nothing (log 3). The
hub registers listed here have the values that the rules give them, also PWRST.MHZ, PODREF and REFSRC; every port's LNKST is 0; CYCLE and
TBASE are 0; the boot work item of hub 0's scalar core 0 is at kernel level, is the next to issue, and has its trap registers and FPST
at 0. -/
def Obligations.ResetState : Prop :=
  let s := State.reset
  s.memoryOk = true ∧ s.tier = [] ∧ s.memPoison = [] ∧ s.tierPoison = [] ∧
  s.mem = bootCells (s.flash.bootTable ++ s.flash.bootInfo .f8410 s.hub0 s.hub1 (fun _ => 0xFF)) ∧
  s.next = .agent (.group 0 0) ∧ s.powered = true ∧ s.cycle = 0 ∧ s.tbase = 0 ∧ s.asked = [] ∧
  (∀ h, let x := s.hub h
    x.patg = 0x4000 ∧ x.patc = 0x10000 ∧ x.patq = 0x40000 ∧ x.psavb = 0x100 ∧ x.llen = 0x1000 ∧ x.lclk = 0 ∧ x.lref = 0 ∧
    x.fenced = false ∧ x.fto = 64 ∧ x.reclim = 1000 ∧ x.plmap = 0x76543210 ∧ x.plst = 0 ∧ x.podref = 0 ∧ x.refsrc = false ∧
    x.evtEn = false ∧ x.evtCore = 0 ∧ x.evtLost = false ∧ x.events = [] ∧ x.prqLsz = 0 ∧ x.prqBase = 0 ∧ x.prqh = 0 ∧ x.prqt = 0 ∧
    x.mgEn = false ∧ x.mgLsz = 4 ∧ x.mgThr = 0x100 ∧ x.mgBase = 0 ∧ x.mgHead = 0 ∧ x.mgTail = 0 ∧ x.mgDrop = 0 ∧ x.pbcap = 65536 ∧ x.plra = 0 ∧
    x.cecnt = 0 ∧ x.uecnt = 0 ∧ x.queues = [] ∧ x.pwrLimit = 3200 ∧ x.mhz = 2500 ∧ x.sags = 0 ∧ x.live = x.fit) ∧
  (∀ l ∈ s.ports, l.state = 0 ∧ l.rekeys = 0 ∧ l.counter = 0 ∧ l.received = 0) ∧
  (∃ t g, s.team? 0 = some t ∧ t.group? 0 = some g ∧ t.coreOf g = some (.scalar .h0 0) ∧ t.asn = 0 ∧ t.ktvec = 0 ∧ t.hlim = 0 ∧
    t.rbcnt = 0 ∧ g.trap = { level := .kernel, plvl := .task, nest := false, lsus := false, epri := 0, edep := 0, rstg := false,
                             cause := 0, epc := 0, val := 0, val2 := 0, mask := 0 } ∧
    g.regs.fpst = 0 ∧ g.regs.porig.valid = false ∧ g.regs.live = 1 ∧ g.issuing = some { pc := s.flash.entry, pri := 0, depth := 0 } ∧
    g.regs.s 0 = { value := s.flash.infoBlock, poison := false })
end

