-- ==== Sys2Proof/Laws/State.lean ====
section
/-! SUPPORT. What each named update of the state leaves as it was: one lemma per field, so that no proof unfolds a record
update; and what the updates find again. -/

namespace Sys2Proof.Machine

/-! ## setHub -/

@[simp] theorem State.setHub_tick (s : State) (h : HubId) (x : Hub) : (s.setHub h x).tick = s.tick := by cases h <;> rfl
@[simp] theorem State.setHub_next (s : State) (h : HubId) (x : Hub) : (s.setHub h x).next = s.next := by cases h <;> rfl
@[simp] theorem State.setHub_agenda (s : State) (h : HubId) (x : Hub) : (s.setHub h x).agenda = s.agenda := by cases h <;> rfl
@[simp] theorem State.setHub_inputs (s : State) (h : HubId) (x : Hub) : (s.setHub h x).inputs = s.inputs := by cases h <;> rfl
@[simp] theorem State.setHub_cycle (s : State) (h : HubId) (x : Hub) : (s.setHub h x).cycle = s.cycle := by cases h <;> rfl
@[simp] theorem State.setHub_tbase (s : State) (h : HubId) (x : Hub) : (s.setHub h x).tbase = s.tbase := by cases h <;> rfl
@[simp] theorem State.setHub_mem (s : State) (h : HubId) (x : Hub) : (s.setHub h x).mem = s.mem := by cases h <;> rfl
@[simp] theorem State.setHub_memPoison (s : State) (h : HubId) (x : Hub) : (s.setHub h x).memPoison = s.memPoison := by cases h <;> rfl
@[simp] theorem State.setHub_tier (s : State) (h : HubId) (x : Hub) : (s.setHub h x).tier = s.tier := by cases h <;> rfl
@[simp] theorem State.setHub_tierPoison (s : State) (h : HubId) (x : Hub) : (s.setHub h x).tierPoison = s.tierPoison := by cases h <;> rfl
@[simp] theorem State.setHub_teams (s : State) (h : HubId) (x : Hub) : (s.setHub h x).teams = s.teams := by cases h <;> rfl
@[simp] theorem State.setHub_nextTeam (s : State) (h : HubId) (x : Hub) : (s.setHub h x).nextTeam = s.nextTeam := by cases h <;> rfl
@[simp] theorem State.setHub_commits (s : State) (h : HubId) (x : Hub) : (s.setHub h x).commits = s.commits := by cases h <;> rfl
@[simp] theorem State.setHub_cores (s : State) (h : HubId) (x : Hub) : (s.setHub h x).cores = s.cores := by cases h <;> rfl
@[simp] theorem State.setHub_readOnly (s : State) (h : HubId) (x : Hub) : (s.setHub h x).readOnly = s.readOnly := by cases h <;> rfl
@[simp] theorem State.setHub_txns (s : State) (h : HubId) (x : Hub) : (s.setHub h x).txns = s.txns := by cases h <;> rfl
@[simp] theorem State.setHub_nextTxn (s : State) (h : HubId) (x : Hub) : (s.setHub h x).nextTxn = s.nextTxn := by cases h <;> rfl
@[simp] theorem State.setHub_mails (s : State) (h : HubId) (x : Hub) : (s.setHub h x).mails = s.mails := by cases h <;> rfl
@[simp] theorem State.setHub_packages (s : State) (h : HubId) (x : Hub) : (s.setHub h x).packages = s.packages := by cases h <;> rfl
@[simp] theorem State.setHub_revocations (s : State) (h : HubId) (x : Hub) : (s.setHub h x).revocations = s.revocations := by cases h <;> rfl
@[simp] theorem State.setHub_retiring (s : State) (h : HubId) (x : Hub) : (s.setHub h x).retiring = s.retiring := by cases h <;> rfl
@[simp] theorem State.setHub_access (s : State) (h : HubId) (x : Hub) : (s.setHub h x).access = s.access := by cases h <;> rfl
@[simp] theorem State.setHub_bridgeUp (s : State) (h : HubId) (x : Hub) : (s.setHub h x).bridgeUp = s.bridgeUp := by cases h <;> rfl
@[simp] theorem State.setHub_powered (s : State) (h : HubId) (x : Hub) : (s.setHub h x).powered = s.powered := by cases h <;> rfl
@[simp] theorem State.setHub_flash (s : State) (h : HubId) (x : Hub) : (s.setHub h x).flash = s.flash := by cases h <;> rfl
@[simp] theorem State.setHub_form (s : State) (h : HubId) (x : Hub) : (s.setHub h x).form = s.form := by cases h <;> rfl
@[simp] theorem State.setHub_badGranules (s : State) (h : HubId) (x : Hub) : (s.setHub h x).badGranules = s.badGranules := by cases h <;> rfl
@[simp] theorem State.setHub_asked (s : State) (h : HubId) (x : Hub) : (s.setHub h x).asked = s.asked := by cases h <;> rfl
@[simp] theorem State.setHub_arrived (s : State) (h : HubId) (x : Hub) : (s.setHub h x).arrived = s.arrived := by cases h <;> rfl
@[simp] theorem State.setHub_ports (s : State) (h : HubId) (x : Hub) : (s.setHub h x).ports = s.ports := by cases h <;> rfl
@[simp] theorem State.setHub_beat (s : State) (h : HubId) (x : Hub) : (s.setHub h x).beat = s.beat := by cases h <;> rfl
@[simp] theorem State.setHub_tables (s : State) (h : HubId) (x : Hub) : (s.setHub h x).tables = s.tables := by cases h <;> rfl
@[simp] theorem State.setHub_configured (s : State) (h : HubId) (x : Hub) : (s.setHub h x).configured = s.configured := by cases h <;> rfl
@[simp] theorem State.setHub_reports (s : State) (h : HubId) (x : Hub) : (s.setHub h x).reports = s.reports := by cases h <;> rfl

/-! ## modHub -/

@[simp] theorem State.modHub_tick (s : State) (h : HubId) (f : Hub → Hub) : (s.modHub h f).tick = s.tick := by cases h <;> rfl
@[simp] theorem State.modHub_next (s : State) (h : HubId) (f : Hub → Hub) : (s.modHub h f).next = s.next := by cases h <;> rfl
@[simp] theorem State.modHub_agenda (s : State) (h : HubId) (f : Hub → Hub) : (s.modHub h f).agenda = s.agenda := by cases h <;> rfl
@[simp] theorem State.modHub_inputs (s : State) (h : HubId) (f : Hub → Hub) : (s.modHub h f).inputs = s.inputs := by cases h <;> rfl
@[simp] theorem State.modHub_cycle (s : State) (h : HubId) (f : Hub → Hub) : (s.modHub h f).cycle = s.cycle := by cases h <;> rfl
@[simp] theorem State.modHub_tbase (s : State) (h : HubId) (f : Hub → Hub) : (s.modHub h f).tbase = s.tbase := by cases h <;> rfl
@[simp] theorem State.modHub_mem (s : State) (h : HubId) (f : Hub → Hub) : (s.modHub h f).mem = s.mem := by cases h <;> rfl
@[simp] theorem State.modHub_memPoison (s : State) (h : HubId) (f : Hub → Hub) : (s.modHub h f).memPoison = s.memPoison := by cases h <;> rfl
@[simp] theorem State.modHub_tier (s : State) (h : HubId) (f : Hub → Hub) : (s.modHub h f).tier = s.tier := by cases h <;> rfl
@[simp] theorem State.modHub_tierPoison (s : State) (h : HubId) (f : Hub → Hub) : (s.modHub h f).tierPoison = s.tierPoison := by cases h <;> rfl
@[simp] theorem State.modHub_teams (s : State) (h : HubId) (f : Hub → Hub) : (s.modHub h f).teams = s.teams := by cases h <;> rfl
@[simp] theorem State.modHub_nextTeam (s : State) (h : HubId) (f : Hub → Hub) : (s.modHub h f).nextTeam = s.nextTeam := by cases h <;> rfl
@[simp] theorem State.modHub_commits (s : State) (h : HubId) (f : Hub → Hub) : (s.modHub h f).commits = s.commits := by cases h <;> rfl
@[simp] theorem State.modHub_cores (s : State) (h : HubId) (f : Hub → Hub) : (s.modHub h f).cores = s.cores := by cases h <;> rfl
@[simp] theorem State.modHub_readOnly (s : State) (h : HubId) (f : Hub → Hub) : (s.modHub h f).readOnly = s.readOnly := by cases h <;> rfl
@[simp] theorem State.modHub_txns (s : State) (h : HubId) (f : Hub → Hub) : (s.modHub h f).txns = s.txns := by cases h <;> rfl
@[simp] theorem State.modHub_nextTxn (s : State) (h : HubId) (f : Hub → Hub) : (s.modHub h f).nextTxn = s.nextTxn := by cases h <;> rfl
@[simp] theorem State.modHub_mails (s : State) (h : HubId) (f : Hub → Hub) : (s.modHub h f).mails = s.mails := by cases h <;> rfl
@[simp] theorem State.modHub_packages (s : State) (h : HubId) (f : Hub → Hub) : (s.modHub h f).packages = s.packages := by cases h <;> rfl
@[simp] theorem State.modHub_revocations (s : State) (h : HubId) (f : Hub → Hub) : (s.modHub h f).revocations = s.revocations := by cases h <;> rfl
@[simp] theorem State.modHub_retiring (s : State) (h : HubId) (f : Hub → Hub) : (s.modHub h f).retiring = s.retiring := by cases h <;> rfl
@[simp] theorem State.modHub_access (s : State) (h : HubId) (f : Hub → Hub) : (s.modHub h f).access = s.access := by cases h <;> rfl
@[simp] theorem State.modHub_bridgeUp (s : State) (h : HubId) (f : Hub → Hub) : (s.modHub h f).bridgeUp = s.bridgeUp := by cases h <;> rfl
@[simp] theorem State.modHub_powered (s : State) (h : HubId) (f : Hub → Hub) : (s.modHub h f).powered = s.powered := by cases h <;> rfl
@[simp] theorem State.modHub_flash (s : State) (h : HubId) (f : Hub → Hub) : (s.modHub h f).flash = s.flash := by cases h <;> rfl
@[simp] theorem State.modHub_form (s : State) (h : HubId) (f : Hub → Hub) : (s.modHub h f).form = s.form := by cases h <;> rfl
@[simp] theorem State.modHub_badGranules (s : State) (h : HubId) (f : Hub → Hub) : (s.modHub h f).badGranules = s.badGranules := by cases h <;> rfl
@[simp] theorem State.modHub_asked (s : State) (h : HubId) (f : Hub → Hub) : (s.modHub h f).asked = s.asked := by cases h <;> rfl
@[simp] theorem State.modHub_arrived (s : State) (h : HubId) (f : Hub → Hub) : (s.modHub h f).arrived = s.arrived := by cases h <;> rfl
@[simp] theorem State.modHub_ports (s : State) (h : HubId) (f : Hub → Hub) : (s.modHub h f).ports = s.ports := by cases h <;> rfl
@[simp] theorem State.modHub_beat (s : State) (h : HubId) (f : Hub → Hub) : (s.modHub h f).beat = s.beat := by cases h <;> rfl
@[simp] theorem State.modHub_tables (s : State) (h : HubId) (f : Hub → Hub) : (s.modHub h f).tables = s.tables := by cases h <;> rfl
@[simp] theorem State.modHub_configured (s : State) (h : HubId) (f : Hub → Hub) : (s.modHub h f).configured = s.configured := by cases h <;> rfl
@[simp] theorem State.modHub_reports (s : State) (h : HubId) (f : Hub → Hub) : (s.modHub h f).reports = s.reports := by cases h <;> rfl

/-! ## setTeam -/

@[simp] theorem State.setTeam_tick (s : State) (t : Team) : (s.setTeam t).tick = s.tick := rfl
@[simp] theorem State.setTeam_next (s : State) (t : Team) : (s.setTeam t).next = s.next := rfl
@[simp] theorem State.setTeam_agenda (s : State) (t : Team) : (s.setTeam t).agenda = s.agenda := rfl
@[simp] theorem State.setTeam_inputs (s : State) (t : Team) : (s.setTeam t).inputs = s.inputs := rfl
@[simp] theorem State.setTeam_cycle (s : State) (t : Team) : (s.setTeam t).cycle = s.cycle := rfl
@[simp] theorem State.setTeam_tbase (s : State) (t : Team) : (s.setTeam t).tbase = s.tbase := rfl
@[simp] theorem State.setTeam_mem (s : State) (t : Team) : (s.setTeam t).mem = s.mem := rfl
@[simp] theorem State.setTeam_memPoison (s : State) (t : Team) : (s.setTeam t).memPoison = s.memPoison := rfl
@[simp] theorem State.setTeam_tier (s : State) (t : Team) : (s.setTeam t).tier = s.tier := rfl
@[simp] theorem State.setTeam_tierPoison (s : State) (t : Team) : (s.setTeam t).tierPoison = s.tierPoison := rfl
@[simp] theorem State.setTeam_hub0 (s : State) (t : Team) : (s.setTeam t).hub0 = s.hub0 := rfl
@[simp] theorem State.setTeam_hub1 (s : State) (t : Team) : (s.setTeam t).hub1 = s.hub1 := rfl
@[simp] theorem State.setTeam_nextTeam (s : State) (t : Team) : (s.setTeam t).nextTeam = s.nextTeam := rfl
@[simp] theorem State.setTeam_commits (s : State) (t : Team) : (s.setTeam t).commits = s.commits := rfl
@[simp] theorem State.setTeam_cores (s : State) (t : Team) : (s.setTeam t).cores = s.cores := rfl
@[simp] theorem State.setTeam_readOnly (s : State) (t : Team) : (s.setTeam t).readOnly = s.readOnly := rfl
@[simp] theorem State.setTeam_txns (s : State) (t : Team) : (s.setTeam t).txns = s.txns := rfl
@[simp] theorem State.setTeam_nextTxn (s : State) (t : Team) : (s.setTeam t).nextTxn = s.nextTxn := rfl
@[simp] theorem State.setTeam_mails (s : State) (t : Team) : (s.setTeam t).mails = s.mails := rfl
@[simp] theorem State.setTeam_packages (s : State) (t : Team) : (s.setTeam t).packages = s.packages := rfl
@[simp] theorem State.setTeam_revocations (s : State) (t : Team) : (s.setTeam t).revocations = s.revocations := rfl
@[simp] theorem State.setTeam_retiring (s : State) (t : Team) : (s.setTeam t).retiring = s.retiring := rfl
@[simp] theorem State.setTeam_access (s : State) (t : Team) : (s.setTeam t).access = s.access := rfl
@[simp] theorem State.setTeam_bridgeUp (s : State) (t : Team) : (s.setTeam t).bridgeUp = s.bridgeUp := rfl
@[simp] theorem State.setTeam_powered (s : State) (t : Team) : (s.setTeam t).powered = s.powered := rfl
@[simp] theorem State.setTeam_flash (s : State) (t : Team) : (s.setTeam t).flash = s.flash := rfl
@[simp] theorem State.setTeam_form (s : State) (t : Team) : (s.setTeam t).form = s.form := rfl
@[simp] theorem State.setTeam_badGranules (s : State) (t : Team) : (s.setTeam t).badGranules = s.badGranules := rfl
@[simp] theorem State.setTeam_asked (s : State) (t : Team) : (s.setTeam t).asked = s.asked := rfl
@[simp] theorem State.setTeam_arrived (s : State) (t : Team) : (s.setTeam t).arrived = s.arrived := rfl
@[simp] theorem State.setTeam_ports (s : State) (t : Team) : (s.setTeam t).ports = s.ports := rfl
@[simp] theorem State.setTeam_beat (s : State) (t : Team) : (s.setTeam t).beat = s.beat := rfl
@[simp] theorem State.setTeam_tables (s : State) (t : Team) : (s.setTeam t).tables = s.tables := rfl
@[simp] theorem State.setTeam_configured (s : State) (t : Team) : (s.setTeam t).configured = s.configured := rfl
@[simp] theorem State.setTeam_reports (s : State) (t : Team) : (s.setTeam t).reports = s.reports := rfl

/-! ## modTeam -/

@[simp] theorem State.modTeam_tick (s : State) (i : Nat) (f : Team → Team) : (s.modTeam i f).tick = s.tick := rfl
@[simp] theorem State.modTeam_next (s : State) (i : Nat) (f : Team → Team) : (s.modTeam i f).next = s.next := rfl
@[simp] theorem State.modTeam_agenda (s : State) (i : Nat) (f : Team → Team) : (s.modTeam i f).agenda = s.agenda := rfl
@[simp] theorem State.modTeam_inputs (s : State) (i : Nat) (f : Team → Team) : (s.modTeam i f).inputs = s.inputs := rfl
@[simp] theorem State.modTeam_cycle (s : State) (i : Nat) (f : Team → Team) : (s.modTeam i f).cycle = s.cycle := rfl
@[simp] theorem State.modTeam_tbase (s : State) (i : Nat) (f : Team → Team) : (s.modTeam i f).tbase = s.tbase := rfl
@[simp] theorem State.modTeam_mem (s : State) (i : Nat) (f : Team → Team) : (s.modTeam i f).mem = s.mem := rfl
@[simp] theorem State.modTeam_memPoison (s : State) (i : Nat) (f : Team → Team) : (s.modTeam i f).memPoison = s.memPoison := rfl
@[simp] theorem State.modTeam_tier (s : State) (i : Nat) (f : Team → Team) : (s.modTeam i f).tier = s.tier := rfl
@[simp] theorem State.modTeam_tierPoison (s : State) (i : Nat) (f : Team → Team) : (s.modTeam i f).tierPoison = s.tierPoison := rfl
@[simp] theorem State.modTeam_hub0 (s : State) (i : Nat) (f : Team → Team) : (s.modTeam i f).hub0 = s.hub0 := rfl
@[simp] theorem State.modTeam_hub1 (s : State) (i : Nat) (f : Team → Team) : (s.modTeam i f).hub1 = s.hub1 := rfl
@[simp] theorem State.modTeam_nextTeam (s : State) (i : Nat) (f : Team → Team) : (s.modTeam i f).nextTeam = s.nextTeam := rfl
@[simp] theorem State.modTeam_commits (s : State) (i : Nat) (f : Team → Team) : (s.modTeam i f).commits = s.commits := rfl
@[simp] theorem State.modTeam_cores (s : State) (i : Nat) (f : Team → Team) : (s.modTeam i f).cores = s.cores := rfl
@[simp] theorem State.modTeam_readOnly (s : State) (i : Nat) (f : Team → Team) : (s.modTeam i f).readOnly = s.readOnly := rfl
@[simp] theorem State.modTeam_txns (s : State) (i : Nat) (f : Team → Team) : (s.modTeam i f).txns = s.txns := rfl
@[simp] theorem State.modTeam_nextTxn (s : State) (i : Nat) (f : Team → Team) : (s.modTeam i f).nextTxn = s.nextTxn := rfl
@[simp] theorem State.modTeam_mails (s : State) (i : Nat) (f : Team → Team) : (s.modTeam i f).mails = s.mails := rfl
@[simp] theorem State.modTeam_packages (s : State) (i : Nat) (f : Team → Team) : (s.modTeam i f).packages = s.packages := rfl
@[simp] theorem State.modTeam_revocations (s : State) (i : Nat) (f : Team → Team) : (s.modTeam i f).revocations = s.revocations := rfl
@[simp] theorem State.modTeam_retiring (s : State) (i : Nat) (f : Team → Team) : (s.modTeam i f).retiring = s.retiring := rfl
@[simp] theorem State.modTeam_access (s : State) (i : Nat) (f : Team → Team) : (s.modTeam i f).access = s.access := rfl
@[simp] theorem State.modTeam_bridgeUp (s : State) (i : Nat) (f : Team → Team) : (s.modTeam i f).bridgeUp = s.bridgeUp := rfl
@[simp] theorem State.modTeam_powered (s : State) (i : Nat) (f : Team → Team) : (s.modTeam i f).powered = s.powered := rfl
@[simp] theorem State.modTeam_flash (s : State) (i : Nat) (f : Team → Team) : (s.modTeam i f).flash = s.flash := rfl
@[simp] theorem State.modTeam_form (s : State) (i : Nat) (f : Team → Team) : (s.modTeam i f).form = s.form := rfl
@[simp] theorem State.modTeam_badGranules (s : State) (i : Nat) (f : Team → Team) : (s.modTeam i f).badGranules = s.badGranules := rfl
@[simp] theorem State.modTeam_asked (s : State) (i : Nat) (f : Team → Team) : (s.modTeam i f).asked = s.asked := rfl
@[simp] theorem State.modTeam_arrived (s : State) (i : Nat) (f : Team → Team) : (s.modTeam i f).arrived = s.arrived := rfl
@[simp] theorem State.modTeam_ports (s : State) (i : Nat) (f : Team → Team) : (s.modTeam i f).ports = s.ports := rfl
@[simp] theorem State.modTeam_beat (s : State) (i : Nat) (f : Team → Team) : (s.modTeam i f).beat = s.beat := rfl
@[simp] theorem State.modTeam_tables (s : State) (i : Nat) (f : Team → Team) : (s.modTeam i f).tables = s.tables := rfl
@[simp] theorem State.modTeam_configured (s : State) (i : Nat) (f : Team → Team) : (s.modTeam i f).configured = s.configured := rfl
@[simp] theorem State.modTeam_reports (s : State) (i : Nat) (f : Team → Team) : (s.modTeam i f).reports = s.reports := rfl

/-! ## dropTeam -/

@[simp] theorem State.dropTeam_tick (s : State) (i : Nat) : (s.dropTeam i).tick = s.tick := rfl
@[simp] theorem State.dropTeam_next (s : State) (i : Nat) : (s.dropTeam i).next = s.next := rfl
@[simp] theorem State.dropTeam_agenda (s : State) (i : Nat) : (s.dropTeam i).agenda = s.agenda := rfl
@[simp] theorem State.dropTeam_inputs (s : State) (i : Nat) : (s.dropTeam i).inputs = s.inputs := rfl
@[simp] theorem State.dropTeam_cycle (s : State) (i : Nat) : (s.dropTeam i).cycle = s.cycle := rfl
@[simp] theorem State.dropTeam_tbase (s : State) (i : Nat) : (s.dropTeam i).tbase = s.tbase := rfl
@[simp] theorem State.dropTeam_mem (s : State) (i : Nat) : (s.dropTeam i).mem = s.mem := rfl
@[simp] theorem State.dropTeam_memPoison (s : State) (i : Nat) : (s.dropTeam i).memPoison = s.memPoison := rfl
@[simp] theorem State.dropTeam_tier (s : State) (i : Nat) : (s.dropTeam i).tier = s.tier := rfl
@[simp] theorem State.dropTeam_tierPoison (s : State) (i : Nat) : (s.dropTeam i).tierPoison = s.tierPoison := rfl
@[simp] theorem State.dropTeam_hub0 (s : State) (i : Nat) : (s.dropTeam i).hub0 = s.hub0 := rfl
@[simp] theorem State.dropTeam_hub1 (s : State) (i : Nat) : (s.dropTeam i).hub1 = s.hub1 := rfl
@[simp] theorem State.dropTeam_nextTeam (s : State) (i : Nat) : (s.dropTeam i).nextTeam = s.nextTeam := rfl
@[simp] theorem State.dropTeam_commits (s : State) (i : Nat) : (s.dropTeam i).commits = s.commits := rfl
@[simp] theorem State.dropTeam_cores (s : State) (i : Nat) : (s.dropTeam i).cores = s.cores := rfl
@[simp] theorem State.dropTeam_readOnly (s : State) (i : Nat) : (s.dropTeam i).readOnly = s.readOnly := rfl
@[simp] theorem State.dropTeam_txns (s : State) (i : Nat) : (s.dropTeam i).txns = s.txns := rfl
@[simp] theorem State.dropTeam_nextTxn (s : State) (i : Nat) : (s.dropTeam i).nextTxn = s.nextTxn := rfl
@[simp] theorem State.dropTeam_mails (s : State) (i : Nat) : (s.dropTeam i).mails = s.mails := rfl
@[simp] theorem State.dropTeam_packages (s : State) (i : Nat) : (s.dropTeam i).packages = s.packages := rfl
@[simp] theorem State.dropTeam_revocations (s : State) (i : Nat) : (s.dropTeam i).revocations = s.revocations := rfl
@[simp] theorem State.dropTeam_retiring (s : State) (i : Nat) : (s.dropTeam i).retiring = s.retiring := rfl
@[simp] theorem State.dropTeam_access (s : State) (i : Nat) : (s.dropTeam i).access = s.access := rfl
@[simp] theorem State.dropTeam_bridgeUp (s : State) (i : Nat) : (s.dropTeam i).bridgeUp = s.bridgeUp := rfl
@[simp] theorem State.dropTeam_powered (s : State) (i : Nat) : (s.dropTeam i).powered = s.powered := rfl
@[simp] theorem State.dropTeam_flash (s : State) (i : Nat) : (s.dropTeam i).flash = s.flash := rfl
@[simp] theorem State.dropTeam_form (s : State) (i : Nat) : (s.dropTeam i).form = s.form := rfl
@[simp] theorem State.dropTeam_badGranules (s : State) (i : Nat) : (s.dropTeam i).badGranules = s.badGranules := rfl
@[simp] theorem State.dropTeam_asked (s : State) (i : Nat) : (s.dropTeam i).asked = s.asked := rfl
@[simp] theorem State.dropTeam_arrived (s : State) (i : Nat) : (s.dropTeam i).arrived = s.arrived := rfl
@[simp] theorem State.dropTeam_ports (s : State) (i : Nat) : (s.dropTeam i).ports = s.ports := rfl
@[simp] theorem State.dropTeam_beat (s : State) (i : Nat) : (s.dropTeam i).beat = s.beat := rfl
@[simp] theorem State.dropTeam_tables (s : State) (i : Nat) : (s.dropTeam i).tables = s.tables := rfl
@[simp] theorem State.dropTeam_configured (s : State) (i : Nat) : (s.dropTeam i).configured = s.configured := rfl
@[simp] theorem State.dropTeam_reports (s : State) (i : Nat) : (s.dropTeam i).reports = s.reports := rfl

/-! ## setGroup -/

@[simp] theorem State.setGroup_tick (s : State) (i : Nat) (g : Group) : (s.setGroup i g).tick = s.tick := rfl
@[simp] theorem State.setGroup_next (s : State) (i : Nat) (g : Group) : (s.setGroup i g).next = s.next := rfl
@[simp] theorem State.setGroup_agenda (s : State) (i : Nat) (g : Group) : (s.setGroup i g).agenda = s.agenda := rfl
@[simp] theorem State.setGroup_inputs (s : State) (i : Nat) (g : Group) : (s.setGroup i g).inputs = s.inputs := rfl
@[simp] theorem State.setGroup_cycle (s : State) (i : Nat) (g : Group) : (s.setGroup i g).cycle = s.cycle := rfl
@[simp] theorem State.setGroup_tbase (s : State) (i : Nat) (g : Group) : (s.setGroup i g).tbase = s.tbase := rfl
@[simp] theorem State.setGroup_mem (s : State) (i : Nat) (g : Group) : (s.setGroup i g).mem = s.mem := rfl
@[simp] theorem State.setGroup_memPoison (s : State) (i : Nat) (g : Group) : (s.setGroup i g).memPoison = s.memPoison := rfl
@[simp] theorem State.setGroup_tier (s : State) (i : Nat) (g : Group) : (s.setGroup i g).tier = s.tier := rfl
@[simp] theorem State.setGroup_tierPoison (s : State) (i : Nat) (g : Group) : (s.setGroup i g).tierPoison = s.tierPoison := rfl
@[simp] theorem State.setGroup_hub0 (s : State) (i : Nat) (g : Group) : (s.setGroup i g).hub0 = s.hub0 := rfl
@[simp] theorem State.setGroup_hub1 (s : State) (i : Nat) (g : Group) : (s.setGroup i g).hub1 = s.hub1 := rfl
@[simp] theorem State.setGroup_nextTeam (s : State) (i : Nat) (g : Group) : (s.setGroup i g).nextTeam = s.nextTeam := rfl
@[simp] theorem State.setGroup_commits (s : State) (i : Nat) (g : Group) : (s.setGroup i g).commits = s.commits := rfl
@[simp] theorem State.setGroup_cores (s : State) (i : Nat) (g : Group) : (s.setGroup i g).cores = s.cores := rfl
@[simp] theorem State.setGroup_readOnly (s : State) (i : Nat) (g : Group) : (s.setGroup i g).readOnly = s.readOnly := rfl
@[simp] theorem State.setGroup_txns (s : State) (i : Nat) (g : Group) : (s.setGroup i g).txns = s.txns := rfl
@[simp] theorem State.setGroup_nextTxn (s : State) (i : Nat) (g : Group) : (s.setGroup i g).nextTxn = s.nextTxn := rfl
@[simp] theorem State.setGroup_mails (s : State) (i : Nat) (g : Group) : (s.setGroup i g).mails = s.mails := rfl
@[simp] theorem State.setGroup_packages (s : State) (i : Nat) (g : Group) : (s.setGroup i g).packages = s.packages := rfl
@[simp] theorem State.setGroup_revocations (s : State) (i : Nat) (g : Group) : (s.setGroup i g).revocations = s.revocations := rfl
@[simp] theorem State.setGroup_retiring (s : State) (i : Nat) (g : Group) : (s.setGroup i g).retiring = s.retiring := rfl
@[simp] theorem State.setGroup_access (s : State) (i : Nat) (g : Group) : (s.setGroup i g).access = s.access := rfl
@[simp] theorem State.setGroup_bridgeUp (s : State) (i : Nat) (g : Group) : (s.setGroup i g).bridgeUp = s.bridgeUp := rfl
@[simp] theorem State.setGroup_powered (s : State) (i : Nat) (g : Group) : (s.setGroup i g).powered = s.powered := rfl
@[simp] theorem State.setGroup_flash (s : State) (i : Nat) (g : Group) : (s.setGroup i g).flash = s.flash := rfl
@[simp] theorem State.setGroup_form (s : State) (i : Nat) (g : Group) : (s.setGroup i g).form = s.form := rfl
@[simp] theorem State.setGroup_badGranules (s : State) (i : Nat) (g : Group) : (s.setGroup i g).badGranules = s.badGranules := rfl
@[simp] theorem State.setGroup_asked (s : State) (i : Nat) (g : Group) : (s.setGroup i g).asked = s.asked := rfl
@[simp] theorem State.setGroup_arrived (s : State) (i : Nat) (g : Group) : (s.setGroup i g).arrived = s.arrived := rfl
@[simp] theorem State.setGroup_ports (s : State) (i : Nat) (g : Group) : (s.setGroup i g).ports = s.ports := rfl
@[simp] theorem State.setGroup_beat (s : State) (i : Nat) (g : Group) : (s.setGroup i g).beat = s.beat := rfl
@[simp] theorem State.setGroup_tables (s : State) (i : Nat) (g : Group) : (s.setGroup i g).tables = s.tables := rfl
@[simp] theorem State.setGroup_configured (s : State) (i : Nat) (g : Group) : (s.setGroup i g).configured = s.configured := rfl
@[simp] theorem State.setGroup_reports (s : State) (i : Nat) (g : Group) : (s.setGroup i g).reports = s.reports := rfl

/-! ## modGroup -/

@[simp] theorem State.modGroup_tick (s : State) (i j : Nat) (f : Group → Group) : (s.modGroup i j f).tick = s.tick := rfl
@[simp] theorem State.modGroup_next (s : State) (i j : Nat) (f : Group → Group) : (s.modGroup i j f).next = s.next := rfl
@[simp] theorem State.modGroup_agenda (s : State) (i j : Nat) (f : Group → Group) : (s.modGroup i j f).agenda = s.agenda := rfl
@[simp] theorem State.modGroup_inputs (s : State) (i j : Nat) (f : Group → Group) : (s.modGroup i j f).inputs = s.inputs := rfl
@[simp] theorem State.modGroup_cycle (s : State) (i j : Nat) (f : Group → Group) : (s.modGroup i j f).cycle = s.cycle := rfl
@[simp] theorem State.modGroup_tbase (s : State) (i j : Nat) (f : Group → Group) : (s.modGroup i j f).tbase = s.tbase := rfl
@[simp] theorem State.modGroup_mem (s : State) (i j : Nat) (f : Group → Group) : (s.modGroup i j f).mem = s.mem := rfl
@[simp] theorem State.modGroup_memPoison (s : State) (i j : Nat) (f : Group → Group) : (s.modGroup i j f).memPoison = s.memPoison := rfl
@[simp] theorem State.modGroup_tier (s : State) (i j : Nat) (f : Group → Group) : (s.modGroup i j f).tier = s.tier := rfl
@[simp] theorem State.modGroup_tierPoison (s : State) (i j : Nat) (f : Group → Group) : (s.modGroup i j f).tierPoison = s.tierPoison := rfl
@[simp] theorem State.modGroup_hub0 (s : State) (i j : Nat) (f : Group → Group) : (s.modGroup i j f).hub0 = s.hub0 := rfl
@[simp] theorem State.modGroup_hub1 (s : State) (i j : Nat) (f : Group → Group) : (s.modGroup i j f).hub1 = s.hub1 := rfl
@[simp] theorem State.modGroup_nextTeam (s : State) (i j : Nat) (f : Group → Group) : (s.modGroup i j f).nextTeam = s.nextTeam := rfl
@[simp] theorem State.modGroup_commits (s : State) (i j : Nat) (f : Group → Group) : (s.modGroup i j f).commits = s.commits := rfl
@[simp] theorem State.modGroup_cores (s : State) (i j : Nat) (f : Group → Group) : (s.modGroup i j f).cores = s.cores := rfl
@[simp] theorem State.modGroup_readOnly (s : State) (i j : Nat) (f : Group → Group) : (s.modGroup i j f).readOnly = s.readOnly := rfl
@[simp] theorem State.modGroup_txns (s : State) (i j : Nat) (f : Group → Group) : (s.modGroup i j f).txns = s.txns := rfl
@[simp] theorem State.modGroup_nextTxn (s : State) (i j : Nat) (f : Group → Group) : (s.modGroup i j f).nextTxn = s.nextTxn := rfl
@[simp] theorem State.modGroup_mails (s : State) (i j : Nat) (f : Group → Group) : (s.modGroup i j f).mails = s.mails := rfl
@[simp] theorem State.modGroup_packages (s : State) (i j : Nat) (f : Group → Group) : (s.modGroup i j f).packages = s.packages := rfl
@[simp] theorem State.modGroup_revocations (s : State) (i j : Nat) (f : Group → Group) : (s.modGroup i j f).revocations = s.revocations := rfl
@[simp] theorem State.modGroup_retiring (s : State) (i j : Nat) (f : Group → Group) : (s.modGroup i j f).retiring = s.retiring := rfl
@[simp] theorem State.modGroup_access (s : State) (i j : Nat) (f : Group → Group) : (s.modGroup i j f).access = s.access := rfl
@[simp] theorem State.modGroup_bridgeUp (s : State) (i j : Nat) (f : Group → Group) : (s.modGroup i j f).bridgeUp = s.bridgeUp := rfl
@[simp] theorem State.modGroup_powered (s : State) (i j : Nat) (f : Group → Group) : (s.modGroup i j f).powered = s.powered := rfl
@[simp] theorem State.modGroup_flash (s : State) (i j : Nat) (f : Group → Group) : (s.modGroup i j f).flash = s.flash := rfl
@[simp] theorem State.modGroup_form (s : State) (i j : Nat) (f : Group → Group) : (s.modGroup i j f).form = s.form := rfl
@[simp] theorem State.modGroup_badGranules (s : State) (i j : Nat) (f : Group → Group) : (s.modGroup i j f).badGranules = s.badGranules := rfl
@[simp] theorem State.modGroup_asked (s : State) (i j : Nat) (f : Group → Group) : (s.modGroup i j f).asked = s.asked := rfl
@[simp] theorem State.modGroup_arrived (s : State) (i j : Nat) (f : Group → Group) : (s.modGroup i j f).arrived = s.arrived := rfl
@[simp] theorem State.modGroup_ports (s : State) (i j : Nat) (f : Group → Group) : (s.modGroup i j f).ports = s.ports := rfl
@[simp] theorem State.modGroup_beat (s : State) (i j : Nat) (f : Group → Group) : (s.modGroup i j f).beat = s.beat := rfl
@[simp] theorem State.modGroup_tables (s : State) (i j : Nat) (f : Group → Group) : (s.modGroup i j f).tables = s.tables := rfl
@[simp] theorem State.modGroup_configured (s : State) (i j : Nat) (f : Group → Group) : (s.modGroup i j f).configured = s.configured := rfl
@[simp] theorem State.modGroup_reports (s : State) (i j : Nat) (f : Group → Group) : (s.modGroup i j f).reports = s.reports := rfl

/-! ## setCore -/

@[simp] theorem State.setCore_tick (s : State) (c : Core) : (s.setCore c).tick = s.tick := by unfold State.setCore; split <;> rfl
@[simp] theorem State.setCore_next (s : State) (c : Core) : (s.setCore c).next = s.next := by unfold State.setCore; split <;> rfl
@[simp] theorem State.setCore_agenda (s : State) (c : Core) : (s.setCore c).agenda = s.agenda := by unfold State.setCore; split <;> rfl
@[simp] theorem State.setCore_inputs (s : State) (c : Core) : (s.setCore c).inputs = s.inputs := by unfold State.setCore; split <;> rfl
@[simp] theorem State.setCore_cycle (s : State) (c : Core) : (s.setCore c).cycle = s.cycle := by unfold State.setCore; split <;> rfl
@[simp] theorem State.setCore_tbase (s : State) (c : Core) : (s.setCore c).tbase = s.tbase := by unfold State.setCore; split <;> rfl
@[simp] theorem State.setCore_mem (s : State) (c : Core) : (s.setCore c).mem = s.mem := by unfold State.setCore; split <;> rfl
@[simp] theorem State.setCore_memPoison (s : State) (c : Core) : (s.setCore c).memPoison = s.memPoison := by unfold State.setCore; split <;> rfl
@[simp] theorem State.setCore_tier (s : State) (c : Core) : (s.setCore c).tier = s.tier := by unfold State.setCore; split <;> rfl
@[simp] theorem State.setCore_tierPoison (s : State) (c : Core) : (s.setCore c).tierPoison = s.tierPoison := by unfold State.setCore; split <;> rfl
@[simp] theorem State.setCore_hub0 (s : State) (c : Core) : (s.setCore c).hub0 = s.hub0 := by unfold State.setCore; split <;> rfl
@[simp] theorem State.setCore_hub1 (s : State) (c : Core) : (s.setCore c).hub1 = s.hub1 := by unfold State.setCore; split <;> rfl
@[simp] theorem State.setCore_teams (s : State) (c : Core) : (s.setCore c).teams = s.teams := by unfold State.setCore; split <;> rfl
@[simp] theorem State.setCore_nextTeam (s : State) (c : Core) : (s.setCore c).nextTeam = s.nextTeam := by unfold State.setCore; split <;> rfl
@[simp] theorem State.setCore_commits (s : State) (c : Core) : (s.setCore c).commits = s.commits := by unfold State.setCore; split <;> rfl
@[simp] theorem State.setCore_readOnly (s : State) (c : Core) : (s.setCore c).readOnly = s.readOnly := by unfold State.setCore; split <;> rfl
@[simp] theorem State.setCore_txns (s : State) (c : Core) : (s.setCore c).txns = s.txns := by unfold State.setCore; split <;> rfl
@[simp] theorem State.setCore_nextTxn (s : State) (c : Core) : (s.setCore c).nextTxn = s.nextTxn := by unfold State.setCore; split <;> rfl
@[simp] theorem State.setCore_mails (s : State) (c : Core) : (s.setCore c).mails = s.mails := by unfold State.setCore; split <;> rfl
@[simp] theorem State.setCore_packages (s : State) (c : Core) : (s.setCore c).packages = s.packages := by unfold State.setCore; split <;> rfl
@[simp] theorem State.setCore_revocations (s : State) (c : Core) : (s.setCore c).revocations = s.revocations := by unfold State.setCore; split <;> rfl
@[simp] theorem State.setCore_retiring (s : State) (c : Core) : (s.setCore c).retiring = s.retiring := by unfold State.setCore; split <;> rfl
@[simp] theorem State.setCore_access (s : State) (c : Core) : (s.setCore c).access = s.access := by unfold State.setCore; split <;> rfl
@[simp] theorem State.setCore_bridgeUp (s : State) (c : Core) : (s.setCore c).bridgeUp = s.bridgeUp := by unfold State.setCore; split <;> rfl
@[simp] theorem State.setCore_powered (s : State) (c : Core) : (s.setCore c).powered = s.powered := by unfold State.setCore; split <;> rfl
@[simp] theorem State.setCore_flash (s : State) (c : Core) : (s.setCore c).flash = s.flash := by unfold State.setCore; split <;> rfl
@[simp] theorem State.setCore_form (s : State) (c : Core) : (s.setCore c).form = s.form := by unfold State.setCore; split <;> rfl
@[simp] theorem State.setCore_badGranules (s : State) (c : Core) : (s.setCore c).badGranules = s.badGranules := by unfold State.setCore; split <;> rfl
@[simp] theorem State.setCore_asked (s : State) (c : Core) : (s.setCore c).asked = s.asked := by unfold State.setCore; split <;> rfl
@[simp] theorem State.setCore_arrived (s : State) (c : Core) : (s.setCore c).arrived = s.arrived := by unfold State.setCore; split <;> rfl
@[simp] theorem State.setCore_ports (s : State) (c : Core) : (s.setCore c).ports = s.ports := by unfold State.setCore; split <;> rfl
@[simp] theorem State.setCore_beat (s : State) (c : Core) : (s.setCore c).beat = s.beat := by unfold State.setCore; split <;> rfl
@[simp] theorem State.setCore_tables (s : State) (c : Core) : (s.setCore c).tables = s.tables := by unfold State.setCore; split <;> rfl
@[simp] theorem State.setCore_configured (s : State) (c : Core) : (s.setCore c).configured = s.configured := by unfold State.setCore; split <;> rfl
@[simp] theorem State.setCore_reports (s : State) (c : Core) : (s.setCore c).reports = s.reports := by unfold State.setCore; split <;> rfl

/-! ## modCore -/

@[simp] theorem State.modCore_tick (s : State) (u : CoreUnit) (f : Core → Core) : (s.modCore u f).tick = s.tick := by unfold State.modCore State.setCore; split <;> rfl
@[simp] theorem State.modCore_next (s : State) (u : CoreUnit) (f : Core → Core) : (s.modCore u f).next = s.next := by unfold State.modCore State.setCore; split <;> rfl
@[simp] theorem State.modCore_agenda (s : State) (u : CoreUnit) (f : Core → Core) : (s.modCore u f).agenda = s.agenda := by unfold State.modCore State.setCore; split <;> rfl
@[simp] theorem State.modCore_inputs (s : State) (u : CoreUnit) (f : Core → Core) : (s.modCore u f).inputs = s.inputs := by unfold State.modCore State.setCore; split <;> rfl
@[simp] theorem State.modCore_cycle (s : State) (u : CoreUnit) (f : Core → Core) : (s.modCore u f).cycle = s.cycle := by unfold State.modCore State.setCore; split <;> rfl
@[simp] theorem State.modCore_tbase (s : State) (u : CoreUnit) (f : Core → Core) : (s.modCore u f).tbase = s.tbase := by unfold State.modCore State.setCore; split <;> rfl
@[simp] theorem State.modCore_mem (s : State) (u : CoreUnit) (f : Core → Core) : (s.modCore u f).mem = s.mem := by unfold State.modCore State.setCore; split <;> rfl
@[simp] theorem State.modCore_memPoison (s : State) (u : CoreUnit) (f : Core → Core) : (s.modCore u f).memPoison = s.memPoison := by unfold State.modCore State.setCore; split <;> rfl
@[simp] theorem State.modCore_tier (s : State) (u : CoreUnit) (f : Core → Core) : (s.modCore u f).tier = s.tier := by unfold State.modCore State.setCore; split <;> rfl
@[simp] theorem State.modCore_tierPoison (s : State) (u : CoreUnit) (f : Core → Core) : (s.modCore u f).tierPoison = s.tierPoison := by unfold State.modCore State.setCore; split <;> rfl
@[simp] theorem State.modCore_hub0 (s : State) (u : CoreUnit) (f : Core → Core) : (s.modCore u f).hub0 = s.hub0 := by unfold State.modCore State.setCore; split <;> rfl
@[simp] theorem State.modCore_hub1 (s : State) (u : CoreUnit) (f : Core → Core) : (s.modCore u f).hub1 = s.hub1 := by unfold State.modCore State.setCore; split <;> rfl
@[simp] theorem State.modCore_teams (s : State) (u : CoreUnit) (f : Core → Core) : (s.modCore u f).teams = s.teams := by unfold State.modCore State.setCore; split <;> rfl
@[simp] theorem State.modCore_nextTeam (s : State) (u : CoreUnit) (f : Core → Core) : (s.modCore u f).nextTeam = s.nextTeam := by unfold State.modCore State.setCore; split <;> rfl
@[simp] theorem State.modCore_commits (s : State) (u : CoreUnit) (f : Core → Core) : (s.modCore u f).commits = s.commits := by unfold State.modCore State.setCore; split <;> rfl
@[simp] theorem State.modCore_readOnly (s : State) (u : CoreUnit) (f : Core → Core) : (s.modCore u f).readOnly = s.readOnly := by unfold State.modCore State.setCore; split <;> rfl
@[simp] theorem State.modCore_txns (s : State) (u : CoreUnit) (f : Core → Core) : (s.modCore u f).txns = s.txns := by unfold State.modCore State.setCore; split <;> rfl
@[simp] theorem State.modCore_nextTxn (s : State) (u : CoreUnit) (f : Core → Core) : (s.modCore u f).nextTxn = s.nextTxn := by unfold State.modCore State.setCore; split <;> rfl
@[simp] theorem State.modCore_mails (s : State) (u : CoreUnit) (f : Core → Core) : (s.modCore u f).mails = s.mails := by unfold State.modCore State.setCore; split <;> rfl
@[simp] theorem State.modCore_packages (s : State) (u : CoreUnit) (f : Core → Core) : (s.modCore u f).packages = s.packages := by unfold State.modCore State.setCore; split <;> rfl
@[simp] theorem State.modCore_revocations (s : State) (u : CoreUnit) (f : Core → Core) : (s.modCore u f).revocations = s.revocations := by unfold State.modCore State.setCore; split <;> rfl
@[simp] theorem State.modCore_retiring (s : State) (u : CoreUnit) (f : Core → Core) : (s.modCore u f).retiring = s.retiring := by unfold State.modCore State.setCore; split <;> rfl
@[simp] theorem State.modCore_access (s : State) (u : CoreUnit) (f : Core → Core) : (s.modCore u f).access = s.access := by unfold State.modCore State.setCore; split <;> rfl
@[simp] theorem State.modCore_bridgeUp (s : State) (u : CoreUnit) (f : Core → Core) : (s.modCore u f).bridgeUp = s.bridgeUp := by unfold State.modCore State.setCore; split <;> rfl
@[simp] theorem State.modCore_powered (s : State) (u : CoreUnit) (f : Core → Core) : (s.modCore u f).powered = s.powered := by unfold State.modCore State.setCore; split <;> rfl
@[simp] theorem State.modCore_flash (s : State) (u : CoreUnit) (f : Core → Core) : (s.modCore u f).flash = s.flash := by unfold State.modCore State.setCore; split <;> rfl
@[simp] theorem State.modCore_form (s : State) (u : CoreUnit) (f : Core → Core) : (s.modCore u f).form = s.form := by unfold State.modCore State.setCore; split <;> rfl
@[simp] theorem State.modCore_badGranules (s : State) (u : CoreUnit) (f : Core → Core) : (s.modCore u f).badGranules = s.badGranules := by unfold State.modCore State.setCore; split <;> rfl
@[simp] theorem State.modCore_asked (s : State) (u : CoreUnit) (f : Core → Core) : (s.modCore u f).asked = s.asked := by unfold State.modCore State.setCore; split <;> rfl
@[simp] theorem State.modCore_arrived (s : State) (u : CoreUnit) (f : Core → Core) : (s.modCore u f).arrived = s.arrived := by unfold State.modCore State.setCore; split <;> rfl
@[simp] theorem State.modCore_ports (s : State) (u : CoreUnit) (f : Core → Core) : (s.modCore u f).ports = s.ports := by unfold State.modCore State.setCore; split <;> rfl
@[simp] theorem State.modCore_beat (s : State) (u : CoreUnit) (f : Core → Core) : (s.modCore u f).beat = s.beat := by unfold State.modCore State.setCore; split <;> rfl
@[simp] theorem State.modCore_tables (s : State) (u : CoreUnit) (f : Core → Core) : (s.modCore u f).tables = s.tables := by unfold State.modCore State.setCore; split <;> rfl
@[simp] theorem State.modCore_configured (s : State) (u : CoreUnit) (f : Core → Core) : (s.modCore u f).configured = s.configured := by unfold State.modCore State.setCore; split <;> rfl
@[simp] theorem State.modCore_reports (s : State) (u : CoreUnit) (f : Core → Core) : (s.modCore u f).reports = s.reports := by unfold State.modCore State.setCore; split <;> rfl

/-! ## due -/

@[simp] theorem State.due_tick (s : State) (i : Instr) : (s.due i).tick = s.tick := rfl
@[simp] theorem State.due_next (s : State) (i : Instr) : (s.due i).next = s.next := rfl
@[simp] theorem State.due_inputs (s : State) (i : Instr) : (s.due i).inputs = s.inputs := rfl
@[simp] theorem State.due_cycle (s : State) (i : Instr) : (s.due i).cycle = s.cycle := rfl
@[simp] theorem State.due_tbase (s : State) (i : Instr) : (s.due i).tbase = s.tbase := rfl
@[simp] theorem State.due_mem (s : State) (i : Instr) : (s.due i).mem = s.mem := rfl
@[simp] theorem State.due_memPoison (s : State) (i : Instr) : (s.due i).memPoison = s.memPoison := rfl
@[simp] theorem State.due_tier (s : State) (i : Instr) : (s.due i).tier = s.tier := rfl
@[simp] theorem State.due_tierPoison (s : State) (i : Instr) : (s.due i).tierPoison = s.tierPoison := rfl
@[simp] theorem State.due_hub0 (s : State) (i : Instr) : (s.due i).hub0 = s.hub0 := rfl
@[simp] theorem State.due_hub1 (s : State) (i : Instr) : (s.due i).hub1 = s.hub1 := rfl
@[simp] theorem State.due_teams (s : State) (i : Instr) : (s.due i).teams = s.teams := rfl
@[simp] theorem State.due_nextTeam (s : State) (i : Instr) : (s.due i).nextTeam = s.nextTeam := rfl
@[simp] theorem State.due_commits (s : State) (i : Instr) : (s.due i).commits = s.commits := rfl
@[simp] theorem State.due_cores (s : State) (i : Instr) : (s.due i).cores = s.cores := rfl
@[simp] theorem State.due_readOnly (s : State) (i : Instr) : (s.due i).readOnly = s.readOnly := rfl
@[simp] theorem State.due_txns (s : State) (i : Instr) : (s.due i).txns = s.txns := rfl
@[simp] theorem State.due_nextTxn (s : State) (i : Instr) : (s.due i).nextTxn = s.nextTxn := rfl
@[simp] theorem State.due_mails (s : State) (i : Instr) : (s.due i).mails = s.mails := rfl
@[simp] theorem State.due_packages (s : State) (i : Instr) : (s.due i).packages = s.packages := rfl
@[simp] theorem State.due_revocations (s : State) (i : Instr) : (s.due i).revocations = s.revocations := rfl
@[simp] theorem State.due_retiring (s : State) (i : Instr) : (s.due i).retiring = s.retiring := rfl
@[simp] theorem State.due_access (s : State) (i : Instr) : (s.due i).access = s.access := rfl
@[simp] theorem State.due_bridgeUp (s : State) (i : Instr) : (s.due i).bridgeUp = s.bridgeUp := rfl
@[simp] theorem State.due_powered (s : State) (i : Instr) : (s.due i).powered = s.powered := rfl
@[simp] theorem State.due_flash (s : State) (i : Instr) : (s.due i).flash = s.flash := rfl
@[simp] theorem State.due_form (s : State) (i : Instr) : (s.due i).form = s.form := rfl
@[simp] theorem State.due_badGranules (s : State) (i : Instr) : (s.due i).badGranules = s.badGranules := rfl
@[simp] theorem State.due_asked (s : State) (i : Instr) : (s.due i).asked = s.asked := rfl
@[simp] theorem State.due_arrived (s : State) (i : Instr) : (s.due i).arrived = s.arrived := rfl
@[simp] theorem State.due_ports (s : State) (i : Instr) : (s.due i).ports = s.ports := rfl
@[simp] theorem State.due_beat (s : State) (i : Instr) : (s.due i).beat = s.beat := rfl
@[simp] theorem State.due_tables (s : State) (i : Instr) : (s.due i).tables = s.tables := rfl
@[simp] theorem State.due_configured (s : State) (i : Instr) : (s.due i).configured = s.configured := rfl
@[simp] theorem State.due_reports (s : State) (i : Instr) : (s.due i).reports = s.reports := rfl

/-! ## undue -/

@[simp] theorem State.undue_tick (s : State) (i : Instr) : (s.undue i).tick = s.tick := rfl
@[simp] theorem State.undue_next (s : State) (i : Instr) : (s.undue i).next = s.next := rfl
@[simp] theorem State.undue_inputs (s : State) (i : Instr) : (s.undue i).inputs = s.inputs := rfl
@[simp] theorem State.undue_cycle (s : State) (i : Instr) : (s.undue i).cycle = s.cycle := rfl
@[simp] theorem State.undue_tbase (s : State) (i : Instr) : (s.undue i).tbase = s.tbase := rfl
@[simp] theorem State.undue_mem (s : State) (i : Instr) : (s.undue i).mem = s.mem := rfl
@[simp] theorem State.undue_memPoison (s : State) (i : Instr) : (s.undue i).memPoison = s.memPoison := rfl
@[simp] theorem State.undue_tier (s : State) (i : Instr) : (s.undue i).tier = s.tier := rfl
@[simp] theorem State.undue_tierPoison (s : State) (i : Instr) : (s.undue i).tierPoison = s.tierPoison := rfl
@[simp] theorem State.undue_hub0 (s : State) (i : Instr) : (s.undue i).hub0 = s.hub0 := rfl
@[simp] theorem State.undue_hub1 (s : State) (i : Instr) : (s.undue i).hub1 = s.hub1 := rfl
@[simp] theorem State.undue_teams (s : State) (i : Instr) : (s.undue i).teams = s.teams := rfl
@[simp] theorem State.undue_nextTeam (s : State) (i : Instr) : (s.undue i).nextTeam = s.nextTeam := rfl
@[simp] theorem State.undue_commits (s : State) (i : Instr) : (s.undue i).commits = s.commits := rfl
@[simp] theorem State.undue_cores (s : State) (i : Instr) : (s.undue i).cores = s.cores := rfl
@[simp] theorem State.undue_readOnly (s : State) (i : Instr) : (s.undue i).readOnly = s.readOnly := rfl
@[simp] theorem State.undue_txns (s : State) (i : Instr) : (s.undue i).txns = s.txns := rfl
@[simp] theorem State.undue_nextTxn (s : State) (i : Instr) : (s.undue i).nextTxn = s.nextTxn := rfl
@[simp] theorem State.undue_mails (s : State) (i : Instr) : (s.undue i).mails = s.mails := rfl
@[simp] theorem State.undue_packages (s : State) (i : Instr) : (s.undue i).packages = s.packages := rfl
@[simp] theorem State.undue_revocations (s : State) (i : Instr) : (s.undue i).revocations = s.revocations := rfl
@[simp] theorem State.undue_retiring (s : State) (i : Instr) : (s.undue i).retiring = s.retiring := rfl
@[simp] theorem State.undue_access (s : State) (i : Instr) : (s.undue i).access = s.access := rfl
@[simp] theorem State.undue_bridgeUp (s : State) (i : Instr) : (s.undue i).bridgeUp = s.bridgeUp := rfl
@[simp] theorem State.undue_powered (s : State) (i : Instr) : (s.undue i).powered = s.powered := rfl
@[simp] theorem State.undue_flash (s : State) (i : Instr) : (s.undue i).flash = s.flash := rfl
@[simp] theorem State.undue_form (s : State) (i : Instr) : (s.undue i).form = s.form := rfl
@[simp] theorem State.undue_badGranules (s : State) (i : Instr) : (s.undue i).badGranules = s.badGranules := rfl
@[simp] theorem State.undue_asked (s : State) (i : Instr) : (s.undue i).asked = s.asked := rfl
@[simp] theorem State.undue_arrived (s : State) (i : Instr) : (s.undue i).arrived = s.arrived := rfl
@[simp] theorem State.undue_ports (s : State) (i : Instr) : (s.undue i).ports = s.ports := rfl
@[simp] theorem State.undue_beat (s : State) (i : Instr) : (s.undue i).beat = s.beat := rfl
@[simp] theorem State.undue_tables (s : State) (i : Instr) : (s.undue i).tables = s.tables := rfl
@[simp] theorem State.undue_configured (s : State) (i : Instr) : (s.undue i).configured = s.configured := rfl
@[simp] theorem State.undue_reports (s : State) (i : Instr) : (s.undue i).reports = s.reports := rfl

/-! ## modCluster -/

@[simp] theorem State.modCluster_tick (s : State) (i : Nat) (f : Cluster → Cluster) : (s.modCluster i f).tick = s.tick := rfl
@[simp] theorem State.modCluster_next (s : State) (i : Nat) (f : Cluster → Cluster) : (s.modCluster i f).next = s.next := rfl
@[simp] theorem State.modCluster_agenda (s : State) (i : Nat) (f : Cluster → Cluster) : (s.modCluster i f).agenda = s.agenda := rfl
@[simp] theorem State.modCluster_inputs (s : State) (i : Nat) (f : Cluster → Cluster) : (s.modCluster i f).inputs = s.inputs := rfl
@[simp] theorem State.modCluster_cycle (s : State) (i : Nat) (f : Cluster → Cluster) : (s.modCluster i f).cycle = s.cycle := rfl
@[simp] theorem State.modCluster_tbase (s : State) (i : Nat) (f : Cluster → Cluster) : (s.modCluster i f).tbase = s.tbase := rfl
@[simp] theorem State.modCluster_mem (s : State) (i : Nat) (f : Cluster → Cluster) : (s.modCluster i f).mem = s.mem := rfl
@[simp] theorem State.modCluster_memPoison (s : State) (i : Nat) (f : Cluster → Cluster) : (s.modCluster i f).memPoison = s.memPoison := rfl
@[simp] theorem State.modCluster_tier (s : State) (i : Nat) (f : Cluster → Cluster) : (s.modCluster i f).tier = s.tier := rfl
@[simp] theorem State.modCluster_tierPoison (s : State) (i : Nat) (f : Cluster → Cluster) : (s.modCluster i f).tierPoison = s.tierPoison := rfl
@[simp] theorem State.modCluster_hub0 (s : State) (i : Nat) (f : Cluster → Cluster) : (s.modCluster i f).hub0 = s.hub0 := rfl
@[simp] theorem State.modCluster_hub1 (s : State) (i : Nat) (f : Cluster → Cluster) : (s.modCluster i f).hub1 = s.hub1 := rfl
@[simp] theorem State.modCluster_nextTeam (s : State) (i : Nat) (f : Cluster → Cluster) : (s.modCluster i f).nextTeam = s.nextTeam := rfl
@[simp] theorem State.modCluster_commits (s : State) (i : Nat) (f : Cluster → Cluster) : (s.modCluster i f).commits = s.commits := rfl
@[simp] theorem State.modCluster_cores (s : State) (i : Nat) (f : Cluster → Cluster) : (s.modCluster i f).cores = s.cores := rfl
@[simp] theorem State.modCluster_readOnly (s : State) (i : Nat) (f : Cluster → Cluster) : (s.modCluster i f).readOnly = s.readOnly := rfl
@[simp] theorem State.modCluster_txns (s : State) (i : Nat) (f : Cluster → Cluster) : (s.modCluster i f).txns = s.txns := rfl
@[simp] theorem State.modCluster_nextTxn (s : State) (i : Nat) (f : Cluster → Cluster) : (s.modCluster i f).nextTxn = s.nextTxn := rfl
@[simp] theorem State.modCluster_mails (s : State) (i : Nat) (f : Cluster → Cluster) : (s.modCluster i f).mails = s.mails := rfl
@[simp] theorem State.modCluster_packages (s : State) (i : Nat) (f : Cluster → Cluster) : (s.modCluster i f).packages = s.packages := rfl
@[simp] theorem State.modCluster_revocations (s : State) (i : Nat) (f : Cluster → Cluster) : (s.modCluster i f).revocations = s.revocations := rfl
@[simp] theorem State.modCluster_retiring (s : State) (i : Nat) (f : Cluster → Cluster) : (s.modCluster i f).retiring = s.retiring := rfl
@[simp] theorem State.modCluster_access (s : State) (i : Nat) (f : Cluster → Cluster) : (s.modCluster i f).access = s.access := rfl
@[simp] theorem State.modCluster_bridgeUp (s : State) (i : Nat) (f : Cluster → Cluster) : (s.modCluster i f).bridgeUp = s.bridgeUp := rfl
@[simp] theorem State.modCluster_powered (s : State) (i : Nat) (f : Cluster → Cluster) : (s.modCluster i f).powered = s.powered := rfl
@[simp] theorem State.modCluster_flash (s : State) (i : Nat) (f : Cluster → Cluster) : (s.modCluster i f).flash = s.flash := rfl
@[simp] theorem State.modCluster_form (s : State) (i : Nat) (f : Cluster → Cluster) : (s.modCluster i f).form = s.form := rfl
@[simp] theorem State.modCluster_badGranules (s : State) (i : Nat) (f : Cluster → Cluster) : (s.modCluster i f).badGranules = s.badGranules := rfl
@[simp] theorem State.modCluster_asked (s : State) (i : Nat) (f : Cluster → Cluster) : (s.modCluster i f).asked = s.asked := rfl
@[simp] theorem State.modCluster_arrived (s : State) (i : Nat) (f : Cluster → Cluster) : (s.modCluster i f).arrived = s.arrived := rfl
@[simp] theorem State.modCluster_ports (s : State) (i : Nat) (f : Cluster → Cluster) : (s.modCluster i f).ports = s.ports := rfl
@[simp] theorem State.modCluster_beat (s : State) (i : Nat) (f : Cluster → Cluster) : (s.modCluster i f).beat = s.beat := rfl
@[simp] theorem State.modCluster_tables (s : State) (i : Nat) (f : Cluster → Cluster) : (s.modCluster i f).tables = s.tables := rfl
@[simp] theorem State.modCluster_configured (s : State) (i : Nat) (f : Cluster → Cluster) : (s.modCluster i f).configured = s.configured := rfl
@[simp] theorem State.modCluster_reports (s : State) (i : Nat) (f : Cluster → Cluster) : (s.modCluster i f).reports = s.reports := rfl

/-! ## modEngine -/

@[simp] theorem State.modEngine_tick (s : State) (i : Nat) (k : EngineKind) (f : Engine → Engine) : (s.modEngine i k f).tick = s.tick := rfl
@[simp] theorem State.modEngine_next (s : State) (i : Nat) (k : EngineKind) (f : Engine → Engine) : (s.modEngine i k f).next = s.next := rfl
@[simp] theorem State.modEngine_agenda (s : State) (i : Nat) (k : EngineKind) (f : Engine → Engine) : (s.modEngine i k f).agenda = s.agenda := rfl
@[simp] theorem State.modEngine_inputs (s : State) (i : Nat) (k : EngineKind) (f : Engine → Engine) : (s.modEngine i k f).inputs = s.inputs := rfl
@[simp] theorem State.modEngine_cycle (s : State) (i : Nat) (k : EngineKind) (f : Engine → Engine) : (s.modEngine i k f).cycle = s.cycle := rfl
@[simp] theorem State.modEngine_tbase (s : State) (i : Nat) (k : EngineKind) (f : Engine → Engine) : (s.modEngine i k f).tbase = s.tbase := rfl
@[simp] theorem State.modEngine_mem (s : State) (i : Nat) (k : EngineKind) (f : Engine → Engine) : (s.modEngine i k f).mem = s.mem := rfl
@[simp] theorem State.modEngine_memPoison (s : State) (i : Nat) (k : EngineKind) (f : Engine → Engine) : (s.modEngine i k f).memPoison = s.memPoison := rfl
@[simp] theorem State.modEngine_tier (s : State) (i : Nat) (k : EngineKind) (f : Engine → Engine) : (s.modEngine i k f).tier = s.tier := rfl
@[simp] theorem State.modEngine_tierPoison (s : State) (i : Nat) (k : EngineKind) (f : Engine → Engine) : (s.modEngine i k f).tierPoison = s.tierPoison := rfl
@[simp] theorem State.modEngine_hub0 (s : State) (i : Nat) (k : EngineKind) (f : Engine → Engine) : (s.modEngine i k f).hub0 = s.hub0 := rfl
@[simp] theorem State.modEngine_hub1 (s : State) (i : Nat) (k : EngineKind) (f : Engine → Engine) : (s.modEngine i k f).hub1 = s.hub1 := rfl
@[simp] theorem State.modEngine_nextTeam (s : State) (i : Nat) (k : EngineKind) (f : Engine → Engine) : (s.modEngine i k f).nextTeam = s.nextTeam := rfl
@[simp] theorem State.modEngine_commits (s : State) (i : Nat) (k : EngineKind) (f : Engine → Engine) : (s.modEngine i k f).commits = s.commits := rfl
@[simp] theorem State.modEngine_cores (s : State) (i : Nat) (k : EngineKind) (f : Engine → Engine) : (s.modEngine i k f).cores = s.cores := rfl
@[simp] theorem State.modEngine_readOnly (s : State) (i : Nat) (k : EngineKind) (f : Engine → Engine) : (s.modEngine i k f).readOnly = s.readOnly := rfl
@[simp] theorem State.modEngine_txns (s : State) (i : Nat) (k : EngineKind) (f : Engine → Engine) : (s.modEngine i k f).txns = s.txns := rfl
@[simp] theorem State.modEngine_nextTxn (s : State) (i : Nat) (k : EngineKind) (f : Engine → Engine) : (s.modEngine i k f).nextTxn = s.nextTxn := rfl
@[simp] theorem State.modEngine_mails (s : State) (i : Nat) (k : EngineKind) (f : Engine → Engine) : (s.modEngine i k f).mails = s.mails := rfl
@[simp] theorem State.modEngine_packages (s : State) (i : Nat) (k : EngineKind) (f : Engine → Engine) : (s.modEngine i k f).packages = s.packages := rfl
@[simp] theorem State.modEngine_revocations (s : State) (i : Nat) (k : EngineKind) (f : Engine → Engine) : (s.modEngine i k f).revocations = s.revocations := rfl
@[simp] theorem State.modEngine_retiring (s : State) (i : Nat) (k : EngineKind) (f : Engine → Engine) : (s.modEngine i k f).retiring = s.retiring := rfl
@[simp] theorem State.modEngine_access (s : State) (i : Nat) (k : EngineKind) (f : Engine → Engine) : (s.modEngine i k f).access = s.access := rfl
@[simp] theorem State.modEngine_bridgeUp (s : State) (i : Nat) (k : EngineKind) (f : Engine → Engine) : (s.modEngine i k f).bridgeUp = s.bridgeUp := rfl
@[simp] theorem State.modEngine_powered (s : State) (i : Nat) (k : EngineKind) (f : Engine → Engine) : (s.modEngine i k f).powered = s.powered := rfl
@[simp] theorem State.modEngine_flash (s : State) (i : Nat) (k : EngineKind) (f : Engine → Engine) : (s.modEngine i k f).flash = s.flash := rfl
@[simp] theorem State.modEngine_form (s : State) (i : Nat) (k : EngineKind) (f : Engine → Engine) : (s.modEngine i k f).form = s.form := rfl
@[simp] theorem State.modEngine_badGranules (s : State) (i : Nat) (k : EngineKind) (f : Engine → Engine) : (s.modEngine i k f).badGranules = s.badGranules := rfl
@[simp] theorem State.modEngine_asked (s : State) (i : Nat) (k : EngineKind) (f : Engine → Engine) : (s.modEngine i k f).asked = s.asked := rfl
@[simp] theorem State.modEngine_arrived (s : State) (i : Nat) (k : EngineKind) (f : Engine → Engine) : (s.modEngine i k f).arrived = s.arrived := rfl
@[simp] theorem State.modEngine_ports (s : State) (i : Nat) (k : EngineKind) (f : Engine → Engine) : (s.modEngine i k f).ports = s.ports := rfl
@[simp] theorem State.modEngine_beat (s : State) (i : Nat) (k : EngineKind) (f : Engine → Engine) : (s.modEngine i k f).beat = s.beat := rfl
@[simp] theorem State.modEngine_tables (s : State) (i : Nat) (k : EngineKind) (f : Engine → Engine) : (s.modEngine i k f).tables = s.tables := rfl
@[simp] theorem State.modEngine_configured (s : State) (i : Nat) (k : EngineKind) (f : Engine → Engine) : (s.modEngine i k f).configured = s.configured := rfl
@[simp] theorem State.modEngine_reports (s : State) (i : Nat) (k : EngineKind) (f : Engine → Engine) : (s.modEngine i k f).reports = s.reports := rfl

/-! ## modQueue -/

@[simp] theorem State.modQueue_tick (s : State) (h : HubId) (q : Nat) (f : Queue → Queue) : (s.modQueue h q f).tick = s.tick := by cases h <;> rfl
@[simp] theorem State.modQueue_next (s : State) (h : HubId) (q : Nat) (f : Queue → Queue) : (s.modQueue h q f).next = s.next := by cases h <;> rfl
@[simp] theorem State.modQueue_agenda (s : State) (h : HubId) (q : Nat) (f : Queue → Queue) : (s.modQueue h q f).agenda = s.agenda := by cases h <;> rfl
@[simp] theorem State.modQueue_inputs (s : State) (h : HubId) (q : Nat) (f : Queue → Queue) : (s.modQueue h q f).inputs = s.inputs := by cases h <;> rfl
@[simp] theorem State.modQueue_cycle (s : State) (h : HubId) (q : Nat) (f : Queue → Queue) : (s.modQueue h q f).cycle = s.cycle := by cases h <;> rfl
@[simp] theorem State.modQueue_tbase (s : State) (h : HubId) (q : Nat) (f : Queue → Queue) : (s.modQueue h q f).tbase = s.tbase := by cases h <;> rfl
@[simp] theorem State.modQueue_mem (s : State) (h : HubId) (q : Nat) (f : Queue → Queue) : (s.modQueue h q f).mem = s.mem := by cases h <;> rfl
@[simp] theorem State.modQueue_memPoison (s : State) (h : HubId) (q : Nat) (f : Queue → Queue) : (s.modQueue h q f).memPoison = s.memPoison := by cases h <;> rfl
@[simp] theorem State.modQueue_tier (s : State) (h : HubId) (q : Nat) (f : Queue → Queue) : (s.modQueue h q f).tier = s.tier := by cases h <;> rfl
@[simp] theorem State.modQueue_tierPoison (s : State) (h : HubId) (q : Nat) (f : Queue → Queue) : (s.modQueue h q f).tierPoison = s.tierPoison := by cases h <;> rfl
@[simp] theorem State.modQueue_teams (s : State) (h : HubId) (q : Nat) (f : Queue → Queue) : (s.modQueue h q f).teams = s.teams := by cases h <;> rfl
@[simp] theorem State.modQueue_nextTeam (s : State) (h : HubId) (q : Nat) (f : Queue → Queue) : (s.modQueue h q f).nextTeam = s.nextTeam := by cases h <;> rfl
@[simp] theorem State.modQueue_commits (s : State) (h : HubId) (q : Nat) (f : Queue → Queue) : (s.modQueue h q f).commits = s.commits := by cases h <;> rfl
@[simp] theorem State.modQueue_cores (s : State) (h : HubId) (q : Nat) (f : Queue → Queue) : (s.modQueue h q f).cores = s.cores := by cases h <;> rfl
@[simp] theorem State.modQueue_readOnly (s : State) (h : HubId) (q : Nat) (f : Queue → Queue) : (s.modQueue h q f).readOnly = s.readOnly := by cases h <;> rfl
@[simp] theorem State.modQueue_txns (s : State) (h : HubId) (q : Nat) (f : Queue → Queue) : (s.modQueue h q f).txns = s.txns := by cases h <;> rfl
@[simp] theorem State.modQueue_nextTxn (s : State) (h : HubId) (q : Nat) (f : Queue → Queue) : (s.modQueue h q f).nextTxn = s.nextTxn := by cases h <;> rfl
@[simp] theorem State.modQueue_mails (s : State) (h : HubId) (q : Nat) (f : Queue → Queue) : (s.modQueue h q f).mails = s.mails := by cases h <;> rfl
@[simp] theorem State.modQueue_packages (s : State) (h : HubId) (q : Nat) (f : Queue → Queue) : (s.modQueue h q f).packages = s.packages := by cases h <;> rfl
@[simp] theorem State.modQueue_revocations (s : State) (h : HubId) (q : Nat) (f : Queue → Queue) : (s.modQueue h q f).revocations = s.revocations := by cases h <;> rfl
@[simp] theorem State.modQueue_retiring (s : State) (h : HubId) (q : Nat) (f : Queue → Queue) : (s.modQueue h q f).retiring = s.retiring := by cases h <;> rfl
@[simp] theorem State.modQueue_access (s : State) (h : HubId) (q : Nat) (f : Queue → Queue) : (s.modQueue h q f).access = s.access := by cases h <;> rfl
@[simp] theorem State.modQueue_bridgeUp (s : State) (h : HubId) (q : Nat) (f : Queue → Queue) : (s.modQueue h q f).bridgeUp = s.bridgeUp := by cases h <;> rfl
@[simp] theorem State.modQueue_powered (s : State) (h : HubId) (q : Nat) (f : Queue → Queue) : (s.modQueue h q f).powered = s.powered := by cases h <;> rfl
@[simp] theorem State.modQueue_flash (s : State) (h : HubId) (q : Nat) (f : Queue → Queue) : (s.modQueue h q f).flash = s.flash := by cases h <;> rfl
@[simp] theorem State.modQueue_form (s : State) (h : HubId) (q : Nat) (f : Queue → Queue) : (s.modQueue h q f).form = s.form := by cases h <;> rfl
@[simp] theorem State.modQueue_badGranules (s : State) (h : HubId) (q : Nat) (f : Queue → Queue) : (s.modQueue h q f).badGranules = s.badGranules := by cases h <;> rfl
@[simp] theorem State.modQueue_asked (s : State) (h : HubId) (q : Nat) (f : Queue → Queue) : (s.modQueue h q f).asked = s.asked := by cases h <;> rfl
@[simp] theorem State.modQueue_arrived (s : State) (h : HubId) (q : Nat) (f : Queue → Queue) : (s.modQueue h q f).arrived = s.arrived := by cases h <;> rfl
@[simp] theorem State.modQueue_ports (s : State) (h : HubId) (q : Nat) (f : Queue → Queue) : (s.modQueue h q f).ports = s.ports := by cases h <;> rfl
@[simp] theorem State.modQueue_beat (s : State) (h : HubId) (q : Nat) (f : Queue → Queue) : (s.modQueue h q f).beat = s.beat := by cases h <;> rfl
@[simp] theorem State.modQueue_tables (s : State) (h : HubId) (q : Nat) (f : Queue → Queue) : (s.modQueue h q f).tables = s.tables := by cases h <;> rfl
@[simp] theorem State.modQueue_configured (s : State) (h : HubId) (q : Nat) (f : Queue → Queue) : (s.modQueue h q f).configured = s.configured := by cases h <;> rfl
@[simp] theorem State.modQueue_reports (s : State) (h : HubId) (q : Nat) (f : Queue → Queue) : (s.modQueue h q f).reports = s.reports := by cases h <;> rfl

/-! ## modPacket -/

@[simp] theorem State.modPacket_tick (s : State) (h : HubId) (q n : Nat) (f : Packet → Packet) : (s.modPacket h q n f).tick = s.tick := by cases h <;> rfl
@[simp] theorem State.modPacket_next (s : State) (h : HubId) (q n : Nat) (f : Packet → Packet) : (s.modPacket h q n f).next = s.next := by cases h <;> rfl
@[simp] theorem State.modPacket_agenda (s : State) (h : HubId) (q n : Nat) (f : Packet → Packet) : (s.modPacket h q n f).agenda = s.agenda := by cases h <;> rfl
@[simp] theorem State.modPacket_inputs (s : State) (h : HubId) (q n : Nat) (f : Packet → Packet) : (s.modPacket h q n f).inputs = s.inputs := by cases h <;> rfl
@[simp] theorem State.modPacket_cycle (s : State) (h : HubId) (q n : Nat) (f : Packet → Packet) : (s.modPacket h q n f).cycle = s.cycle := by cases h <;> rfl
@[simp] theorem State.modPacket_tbase (s : State) (h : HubId) (q n : Nat) (f : Packet → Packet) : (s.modPacket h q n f).tbase = s.tbase := by cases h <;> rfl
@[simp] theorem State.modPacket_mem (s : State) (h : HubId) (q n : Nat) (f : Packet → Packet) : (s.modPacket h q n f).mem = s.mem := by cases h <;> rfl
@[simp] theorem State.modPacket_memPoison (s : State) (h : HubId) (q n : Nat) (f : Packet → Packet) : (s.modPacket h q n f).memPoison = s.memPoison := by cases h <;> rfl
@[simp] theorem State.modPacket_tier (s : State) (h : HubId) (q n : Nat) (f : Packet → Packet) : (s.modPacket h q n f).tier = s.tier := by cases h <;> rfl
@[simp] theorem State.modPacket_tierPoison (s : State) (h : HubId) (q n : Nat) (f : Packet → Packet) : (s.modPacket h q n f).tierPoison = s.tierPoison := by cases h <;> rfl
@[simp] theorem State.modPacket_teams (s : State) (h : HubId) (q n : Nat) (f : Packet → Packet) : (s.modPacket h q n f).teams = s.teams := by cases h <;> rfl
@[simp] theorem State.modPacket_nextTeam (s : State) (h : HubId) (q n : Nat) (f : Packet → Packet) : (s.modPacket h q n f).nextTeam = s.nextTeam := by cases h <;> rfl
@[simp] theorem State.modPacket_commits (s : State) (h : HubId) (q n : Nat) (f : Packet → Packet) : (s.modPacket h q n f).commits = s.commits := by cases h <;> rfl
@[simp] theorem State.modPacket_cores (s : State) (h : HubId) (q n : Nat) (f : Packet → Packet) : (s.modPacket h q n f).cores = s.cores := by cases h <;> rfl
@[simp] theorem State.modPacket_readOnly (s : State) (h : HubId) (q n : Nat) (f : Packet → Packet) : (s.modPacket h q n f).readOnly = s.readOnly := by cases h <;> rfl
@[simp] theorem State.modPacket_txns (s : State) (h : HubId) (q n : Nat) (f : Packet → Packet) : (s.modPacket h q n f).txns = s.txns := by cases h <;> rfl
@[simp] theorem State.modPacket_nextTxn (s : State) (h : HubId) (q n : Nat) (f : Packet → Packet) : (s.modPacket h q n f).nextTxn = s.nextTxn := by cases h <;> rfl
@[simp] theorem State.modPacket_mails (s : State) (h : HubId) (q n : Nat) (f : Packet → Packet) : (s.modPacket h q n f).mails = s.mails := by cases h <;> rfl
@[simp] theorem State.modPacket_packages (s : State) (h : HubId) (q n : Nat) (f : Packet → Packet) : (s.modPacket h q n f).packages = s.packages := by cases h <;> rfl
@[simp] theorem State.modPacket_revocations (s : State) (h : HubId) (q n : Nat) (f : Packet → Packet) : (s.modPacket h q n f).revocations = s.revocations := by cases h <;> rfl
@[simp] theorem State.modPacket_retiring (s : State) (h : HubId) (q n : Nat) (f : Packet → Packet) : (s.modPacket h q n f).retiring = s.retiring := by cases h <;> rfl
@[simp] theorem State.modPacket_access (s : State) (h : HubId) (q n : Nat) (f : Packet → Packet) : (s.modPacket h q n f).access = s.access := by cases h <;> rfl
@[simp] theorem State.modPacket_bridgeUp (s : State) (h : HubId) (q n : Nat) (f : Packet → Packet) : (s.modPacket h q n f).bridgeUp = s.bridgeUp := by cases h <;> rfl
@[simp] theorem State.modPacket_powered (s : State) (h : HubId) (q n : Nat) (f : Packet → Packet) : (s.modPacket h q n f).powered = s.powered := by cases h <;> rfl
@[simp] theorem State.modPacket_flash (s : State) (h : HubId) (q n : Nat) (f : Packet → Packet) : (s.modPacket h q n f).flash = s.flash := by cases h <;> rfl
@[simp] theorem State.modPacket_form (s : State) (h : HubId) (q n : Nat) (f : Packet → Packet) : (s.modPacket h q n f).form = s.form := by cases h <;> rfl
@[simp] theorem State.modPacket_badGranules (s : State) (h : HubId) (q n : Nat) (f : Packet → Packet) : (s.modPacket h q n f).badGranules = s.badGranules := by cases h <;> rfl
@[simp] theorem State.modPacket_asked (s : State) (h : HubId) (q n : Nat) (f : Packet → Packet) : (s.modPacket h q n f).asked = s.asked := by cases h <;> rfl
@[simp] theorem State.modPacket_arrived (s : State) (h : HubId) (q n : Nat) (f : Packet → Packet) : (s.modPacket h q n f).arrived = s.arrived := by cases h <;> rfl
@[simp] theorem State.modPacket_ports (s : State) (h : HubId) (q n : Nat) (f : Packet → Packet) : (s.modPacket h q n f).ports = s.ports := by cases h <;> rfl
@[simp] theorem State.modPacket_beat (s : State) (h : HubId) (q n : Nat) (f : Packet → Packet) : (s.modPacket h q n f).beat = s.beat := by cases h <;> rfl
@[simp] theorem State.modPacket_tables (s : State) (h : HubId) (q n : Nat) (f : Packet → Packet) : (s.modPacket h q n f).tables = s.tables := by cases h <;> rfl
@[simp] theorem State.modPacket_configured (s : State) (h : HubId) (q n : Nat) (f : Packet → Packet) : (s.modPacket h q n f).configured = s.configured := by cases h <;> rfl
@[simp] theorem State.modPacket_reports (s : State) (h : HubId) (q n : Nat) (f : Packet → Packet) : (s.modPacket h q n f).reports = s.reports := by cases h <;> rfl

/-! ## What the updates find again -/

@[simp] theorem State.hub_setHub (s : State) (h k : HubId) (x : Hub) : (s.setHub h x).hub k = if k = h then x else s.hub k := by
  cases h <;> cases k <;> rfl

@[simp] theorem State.hub_modHub (s : State) (h k : HubId) (f : Hub → Hub) :
    (s.modHub h f).hub k = if k = h then f (s.hub h) else s.hub k := by
  cases h <;> cases k <;> rfl

/-- Finding by a number after an update of the elements of a number. -/
theorem find_updateWhere {α : Type} (key : α → Nat) (i k : Nat) (f : α → α) (hf : ∀ x, key (f x) = key x) (xs : List α) :
    (updateWhere (fun x => key x == i) f xs).find? (fun x => key x == k) =
      (xs.find? (fun x => key x == k)).map (fun x => if key x == i then f x else x) := by
  induction xs with
  | nil => rfl
  | cons x xs ih =>
    simp only [updateWhere, List.map_cons, List.find?_cons] at ih ⊢
    have h : key (if key x == i then f x else x) = key x := by split <;> simp [hf]
    rw [h]
    cases key x == k
    · exact ih
    · rfl

/-- A team after an update of the teams of a number that keeps their numbers. -/
theorem State.team_modTeam (s : State) (i k : Nat) (f : Team → Team) (hf : ∀ t, (f t).id = t.id) :
    (s.modTeam i f).team? k = (s.team? k).map (fun t => if t.id == i then f t else t) :=
  find_updateWhere Team.id i k f hf s.teams

/-- A group after an update of the groups of a number that keeps their numbers. -/
theorem Team.group_modGroup (t : Team) (i k : Nat) (f : Group → Group) (hf : ∀ g, (f g).gid = g.gid) :
    (t.modGroup i f).group? k = (t.group? k).map (fun g => if g.gid == i then f g else g) :=
  find_updateWhere Group.gid i k f hf t.groups

/-- Another team is untouched by an update of a team. -/
theorem State.team_modTeam_ne (s : State) {i k : Nat} (f : Team → Team) (hf : ∀ t, (f t).id = t.id) (h : k ≠ i) :
    (s.modTeam i f).team? k = s.team? k := by
  rw [State.team_modTeam s i k f hf]
  unfold State.team?
  cases hx : s.teams.find? (fun t => t.id == k) with
  | none => rfl
  | some t =>
    have : t.id = k := by simpa using List.find?_some hx
    simp [this, h]

end Sys2Proof.Machine
end

