-- ==== Sys2Proof/Laws/Issue.lean ====
section
/-! SUPPORT. What the shared operations of a main word do: the issue, the shape check, and the delivery of a result. -/

namespace Sys2Proof.Machine

/-- A word that issues runs its body. -/
theorem runMain_of_issues {s : State} {g : Sig} {w : MainWord} {c : Ctx} {body : State → Ctx → Res}
    (h : Issues g w s c) : runMain s g w body = .next (closeMain s c w (body s c)) := by
  obtain ⟨h1, h2, h3, h4, h5, -⟩ := h
  simp only [runMain, h1, h2, h3, h4, h5, Bool.false_eq_true, if_false]

/-- Progress asks nothing of other packages (R408). -/
@[simp] theorem State.queueProgress_asked (s : State) (t : Team) : (s.queueProgress t).asked = s.asked := by
  unfold State.queueProgress
  split <;> simp

@[simp] theorem State.progress_asked (s : State) (tid gid : Nat) (kernel : Bool) : (s.progress tid gid kernel).asked = s.asked := by
  unfold State.progress
  cases kernel
  · cases s.team? tid <;> simp
  · rfl

/-- An advance asks nothing of other packages. -/
@[simp] theorem State.advance_asked (s : State) (c : Ctx) (pos : Nat → Option LanePos) (taken : Dword) (target : Option Dword) :
    (s.advance c pos taken target).asked = s.asked := by
  simp only [State.advance, State.progress_asked, State.modGroup_asked]

/-- A body that completes and has asked nothing of other packages ends its instruction. -/
theorem closeMain_done {s s1 : State} {c : Ctx} {w : MainWord} (h : s1.asked = []) :
    Host.Outcome.next (closeMain s c w (.done s1)) = s1.goesOn c w := by
  simp [closeMain, Res.asks, settle, State.goesOn, h]

/-- A body that moves its lanes elsewhere and has asked nothing of other packages ends its instruction. -/
theorem closeMain_moved {s s1 : State} {c : Ctx} {w : MainWord} {pos : Nat → Option LanePos} {taken : Dword} {target : Option Dword}
    (h : s1.asked = []) : closeMain s c w (.moved s1 pos taken target) = (s1.advance c pos taken target).answersUsed := by
  simp [closeMain, Res.asks, settle, h]

/-- A trap of a body that is no walk under way ends its instruction. -/
theorem closeMain_trap {s : State} {c : Ctx} {w : MainWord} {t : TrapInfo} (h : t.cause ≠ walkAsks) :
    Host.Outcome.next (closeMain s c w (.trap t)) = s.trapsWith c t := by
  simp [closeMain, Res.asks, settle, State.trapsWith, h]

theorem firstSome_eq_none {α β : Type} (f : α → Option β) (xs : List α) :
    firstSome f xs = none ↔ ∀ x ∈ xs, f x = none := by
  induction xs with
  | nil => simp [firstSome]
  | cons x xs ih => simp only [firstSome]; split <;> simp_all

theorem shapeCheck_eq_none (c : Ctx) (n : Nat) (sh : Shape) :
    shapeCheck c n sh = none ↔ sh.code ≤ (c.group.regs.v n).shape.code := by
  simp only [shapeCheck]
  split <;> simp <;> omega

/-- R41: no shape trap exactly where the declarations admit the shape. -/
theorem destShapeCheck_eq_none (c : Ctx) (code : Byte) (width : Nat) (sh : Shape) :
    destShapeCheck c code width sh = none ↔ ∀ n ∈ destRegs code width, sh.code ≤ (c.group.regs.v n).shape.code := by
  cases h : isV code
  · simp [destShapeCheck, destRegs, h]
  · simp only [destShapeCheck, destRegs, h, Bool.not_true, Bool.false_eq_true, if_false, if_true, firstSome_eq_none, shapeCheck_eq_none,
      List.mem_map, forall_exists_index, and_imp, forall_apply_eq_imp_iff₂]

/-! ## Lane masks -/

@[simp] theorem laneBit_maskUpTo (f : Nat → Bool) (n l : Nat) (hn : n ≤ 64) :
    laneBit (maskUpTo f n) l = (decide (l < n) && f l) := by
  induction n with
  | zero => simp [maskUpTo, laneBit]
  | succ n ih =>
    have ih := ih (by omega)
    simp only [laneBit, maskUpTo] at *
    split
    · simp only [BitVec.getLsbD_or, ih, BitVec.getLsbD_twoPow]
      by_cases h : l = n <;> grind
    · rw [ih]; by_cases h : l = n <;> grind

theorem laneBit_maskOf (f : Nat → Bool) (l : Nat) (hl : l < 64) : laneBit (maskOf f) l = f l := by
  simp [maskOf, hl]

/-- A mask that is not empty has its lowest lane. -/
theorem lowestLane_mem {m : Dword} (h : m ≠ 0) : lowestLane m < 64 ∧ laneBit m (lowestLane m) = true := by
  have hne : maskLanes m ≠ [] := by
    intro he
    apply h
    apply BitVec.eq_of_getLsbD_eq
    intro i hi
    have : i ∉ maskLanes m := by simp [he]
    simp only [maskLanes, lanes64, List.mem_filter, List.mem_range, laneBit] at this
    simp_all
  have hm : lowestLane m ∈ maskLanes m := by
    unfold lowestLane
    cases hc : maskLanes m with
    | nil => exact absurd hc hne
    | cons x xs => simp
  simpa [maskLanes, lanes64] using hm

/-! ## Register writes -/

@[simp] theorem GroupRegs.v_setV (g : GroupRegs) (n m : Nat) (r : VReg) :
    (g.setV n r).v m = if n = m ∧ n < g.vregs.length then r else g.v m := by
  simp only [GroupRegs.setV, GroupRegs.v, List.getD_eq_getElem?_getD, List.getElem?_set]
  grind

@[simp] theorem GroupRegs.setV_length (g : GroupRegs) (n : Nat) (r : VReg) :
    (g.setV n r).vregs.length = g.vregs.length := by simp [GroupRegs.setV]

@[simp] theorem GroupRegs.s_setV (g : GroupRegs) (n m : Nat) (r : VReg) : (g.setV n r).s m = g.s m := rfl

/-- R225: the poison bits of a register after a write. -/
theorem VReg.write_poison (r : VReg) (active : Dword) (b t : Word) (val : Nat → Word) (poison : Nat → Bool) (l : Nat)
    (hl : l < 64) : laneBit (r.write active b t val poison).poison l =
      if laneBit active l then poison l else laneBit r.poison l := by
  have h := laneBit_maskOf poison l hl
  simp only [laneBit, VReg.write, BitVec.getLsbD_or, BitVec.getLsbD_and, BitVec.getLsbD_not] at *
  rw [h]
  by_cases h2 : active.getLsbD l = true <;> simp_all

/-- R225: the lanes of a register after a write. -/
theorem VReg.write_lane (r : VReg) (active : Dword) (b t : Word) (val : Nat → Word) (poison : Nat → Bool) (l : Nat)
    (hl : l < 64) : (r.write active b t val poison).lane l = match r.shape with
      | .uniform => b
      | .affine => b + t * BitVec.ofNat 32 l
      | .general => if laneBit active l then val l else r.lane l := by
  rcases r with ⟨st, p⟩
  cases st with
  | uniform v => simp [VReg.write, VReg.lane, VReg.shape]
  | affine x y => simp [VReg.write, VReg.lane, VReg.shape]
  | general ws => simp [VReg.write, VReg.lane, VReg.shape, lanes64, hl]

/-! ## Results -/

/-- One register of a vector-form write. -/
def writeOne (c : Ctx) (r : RVal) (n k : Nat) (g : GroupRegs) : GroupRegs :=
  let part := fun (x : Dword) => if k = 0 then loWord x else hiWord x
  g.setV (n + k) ((g.v (n + k)).write c.active (if r.shape = .affine then r.base else part (r.val (lowestLane c.active)))
    (if r.shape = .affine then r.stride else 0) (fun l => part (r.val l)) (fun l => r.poison l || laneBit c.guardPoison l))

theorem writeVector_eq (c : Ctx) (g : GroupRegs) (n width : Nat) (r : RVal) :
    writeVector c g n width r = if width = 64 then writeOne c r n 1 (writeOne c r n 0 g) else writeOne c r n 0 g := by
  simp [writeVector, writeOne]

/-- A result whose value in each lane is what its shape says: the same in every lane, or base and stride. -/
def RVal.Even (c : Ctx) (width : Nat) (r : RVal) : Prop :=
  match r.written c with
  | .general => True
  | .uniform => r.shape ≠ .affine ∧ (∀ l, l < 64 → r.val l = r.val (lowestLane c.active)) ∨
      r.shape = .affine ∧ width ≠ 64 ∧ ∀ l, l < 64 → loWord (r.val l) = r.base + r.stride * BitVec.ofNat 32 l
  | .affine => r.shape = .affine ∧ width ≠ 64 ∧ ∀ l, l < 64 → loWord (r.val l) = r.base + r.stride * BitVec.ofNat 32 l

/-- A register that admits the written shape reads back, in each active lane, the result's value there. -/
theorem write_reads (c : Ctx) (width : Nat) (r : RVal) (he : r.Even c width) (k : Nat) (hk : k = 0 ∨ width = 64) (q : VReg)
    (hf : (r.written c).code ≤ q.shape.code) (ha : c.active ≠ 0) (l : Nat) (hl : l < 64) (hal : laneBit c.active l = true) :
    (q.write c.active (if r.shape = .affine then r.base else (if k = 0 then loWord (r.val (lowestLane c.active)) else hiWord (r.val (lowestLane c.active))))
      (if r.shape = .affine then r.stride else 0) (fun l => if k = 0 then loWord (r.val l) else hiWord (r.val l))
      (fun l => r.poison l || laneBit c.guardPoison l)).lane l = if k = 0 then loWord (r.val l) else hiWord (r.val l) := by
  have hm := (lowestLane_mem ha).1
  rw [VReg.write_lane _ _ _ _ _ _ _ hl]
  unfold RVal.Even at he
  have hs : r.written c = .uniform → r.shape = .affine → r.stride = 0 := by
    simp only [RVal.written]; grind
  cases hq : q.shape <;> cases hr : r.written c <;> simp_all [Shape.code]
  all_goals
    obtain ⟨h1, h2⟩ | ⟨h1, h2, h3⟩ := he
    · simp [h1, h2 l hl]
    · simp [h1, hs h1, h3 l hl, hk.resolve_right h2]

theorem destRegs_64 {code : Byte} (hv : isV code = true) : destRegs code 64 = [code.toNat, code.toNat + 1] := by
  simp [destRegs, hv, List.range_succ]

theorem destRegs_narrow {code : Byte} {width : Nat} (hv : isV code = true) (h : width < 64) :
    destRegs code width = [code.toNat] := by
  have : max 1 (width / 32) = 1 := by omega
  simp [destRegs, hv, this, List.range_succ]

theorem writeOne_v (c : Ctx) (r : RVal) (n k m : Nat) (g : GroupRegs) (h : n + k < g.vregs.length) :
    (writeOne c r n k g).v m = if n + k = m then
      (g.v (n + k)).write c.active (if r.shape = .affine then r.base else (if k = 0 then loWord (r.val (lowestLane c.active)) else hiWord (r.val (lowestLane c.active))))
      (if r.shape = .affine then r.stride else 0) (fun l => if k = 0 then loWord (r.val l) else hiWord (r.val l))
      (fun l => r.poison l || laneBit c.guardPoison l) else g.v m := by
  simp [writeOne, h]

/-- A vector-form write of an admitted result is what `Wrote` says of it. -/
theorem writeVector_wrote (c : Ctx) (g : Group) (scalar : Bool) (code : Byte) (width : Nat) (r : RVal)
    (hv : isV code = true) (he : r.Even c width) (ha : c.active ≠ 0) (h64 : width = 64 ∨ width < 64)
    (hb : ∀ n ∈ destRegs code width, n < g.regs.vregs.length ∧ (r.written c).code ≤ (g.regs.v n).shape.code) :
    Wrote c g { g with regs := writeVector c g.regs code.toNat width r } scalar code width r.val r.poison := by
  have hs : isS code = false := by simp [isV, isS] at *; omega
  have ht : isTs code = false := by simp [isV, isTs] at *; omega
  obtain rfl | hn := h64
  · rw [destRegs_64 hv] at hb
    have h0 := hb code.toNat (by simp)
    have h1 := hb (code.toNat + 1) (by simp)
    have e0 := fun m => writeOne_v c r code.toNat 0 m g.regs (by simpa using h0.1)
    have l0 : (writeOne c r code.toNat 0 g.regs).vregs.length = g.regs.vregs.length := by simp [writeOne]
    have e1 := fun m => writeOne_v c r code.toNat 1 m (writeOne c r code.toNat 0 g.regs) (by rw [l0]; exact h1.1)
    have q0 := write_reads c 64 r he 0 (.inl rfl) _ h0.2 ha
    have q1 := write_reads c 64 r he 1 (.inr rfl) _ h1.2 ha
    simp only [e0, Nat.add_zero, Nat.left_eq_add, Nat.one_ne_zero, if_false] at e1
    simp only [writeVector_eq, if_true, Wrote, destRegs_64 hv, hs, ht, hv, HoldsValue, HoldsPoison, e1]
    refine ⟨?_, ?_, ?_, ?_, ?_, ?_, ?_⟩
    · simp [SameButResults, writeOne, GroupRegs.setV]
    · intro n hn; simp at hn; grind
    · intros; first | rfl | trivial
    · intros; first | rfl | trivial
    · intro _ l hl
      refine ⟨fun hal => ⟨⟨?_, fun _ => ?_⟩, ?_, fun _ => ?_⟩, fun hal n hn => ?_⟩
      · simpa using q0 l hl hal
      · simpa using q1 l hl hal
      · simp [VReg.write_poison, hl, hal]
      · simp [VReg.write_poison, hl, hal]
      · simp only [List.mem_cons, List.not_mem_nil, or_false] at hn
        obtain rfl | rfl := hn <;> simp [VReg.write_poison, VReg.write_lane, hl, hal] <;> grind
    · simp
    · simp
  · rw [destRegs_narrow hv hn] at hb
    have h0 := hb code.toNat (by simp)
    have e0 := fun m => writeOne_v c r code.toNat 0 m g.regs (by simpa using h0.1)
    have q0 := write_reads c width r he 0 (.inl rfl) _ h0.2 ha
    have hne : width ≠ 64 := by omega
    simp only [writeVector_eq, if_neg hne, Wrote, destRegs_narrow hv hn, hs, ht, hv, HoldsValue, HoldsPoison, e0, Nat.add_zero]
    refine ⟨?_, ?_, ?_, ?_, ?_, ?_, ?_⟩
    · simp [SameButResults, writeOne, GroupRegs.setV]
    · intro n hn; simp at hn; grind
    · intros; first | rfl | trivial
    · intros; first | rfl | trivial
    · intro _ l hl
      refine ⟨fun hal => ⟨⟨?_, fun h => absurd h hne⟩, ?_, fun h => absurd h hne⟩, fun hal n hn => ?_⟩
      · simpa using q0 l hl hal
      · simp [VReg.write_poison, hl, hal]
      · simp only [List.mem_cons, List.not_mem_nil, or_false] at hn
        subst hn; simp [VReg.write_poison, VReg.write_lane, hl, hal]; grind
    · simp
    · simp

/-- A scalar-form write is what `Wrote` says of it. -/
theorem writeScalar_wrote (c : Ctx) (g : Group) (code : Byte) (width : Nat) (val : Nat → Dword) (poison : Nat → Bool)
    (hv : isV code = false) :
    Wrote c g (writeScalar g code (val (lowestLane c.active)) (poison (lowestLane c.active) || decide (c.guardPoison ≠ 0)))
      true code width val poison := by
  have hd : destRegs code width = [] := by simp [destRegs, hv]
  have hst : ¬ (isS code = true ∧ isTs code = true) := by simp [isS, isTs]; omega
  unfold writeScalar
  refine ⟨?_, ?_, ?_, ?_, ?_, ?_, ?_⟩
  · simp only [SameButResults]; split <;> (try split) <;> rfl
  · intro n _; split <;> (try split) <;> rfl
  · intro n hn; split <;> (try split) <;> simp_all [GroupRegs.s, GroupRegs.setS, List.getElem?_set]; grind
  · intro n hn; split <;> (try split) <;> simp_all [List.getElem?_set]; grind
  · simp [hv]
  · intro _ h hl; simp [h, GroupRegs.s, GroupRegs.setS, hl]
  · intro _ h hl; have : isS code = false := by grind
    simp [h, this, hl]

/-- Delivery: what `deliver` does when the destination admits the result. -/
theorem deliver_done (s : State) (c : Ctx) (g : Sig) (w : MainWord) (width : Nat) (r : RVal)
    (hf : Fits c (g.scalarForm c.vector w) w.d width (r.written c)) :
    deliver s c g w width r = if c.active = 0 then .done s
      else .done (c.put s (writeDest c c.group (g.scalarForm c.vector w) w.d width r)) := by
  have : (if g.scalarForm c.vector w then none else destShapeCheck c w.d width (r.written c)) = none := by
    cases h : g.scalarForm c.vector w
    · rw [h] at hf
      simpa [destShapeCheck_eq_none, Fits] using hf
    · rfl
  simp [deliver, this]

end Sys2Proof.Machine
end

