-- ==== Sys2Proof/Laws/Memory.lean ====
section
/-! SUPPORT. The canonical form of memory: every operation that writes memory, poison or the durable tier keeps it. -/

namespace Sys2Proof.Machine

theorem Memory.wfFrom_mono {lo lo' : Nat} {m : Memory} (h : lo ≤ lo') (hw : Memory.wfFrom lo' m = true) :
    Memory.wfFrom lo m = true := by
  cases m with
  | nil => rfl
  | cons c m => simp [Memory.wfFrom] at hw ⊢; exact ⟨⟨by omega, hw.1.2⟩, hw.2⟩

/-- A write keeps a memory canonical from any address at or below the one written. -/
theorem Memory.write_wfFrom (v : Byte) (x : Nat) (m : Memory) :
    ∀ lo, lo ≤ x → Memory.wfFrom lo m = true → Memory.wfFrom lo (m.write x v) = true := by
  induction m with
  | nil =>
    intro lo hx _
    unfold Memory.write
    split
    · rfl
    · simp [Memory.wfFrom, *]
  | cons c m ih =>
    obtain ⟨a, b⟩ := c
    intro lo hx hw
    simp only [Memory.wfFrom, Bool.and_eq_true, decide_eq_true_eq] at hw
    unfold Memory.write
    split
    · split
      · simp [Memory.wfFrom, hw]
      · simp only [Memory.wfFrom, Bool.and_eq_true, decide_eq_true_eq]
        exact ⟨⟨hx, by assumption⟩, ⟨by omega, hw.1.2⟩, hw.2⟩
    · split
      · split
        · exact Memory.wfFrom_mono (by omega) hw.2
        · simp only [Memory.wfFrom, Bool.and_eq_true, decide_eq_true_eq]
          exact ⟨⟨by omega, by assumption⟩, hw.2⟩
      · simp only [Memory.wfFrom, Bool.and_eq_true, decide_eq_true_eq]
        exact ⟨hw.1, ih (a + 1) (by omega) hw.2⟩

/-- A write keeps the canonical form. -/
@[simp] theorem Memory.write_wf {m : Memory} (x : Nat) (v : Byte) (h : m.wf = true) : (m.write x v).wf = true :=
  Memory.write_wfFrom v x m 0 (Nat.zero_le x) h

@[simp] theorem Memory.writeBytes_wf (bs : List Byte) : ∀ {m : Memory} (a : Nat), m.wf = true → (m.writeBytes a bs).wf = true := by
  induction bs with
  | nil => intro m a h; exact h
  | cons b bs ih => intro m a h; exact ih (a + 1) (Memory.write_wf a b h)

/-- A fold of steps that keep the canonical form keeps it. -/
theorem Memory.foldl_wf {α : Type} (f : Memory → α → Memory) (hf : ∀ m x, m.wf = true → (f m x).wf = true) (xs : List α) :
    ∀ m : Memory, m.wf = true → (xs.foldl f m).wf = true := by
  induction xs with
  | nil => intro m h; exact h
  | cons x xs ih => intro m h; exact ih (f m x) (hf m x h)

@[simp] theorem Memory.writeCells_wf (cs : List (Nat × Byte)) {m : Memory} (h : m.wf = true) : (m.writeCells cs).wf = true :=
  Memory.foldl_wf (fun (m : Memory) (c : Nat × Byte) => m.write c.1 c.2) (fun _ c h => Memory.write_wf c.1 c.2 h) cs m h

@[simp] theorem Marks.write_wf {m : Marks} (k : Nat) (v : Byte) (h : Memory.wf m = true) : Memory.wf (Marks.write m k v) = true :=
  Memory.write_wf k v h

@[simp] theorem poisonWords_wf {m : Marks} (k n : Nat) (o : Byte) (h : Memory.wf m = true) :
    Memory.wf (poisonWords m k n o) = true := by
  unfold poisonWords
  refine Memory.foldl_wf (fun (m : Marks) i => if 4 * i < n then m.write (k / 4 + i) o else m) ?_ _ m h
  intro m i h
  split
  · exact Marks.write_wf _ _ h
  · exact h

@[simp] theorem clearPoison_wf {m : Marks} (cells : List (Nat × Byte)) (h : Memory.wf m = true) :
    Memory.wf (clearPoison m cells) = true := by
  unfold clearPoison
  split
  · exact h
  · refine Memory.foldl_wf _ ?_ cells m h
    intro m c h
    split
    · exact Marks.write_wf _ _ h
    · exact h

/-- Leaving out cells keeps the canonical form. -/
theorem Memory.filter_wfFrom (p : Nat × Byte → Bool) (m : Memory) :
    ∀ lo, Memory.wfFrom lo m = true → Memory.wfFrom lo (m.filter p) = true := by
  induction m with
  | nil => intro _ _; rfl
  | cons c m ih =>
    intro lo h
    simp only [Memory.wfFrom, Bool.and_eq_true, decide_eq_true_eq] at h
    simp only [List.filter]
    split
    · simp only [Memory.wfFrom, Bool.and_eq_true, decide_eq_true_eq]
      exact ⟨h.1, ih _ h.2⟩
    · exact Memory.wfFrom_mono (by omega) (ih _ h.2)

@[simp] theorem Memory.filter_wf (p : Nat × Byte → Bool) {m : Memory} (h : m.wf = true) : Memory.wf (m.filter p) = true :=
  Memory.filter_wfFrom p m 0 h

/-- The memories at reset are canonical. -/
theorem State.reset_memoryOk : State.reset.memoryOk = true := rfl

/-- The memories are canonical exactly when each of the four is. -/
theorem State.memoryOk_iff (s : State) :
    s.memoryOk = true ↔ s.mem.wf = true ∧ Memory.wf s.memPoison = true ∧ s.tier.wf = true ∧ Memory.wf s.tierPoison = true := by
  simp [State.memoryOk, and_assoc]

/-- A state with the memories of another is as canonical. -/
theorem State.memoryOk_of_same {s t : State} (h : s.memoryOk = true) (hm : t.mem = s.mem) (hp : t.memPoison = s.memPoison)
    (ht : t.tier = s.tier) (hq : t.tierPoison = s.tierPoison) : t.memoryOk = true := by
  simp_all [State.memoryOk]

end Sys2Proof.Machine
end

