-- ==== Sys2Proof/Laws/Operand.lean ====
section
/-! SUPPORT. What an operand reads: the same value in every lane where it is uniform, base and stride where it is affine. -/

namespace Sys2Proof.Machine

/-- An operand's lanes are what its shape says, at 32 bits with its base and stride. -/
def Opnd.Even (o : Opnd) (width : Nat) : Prop :=
  (o.shape = .uniform → (∀ l, o.val l = o.val 0) ∧ (width = 32 → ∀ l, loWord (o.val l) = o.base)) ∧
  (o.shape = .affine → width = 32 → ∀ l, l < 64 → loWord (o.val l) = o.base + o.stride * BitVec.ofNat 32 l)

theorem loWord_zext32 (x : Word) : loWord (zextDword 32 (x.setWidth 64)) = x := by
  apply BitVec.eq_of_toNat_eq
  simp [loWord, zextDword]
  omega

theorem loWord_zextDword (x : Dword) : loWord (zextDword 32 x) = loWord x := by
  apply BitVec.eq_of_toNat_eq
  simp [loWord, zextDword]

theorem Opnd.const_even (v : Dword) (width : Nat) : (Opnd.const v).Even width := by
  simp [Opnd.const, Opnd.Even]

theorem readV_even (g : GroupRegs) (n width : Nat) : (readV g n (width == 64) width).Even width := by
  unfold readV
  cases h : (width == 64)
  · rcases hr : g.v n with ⟨st, p⟩
    cases st <;> simp [Opnd.Even, VReg.shape, VReg.lane] <;> rintro rfl <;> simp [loWord_zext32]
  · rcases hr : g.v n with ⟨st, p⟩
    rcases hr1 : g.v (n + 1) with ⟨st1, p1⟩
    have : width = 64 := by simpa using h
    subst this
    cases st <;> cases st1 <;> simp [Opnd.Even, VReg.shape, VReg.lane]

theorem readOperand_even (g : Sig) (c : Ctx) (w : MainWord) (field : Nat) (code : Byte) (ty : OTy) :
    (readOperand g c w field code ty).Even ty.width := by
  unfold readOperand
  simp only []
  split
  · exact readV_even _ _ _
  · split
    · simp [Opnd.Even, Opnd.const]
    · split
      · exact Opnd.const_even _ _
      · split
        · split <;> exact Opnd.const_even _ _
        · split <;> try exact Opnd.const_even _ _
          · split
            · simp [Opnd.Even, loWord]
            · exact Opnd.const_even _ _
          · split
            · simp only [Opnd.Even]
              refine ⟨by simp, fun _ h l _ => ?_⟩
              rw [h, loWord_zextDword]
              apply BitVec.eq_of_toNat_eq
              simp [loWord]
            · exact Opnd.const_even _ _
          · split <;> exact Opnd.const_even _ _

theorem opA_even (g : Sig) (c : Ctx) (w : MainWord) (ty : OTy) (f : Byte → Bool) (h : g.a = .src ty f) :
    (g.opA c w).Even ty.width := by simp only [Sig.opA, h]; exact readOperand_even _ _ _ _ _ _
theorem opB_even (g : Sig) (c : Ctx) (w : MainWord) (ty : OTy) (f : Byte → Bool) (h : g.b = .src ty f) :
    (g.opB c w).Even ty.width := by simp only [Sig.opB, h]; exact readOperand_even _ _ _ _ _ _
theorem opC_even (g : Sig) (c : Ctx) (w : MainWord) (ty : OTy) (f : Byte → Bool) (h : g.c = .src ty f) :
    (g.opC c w).Even ty.width := by simp only [Sig.opC, h]; exact readOperand_even _ _ _ _ _ _

/-- The registers of a destination field stand within the role's budget when the decode checks pass (R8, R24). -/
theorem destRegs_bound {g : Sig} {c : Ctx} {w : MainWord} {width : Nat} {f : Byte → Bool} (hc : g.check c w = none)
    (hd : g.d = .dst width f) : ∀ n ∈ destRegs w.d width, n < c.group.regs.vregs.length := by
  have hb : g.fieldBad c.vector c.group.regs.vregs.length w = none := by
    cases hf : g.fieldBad c.vector c.group.regs.vregs.length w with
    | none => rfl
    | some x => exfalso; simp only [Sig.check, hf] at hc; grind
  simp only [Sig.fieldBad, firstSome_eq_none, Sig.fields, List.mem_cons] at hb
  have h0 := hb (0, w.d, g.d) (by simp)
  simp only [hd] at h0
  intro n hn
  simp only [destRegs] at hn
  cases hv : isV w.d with
  | false => simp [hv] at hn
  | true =>
    simp only [Sig.destBad, hv, vOutside] at h0
    simp only [hv, if_true, List.mem_map, List.mem_range] at hn
    obtain ⟨i, hi, rfl⟩ := hn
    simp at h0
    by_cases h2 : 2 ≤ width / 32
    · have := (h0.1.2.2).2 h2
      omega
    · have := (h0.1.2.2).1
      omega

/-- R41: the shape written is the one of the table. -/
theorem writtenShape_eq (c : Ctx) (srcs : List Opnd) (af : Option (Word × Word)) (val : Nat → Dword) (poison : Nat → Bool) :
    RVal.written c { shape := (resultShape srcs af).1, base := (resultShape srcs af).2.1, stride := (resultShape srcs af).2.2, val := val, poison := poison }
     = writtenShape c srcs af := by
  simp only [RVal.written, writtenShape, resultShape]
  split
  · rfl
  · split
    · simp
    · cases af with
      | none => simp
      | some x => rcases x with ⟨b, t⟩; simp

/-- R9: in scalar form the destination names no v register. -/
theorem notV_of_scalar {g : Sig} {c : Ctx} {w : MainWord} {width : Nat} {f : Byte → Bool} (hc : g.check c w = none)
    (hd : g.d = .dst width f) (hform : g.form = .byDest) (hs : g.scalarForm c.vector w = true) : isV w.d = false := by
  have hb : g.fieldBad c.vector c.group.regs.vregs.length w = none := by
    cases hf : g.fieldBad c.vector c.group.regs.vregs.length w with
    | none => rfl
    | some x => exfalso; simp only [Sig.check, hf] at hc; grind
  simp only [Sig.fieldBad, firstSome_eq_none, Sig.fields, List.mem_cons] at hb
  have h0 := hb (0, w.d, g.d) (by simp)
  simp only [hd, Sig.destBad] at h0
  cases hv : isV w.d
  · rfl
  · simp only [hv] at h0
    cases hvec : c.vector
    · simp [hvec] at h0
    · simp only [Sig.scalarForm, hvec, hform] at hs
      have hs' : isScalarReg w.d = false := by simp [isV, isScalarReg, isS, isTs] at *; omega
      have he : (w.d == 0xE0) = false := by
        simp [isV] at *
        rintro h
        rw [h] at hv
        simp at hv
      simp only [hs', he] at hs; simp at hs

theorem delivers {i : Instr} {g : Sig} {w : MainWord} {s : State} {c : Ctx} {width : Nat} {r : RVal} {body : State → Ctx → Res} (hform : g.form = .byDest)
    (hi : Issues g w s c) (he : exec i s = runMain s g w body) (hb : body s c = deliver s c g w width r)
    (hd : g.d = .dstAny width) (h64 : width = 64 ∨ width < 64) (hev : r.Even c width)
    (hf : Fits c (g.scalarForm c.vector w) w.d width (r.written c)) :
    DeliversTo i g w s c width r.val r.poison := by
  have hbound := destRegs_bound hi.2.1 hd
  refine ⟨fun h0 => ?_, fun h0 => ?_⟩
  · rw [he, runMain_of_issues hi, hb, deliver_done _ _ _ _ _ _ hf, if_pos h0]; exact closeMain_done hi.2.2.2.2.2
  · refine ⟨writeDest c c.group (g.scalarForm c.vector w) w.d width r, ?_, ?_⟩
    · rw [he, runMain_of_issues hi, hb, deliver_done _ _ _ _ _ _ hf, if_neg h0]; exact closeMain_done (by simp [Ctx.put, hi.2.2.2.2.2])
    · unfold writeDest
      cases hv : isV w.d
      · simp only [Bool.false_eq_true, if_false]
        cases hs : g.scalarForm c.vector w
        · simp only [Bool.false_eq_true, if_false]
          refine ⟨rfl, fun _ _ => rfl, fun _ _ => rfl, fun _ _ => rfl, by simp [hv], by simp, by simp⟩
        · simp only [if_true]
          exact writeScalar_wrote c c.group w.d width r.val r.poison hv
      · simp only [if_true]
        refine writeVector_wrote c c.group _ w.d width r hv hev h0 h64 (fun n hn => ⟨hbound n hn, ?_⟩)
        obtain hsc | hfit := hf
        · rw [notV_of_scalar hi.2.1 hd hform hsc] at hv; cases hv
        · exact hfit n hn

theorem intTy_width (m : Nat) : (intTy m).width = 64 ∨ (intTy m).width < 64 := by
  unfold intTy; split <;> simp [OTy.width]

end Sys2Proof.Machine
end

