-- ==== Sys2Proof/Laws/PerInstr.lean ====
section
/-! SUPPORT. Per instruction: the opcode and fields that the encoder gives a well-formed main-word instruction are
those from which the decoder makes it again. -/

namespace Sys2Proof.Laws

/-- The decoder reads back, from its opcode and fields, each well-formed main-word instruction. -/
def Coding.Statement (i : Instr) : Prop :=
  i.wf = true → ∀ op w, mainOf i = some (op, w) → ofOpcode op.toNat w = .instr i

/-- An instruction without a main word meets the statement. -/
theorem Coding.of_none {i : Instr} (h : mainOf i = none) : Coding.Statement i := by
  intro _ op w hm
  rw [h] at hm
  cases hm

/-- An instruction whose main word is known meets the statement when the decoder reads it back. -/
theorem Coding.of_some {i : Instr} {op : BitVec 10} {w : MainWord} (h : mainOf i = some (op, w))
    (hd : i.wf = true → ofOpcode op.toNat w = .instr i) : Coding.Statement i := by
  intro hw op' w' hm
  rw [h] at hm
  cases hm
  exact hd hw

theorem Coding.iadd (w : MainWord) : Coding.Statement (.iadd w) := Coding.of_some rfl (fun _ => rfl)
theorem Coding.isub (w : MainWord) : Coding.Statement (.isub w) := Coding.of_some rfl (fun _ => rfl)
theorem Coding.imul (w : MainWord) : Coding.Statement (.imul w) := Coding.of_some rfl (fun _ => rfl)
theorem Coding.imulh (w : MainWord) : Coding.Statement (.imulh w) := Coding.of_some rfl (fun _ => rfl)
theorem Coding.imad (w : MainWord) : Coding.Statement (.imad w) := Coding.of_some rfl (fun _ => rfl)
theorem Coding.idiv (w : MainWord) : Coding.Statement (.idiv w) := Coding.of_some rfl (fun _ => rfl)
theorem Coding.irem (w : MainWord) : Coding.Statement (.irem w) := Coding.of_some rfl (fun _ => rfl)
theorem Coding.imin (w : MainWord) : Coding.Statement (.imin w) := Coding.of_some rfl (fun _ => rfl)
theorem Coding.imax (w : MainWord) : Coding.Statement (.imax w) := Coding.of_some rfl (fun _ => rfl)
theorem Coding.iabs (w : MainWord) : Coding.Statement (.iabs w) := Coding.of_some rfl (fun _ => rfl)
theorem Coding.and (w : MainWord) : Coding.Statement (.and w) := Coding.of_some rfl (fun _ => rfl)
theorem Coding.or (w : MainWord) : Coding.Statement (.or w) := Coding.of_some rfl (fun _ => rfl)
theorem Coding.xor (w : MainWord) : Coding.Statement (.xor w) := Coding.of_some rfl (fun _ => rfl)
theorem Coding.andn (w : MainWord) : Coding.Statement (.andn w) := Coding.of_some rfl (fun _ => rfl)
theorem Coding.bmix (w : MainWord) : Coding.Statement (.bmix w) := Coding.of_some rfl (fun _ => rfl)
theorem Coding.shl (w : MainWord) : Coding.Statement (.shl w) := Coding.of_some rfl (fun _ => rfl)
theorem Coding.shr (w : MainWord) : Coding.Statement (.shr w) := Coding.of_some rfl (fun _ => rfl)
theorem Coding.sar (w : MainWord) : Coding.Statement (.sar w) := Coding.of_some rfl (fun _ => rfl)
theorem Coding.rotl (w : MainWord) : Coding.Statement (.rotl w) := Coding.of_some rfl (fun _ => rfl)
theorem Coding.popc (w : MainWord) : Coding.Statement (.popc w) := Coding.of_some rfl (fun _ => rfl)
theorem Coding.clz (w : MainWord) : Coding.Statement (.clz w) := Coding.of_some rfl (fun _ => rfl)
theorem Coding.ctz (w : MainWord) : Coding.Statement (.ctz w) := Coding.of_some rfl (fun _ => rfl)
theorem Coding.brev (w : MainWord) : Coding.Statement (.brev w) := Coding.of_some rfl (fun _ => rfl)
theorem Coding.bfx (w : MainWord) : Coding.Statement (.bfx w) := Coding.of_some rfl (fun _ => rfl)
theorem Coding.bfi (w : MainWord) : Coding.Statement (.bfi w) := Coding.of_some rfl (fun _ => rfl)
theorem Coding.icmp (w : MainWord) : Coding.Statement (.icmp w) := Coding.of_some rfl (fun _ => rfl)
theorem Coding.plog (w : MainWord) : Coding.Statement (.plog w) := Coding.of_some rfl (fun _ => rfl)
theorem Coding.sel (w : MainWord) : Coding.Statement (.sel w) := Coding.of_some rfl (fun _ => rfl)
theorem Coding.mov (w : MainWord) : Coding.Statement (.mov w) := Coding.of_some rfl (fun _ => rfl)
theorem Coding.pmovFromPred (w : MainWord) : Coding.Statement (.pmovFromPred w) := Coding.of_some rfl (fun h => by
  have h1 : w.m.toNat = 0 := by simpa [Instr.wf, mIs] using h
  change pmovOf w = _
  simp [pmovOf, h1])
theorem Coding.pmovToPred (w : MainWord) : Coding.Statement (.pmovToPred w) := Coding.of_some rfl (fun h => by
  have h1 : w.m.toNat = 1 := by simpa [Instr.wf, mIs] using h
  change pmovOf w = _
  simp [pmovOf, h1])
theorem Coding.pmovGet (w : MainWord) : Coding.Statement (.pmovGet w) := Coding.of_some rfl (fun h => by
  have h1 : w.m.toNat = 2 := by simpa [Instr.wf, mIs] using h
  change pmovOf w = _
  simp [pmovOf, h1])
theorem Coding.pmovSet (w : MainWord) : Coding.Statement (.pmovSet w) := Coding.of_some rfl (fun h => by
  have h1 : w.m.toNat = 3 := by simpa [Instr.wf, mIs] using h
  change pmovOf w = _
  simp [pmovOf, h1])
theorem Coding.lea (w : MainWord) : Coding.Statement (.lea w) := Coding.of_some rfl (fun _ => rfl)
theorem Coding.fadd (w : MainWord) : Coding.Statement (.fadd w) := Coding.of_some rfl (fun _ => rfl)
theorem Coding.fsub (w : MainWord) : Coding.Statement (.fsub w) := Coding.of_some rfl (fun _ => rfl)
theorem Coding.fmul (w : MainWord) : Coding.Statement (.fmul w) := Coding.of_some rfl (fun _ => rfl)
theorem Coding.ffma (w : MainWord) : Coding.Statement (.ffma w) := Coding.of_some rfl (fun _ => rfl)
theorem Coding.fmin (w : MainWord) : Coding.Statement (.fmin w) := Coding.of_some rfl (fun _ => rfl)
theorem Coding.fmax (w : MainWord) : Coding.Statement (.fmax w) := Coding.of_some rfl (fun _ => rfl)
theorem Coding.fabs (w : MainWord) : Coding.Statement (.fabs w) := Coding.of_some rfl (fun _ => rfl)
theorem Coding.fneg (w : MainWord) : Coding.Statement (.fneg w) := Coding.of_some rfl (fun _ => rfl)
theorem Coding.fdiv (w : MainWord) : Coding.Statement (.fdiv w) := Coding.of_some rfl (fun _ => rfl)
theorem Coding.fsqrt (w : MainWord) : Coding.Statement (.fsqrt w) := Coding.of_some rfl (fun _ => rfl)
theorem Coding.fcmp (w : MainWord) : Coding.Statement (.fcmp w) := Coding.of_some rfl (fun _ => rfl)
theorem Coding.fclass (w : MainWord) : Coding.Statement (.fclass w) := Coding.of_some rfl (fun _ => rfl)
theorem Coding.fdot2 (w : MainWord) : Coding.Statement (.fdot2 w) := Coding.of_some rfl (fun _ => rfl)
theorem Coding.fdot4 (w : MainWord) : Coding.Statement (.fdot4 w) := Coding.of_some rfl (fun _ => rfl)
theorem Coding.cvt (w : MainWord) : Coding.Statement (.cvt w) := Coding.of_some rfl (fun _ => rfl)
theorem Coding.cvts (w : MainWord) : Coding.Statement (.cvts w) := Coding.of_some rfl (fun _ => rfl)
theorem Coding.frnd (w : MainWord) : Coding.Statement (.frnd w) := Coding.of_some rfl (fun _ => rfl)
theorem Coding.frcp (w : MainWord) : Coding.Statement (.frcp w) := Coding.of_some rfl (fun _ => rfl)
theorem Coding.frsq (w : MainWord) : Coding.Statement (.frsq w) := Coding.of_some rfl (fun _ => rfl)
theorem Coding.fexp2 (w : MainWord) : Coding.Statement (.fexp2 w) := Coding.of_some rfl (fun _ => rfl)
theorem Coding.flog2 (w : MainWord) : Coding.Statement (.flog2 w) := Coding.of_some rfl (fun _ => rfl)
theorem Coding.fsin (w : MainWord) : Coding.Statement (.fsin w) := Coding.of_some rfl (fun _ => rfl)
theorem Coding.fcos (w : MainWord) : Coding.Statement (.fcos w) := Coding.of_some rfl (fun _ => rfl)
theorem Coding.ftanh (w : MainWord) : Coding.Statement (.ftanh w) := Coding.of_some rfl (fun _ => rfl)
theorem Coding.qscl (w : MainWord) : Coding.Statement (.qscl w) := Coding.of_some rfl (fun _ => rfl)
theorem Coding.qpack (w : MainWord) : Coding.Statement (.qpack w) := Coding.of_some rfl (fun _ => rfl)
theorem Coding.qunpk (w : MainWord) : Coding.Statement (.qunpk w) := Coding.of_some rfl (fun _ => rfl)
theorem Coding.shape (w : MainWord) : Coding.Statement (.shape w) := Coding.of_some rfl (fun _ => rfl)
theorem Coding.prdx (w : MainWord) : Coding.Statement (.prdx w) := Coding.of_some rfl (fun _ => rfl)
theorem Coding.ballot (w : MainWord) : Coding.Statement (.ballot w) := Coding.of_some rfl (fun _ => rfl)
theorem Coding.lxch (w : MainWord) : Coding.Statement (.lxch w) := Coding.of_some rfl (fun _ => rfl)
theorem Coding.lxop (w : MainWord) : Coding.Statement (.lxop w) := Coding.of_some rfl (fun _ => rfl)
theorem Coding.scan (w : MainWord) : Coding.Statement (.scan w) := Coding.of_some rfl (fun _ => rfl)
theorem Coding.part (w : MainWord) : Coding.Statement (.part w) := Coding.of_some rfl (fun _ => rfl)
theorem Coding.reord (w : MainWord) : Coding.Statement (.reord w) := Coding.of_some rfl (fun _ => rfl)
theorem Coding.tmma (w : MainWord) : Coding.Statement (.tmma w) := Coding.of_some rfl (fun _ => rfl)
theorem Coding.tzero (w : MainWord) : Coding.Statement (.tzero w) := Coding.of_some rfl (fun _ => rfl)
theorem Coding.tld (w : MainWord) : Coding.Statement (.tld w) := Coding.of_some rfl (fun _ => rfl)
theorem Coding.tdrn (w : MainWord) : Coding.Statement (.tdrn w) := Coding.of_some rfl (fun _ => rfl)
theorem Coding.tredr (w : MainWord) : Coding.Statement (.tredr w) := Coding.of_some rfl (fun _ => rfl)
theorem Coding.tredc (w : MainWord) : Coding.Statement (.tredc w) := Coding.of_some rfl (fun _ => rfl)
theorem Coding.tbcr (w : MainWord) : Coding.Statement (.tbcr w) := Coding.of_some rfl (fun _ => rfl)
theorem Coding.tbcc (w : MainWord) : Coding.Statement (.tbcc w) := Coding.of_some rfl (fun _ => rfl)
theorem Coding.trot (w : MainWord) : Coding.Statement (.trot w) := Coding.of_some rfl (fun _ => rfl)
theorem Coding.tew (w : MainWord) : Coding.Statement (.tew w) := Coding.of_some rfl (fun _ => rfl)
theorem Coding.tget (w : MainWord) : Coding.Statement (.tget w) := Coding.of_some rfl (fun _ => rfl)
theorem Coding.tset (w : MainWord) : Coding.Statement (.tset w) := Coding.of_some rfl (fun _ => rfl)
theorem Coding.ld (w : MainWord) : Coding.Statement (.ld w) := Coding.of_some rfl (fun _ => rfl)
theorem Coding.st (w : MainWord) : Coding.Statement (.st w) := Coding.of_some rfl (fun _ => rfl)
theorem Coding.pref (w : MainWord) : Coding.Statement (.pref w) := Coding.of_some rfl (fun _ => rfl)
theorem Coding.wb (w : MainWord) : Coding.Statement (.wb w) := Coding.of_some rfl (fun _ => rfl)
theorem Coding.inv (w : MainWord) : Coding.Statement (.inv w) := Coding.of_some rfl (fun _ => rfl)
theorem Coding.iinv (w : MainWord) : Coding.Statement (.iinv w) := Coding.of_some rfl (fun _ => rfl)
theorem Coding.ifence (w : MainWord) : Coding.Statement (.ifence w) := Coding.of_some rfl (fun _ => rfl)
theorem Coding.lds (w : MainWord) : Coding.Statement (.lds w) := Coding.of_some rfl (fun _ => rfl)
theorem Coding.sts (w : MainWord) : Coding.Statement (.sts w) := Coding.of_some rfl (fun _ => rfl)
theorem Coding.ldk (w : MainWord) : Coding.Statement (.ldk w) := Coding.of_some rfl (fun _ => rfl)
theorem Coding.cpy (w : MainWord) : Coding.Statement (.cpy w) := Coding.of_some rfl (fun _ => rfl)
theorem Coding.cpyw (w : MainWord) : Coding.Statement (.cpyw w) := Coding.of_some rfl (fun _ => rfl)
theorem Coding.publDecl (w : MainWord) : Coding.Statement (.publDecl w) := Coding.of_some rfl (fun h => by
  have h1 : w.m.toNat = 0 := by simpa [Instr.wf, mIs] using h
  change publOf w = _
  simp [publOf, h1])
theorem Coding.publSwap (w : MainWord) : Coding.Statement (.publSwap w) := Coding.of_some rfl (fun h => by
  have h1 : w.m.toNat = 1 := by simpa [Instr.wf, mIs] using h
  change publOf w = _
  simp [publOf, h1])
theorem Coding.publFree (w : MainWord) : Coding.Statement (.publFree w) := Coding.of_some rfl (fun h => by
  have h1 : w.m.toNat = 2 := by simpa [Instr.wf, mIs] using h
  change publOf w = _
  simp [publOf, h1])
theorem Coding.atom (w : MainWord) : Coding.Statement (.atom w) := Coding.of_some rfl (fun _ => rfl)
theorem Coding.cas (w : MainWord) : Coding.Statement (.cas w) := Coding.of_some rfl (fun _ => rfl)
theorem Coding.ldr (w : MainWord) : Coding.Statement (.ldr w) := Coding.of_some rfl (fun _ => rfl)
theorem Coding.stc (w : MainWord) : Coding.Statement (.stc w) := Coding.of_some rfl (fun _ => rfl)
theorem Coding.fence (w : MainWord) : Coding.Statement (.fence w) := Coding.of_some rfl (fun _ => rfl)
theorem Coding.persist (w : MainWord) : Coding.Statement (.persist w) := Coding.of_some rfl (fun _ => rfl)
theorem Coding.bari (w : MainWord) : Coding.Statement (.bari w) := Coding.of_some rfl (fun _ => rfl)
theorem Coding.bara (w : MainWord) : Coding.Statement (.bara w) := Coding.of_some rfl (fun _ => rfl)
theorem Coding.barw (w : MainWord) : Coding.Statement (.barw w) := Coding.of_some rfl (fun _ => rfl)
theorem Coding.bars (w : MainWord) : Coding.Statement (.bars w) := Coding.of_some rfl (fun _ => rfl)
theorem Coding.barq (w : MainWord) : Coding.Statement (.barq w) := Coding.of_some rfl (fun _ => rfl)
theorem Coding.nop (w : MainWord) : Coding.Statement (.nop w) := Coding.of_some rfl (fun _ => rfl)
theorem Coding.bra (w : MainWord) : Coding.Statement (.bra w) := Coding.of_some rfl (fun _ => rfl)
theorem Coding.brx (w : MainWord) : Coding.Statement (.brx w) := Coding.of_some rfl (fun _ => rfl)
theorem Coding.call (w : MainWord) : Coding.Statement (.call w) := Coding.of_some rfl (fun _ => rfl)
theorem Coding.callx (w : MainWord) : Coding.Statement (.callx w) := Coding.of_some rfl (fun _ => rfl)
theorem Coding.ret (w : MainWord) : Coding.Statement (.ret w) := Coding.of_some rfl (fun _ => rfl)
theorem Coding.exit (w : MainWord) : Coding.Statement (.exit w) := Coding.of_some rfl (fun _ => rfl)
theorem Coding.yield (w : MainWord) : Coding.Statement (.yield w) := Coding.of_some rfl (fun _ => rfl)
theorem Coding.loop (w : MainWord) : Coding.Statement (.loop w) := Coding.of_some rfl (fun _ => rfl)
theorem Coding.trap (w : MainWord) : Coding.Statement (.trap w) := Coding.of_some rfl (fun _ => rfl)
theorem Coding.sysc (w : MainWord) : Coding.Statement (.sysc w) := Coding.of_some rfl (fun _ => rfl)
theorem Coding.eret (w : MainWord) : Coding.Statement (.eret w) := Coding.of_some rfl (fun _ => rfl)
theorem Coding.mfcr (w : MainWord) : Coding.Statement (.mfcr w) := Coding.of_some rfl (fun _ => rfl)
theorem Coding.mtcr (w : MainWord) : Coding.Statement (.mtcr w) := Coding.of_some rfl (fun _ => rfl)
theorem Coding.tlbi (w : MainWord) : Coding.Statement (.tlbi w) := Coding.of_some rfl (fun _ => rfl)
theorem Coding.waite (w : MainWord) : Coding.Statement (.waite w) := Coding.of_some rfl (fun _ => rfl)
theorem Coding.lnch (w : MainWord) : Coding.Statement (.lnch w) := Coding.of_some rfl (fun _ => rfl)
theorem Coding.engsGo (w : MainWord) : Coding.Statement (.engsGo w) := Coding.of_some rfl (fun h => by
  have h1 : w.m.toNat = 0 := by simpa [Instr.wf, mIs] using h
  change engsOf w = _
  simp [engsOf, h1])
theorem Coding.engsSt (w : MainWord) : Coding.Statement (.engsSt w) := Coding.of_some rfl (fun h => by
  have h1 : w.m.toNat = 1 := by simpa [Instr.wf, mIs] using h
  change engsOf w = _
  simp [engsOf, h1])
theorem Coding.engsCmd (w : MainWord) : Coding.Statement (.engsCmd w) := Coding.of_some rfl (fun h => by
  have h1 : w.m.toNat = 2 := by simpa [Instr.wf, mIs] using h
  change engsOf w = _
  simp [engsOf, h1])
theorem Coding.engsSig (w : MainWord) : Coding.Statement (.engsSig w) := Coding.of_some rfl (fun h => by
  have h1 : w.m.toNat = 3 := by simpa [Instr.wf, mIs] using h
  change engsOf w = _
  simp [engsOf, h1])
theorem Coding.engr (w : MainWord) : Coding.Statement (.engr w) := Coding.of_some rfl (fun _ => rfl)
theorem Coding.savev (w : MainWord) : Coding.Statement (.savev w) := Coding.of_some rfl (fun h => by
  simp only [Instr.wf, imageFits, decide_eq_true_eq] at h
  have h3 : w.m.toNat = 0 ∨ w.m.toNat = 1 ∨ w.m.toNat = 2 := by omega
  change savevOf w = _
  rcases h3 with h3 | h3 | h3 <;> simp [savevOf, h3])
theorem Coding.savevState (w : MainWord) : Coding.Statement (.savevState w) := Coding.of_some rfl (fun h => by
  have h1 : w.m.toNat = 3 := by simpa [Instr.wf, mIs] using h
  change savevOf w = _
  simp [savevOf, h1])
theorem Coding.restv (w : MainWord) : Coding.Statement (.restv w) := Coding.of_some rfl (fun h => by
  simp only [Instr.wf, imageFits, decide_eq_true_eq] at h
  have h3 : w.m.toNat = 0 ∨ w.m.toNat = 1 ∨ w.m.toNat = 2 := by omega
  change restvOf w = _
  rcases h3 with h3 | h3 | h3 <;> simp [restvOf, h3])
theorem Coding.restvState (w : MainWord) : Coding.Statement (.restvState w) := Coding.of_some rfl (fun h => by
  have h1 : w.m.toNat = 3 := by simpa [Instr.wf, mIs] using h
  change restvOf w = _
  simp [restvOf, h1])
theorem Coding.name (w : MainWord) : Coding.Statement (.name w) := Coding.of_some rfl (fun _ => rfl)
theorem Coding.holdArm (w : MainWord) : Coding.Statement (.holdArm w) := Coding.of_some rfl (fun h => by
  simp [Instr.wf, mEven] at h
  change holdOf w = _
  simp [holdOf, h])
theorem Coding.holdOff (w : MainWord) : Coding.Statement (.holdOff w) := Coding.of_some rfl (fun h => by
  simp [Instr.wf, mEven] at h
  change holdOf w = _
  simp [holdOf, h])
theorem Coding.rstv (w : MainWord) : Coding.Statement (.rstv w) := Coding.of_some rfl (fun _ => rfl)
theorem Coding.harvOn (w : MainWord) : Coding.Statement (.harvOn w) := Coding.of_some rfl (fun h => by
  simp [Instr.wf, mEven] at h
  change harvOf w = _
  simp [harvOf, h])
theorem Coding.harvOff (w : MainWord) : Coding.Statement (.harvOff w) := Coding.of_some rfl (fun h => by
  simp [Instr.wf, mEven] at h
  change harvOf w = _
  simp [harvOf, h])
theorem Coding.hchkLost (w : MainWord) : Coding.Statement (.hchkLost w) := Coding.of_some rfl (fun h => by
  have h1 : w.m.toNat = 0 := by simpa [Instr.wf, mIs] using h
  change hchkOf w = _
  simp [hchkOf, h1])
theorem Coding.hchkLostc (w : MainWord) : Coding.Statement (.hchkLostc w) := Coding.of_some rfl (fun h => by
  have h1 : w.m.toNat = 1 := by simpa [Instr.wf, mIs] using h
  change hchkOf w = _
  simp [hchkOf, h1])
theorem Coding.hchkRevs (w : MainWord) : Coding.Statement (.hchkRevs w) := Coding.of_some rfl (fun h => by
  have h1 : w.m.toNat = 2 := by simpa [Instr.wf, mIs] using h
  change hchkOf w = _
  simp [hchkOf, h1])
theorem Coding.push (lit : BitVec 13) : Coding.Statement (.push lit) := Coding.of_none rfl
theorem Coding.ext (lit : BitVec 13) : Coding.Statement (.ext lit) := Coding.of_none rfl
theorem Coding.getl (reg : Fin 3) : Coding.Statement (.getl reg) := Coding.of_none rfl
theorem Coding.setl (reg : Fin 3) : Coding.Statement (.setl reg) := Coding.of_none rfl
theorem Coding.engLoop (reg : Fin 3) : Coding.Statement (.engLoop reg) := Coding.of_none rfl
theorem Coding.endl (reg : Fin 3) : Coding.Statement (.endl reg) := Coding.of_none rfl
theorem Coding.tkpop (queue : BitVec 4) : Coding.Statement (.tkpop queue) := Coding.of_none rfl
theorem Coding.tkpsh (queue : BitVec 4) : Coding.Statement (.tkpsh queue) := Coding.of_none rfl
theorem Coding.tktst (queue : BitVec 4) : Coding.Statement (.tktst queue) := Coding.of_none rfl
theorem Coding.cpyin (pop push : BitVec 4) : Coding.Statement (.cpyin pop push) := Coding.of_none rfl
theorem Coding.cpyout (pop push : BitVec 4) : Coding.Statement (.cpyout pop push) := Coding.of_none rfl
theorem Coding.gath (pop push : BitVec 4) : Coding.Statement (.gath pop push) := Coding.of_none rfl
theorem Coding.scat (pop push : BitVec 4) : Coding.Statement (.scat pop push) := Coding.of_none rfl
theorem Coding.mdfil (pop push : BitVec 4) : Coding.Statement (.mdfil pop push) := Coding.of_none rfl
theorem Coding.wpre (pop push : BitVec 4) : Coding.Statement (.wpre pop push) := Coding.of_none rfl
theorem Coding.wswp (pop push : BitVec 4) : Coding.Statement (.wswp pop push) := Coding.of_none rfl
theorem Coding.strm (pop push : BitVec 4) : Coding.Statement (.strm pop push) := Coding.of_none rfl
theorem Coding.strms (pop push : BitVec 4) : Coding.Statement (.strms pop push) := Coding.of_none rfl
theorem Coding.drn (pop push : BitVec 4) : Coding.Statement (.drn pop push) := Coding.of_none rfl
theorem Coding.dclr (pop push : BitVec 4) : Coding.Statement (.dclr pop push) := Coding.of_none rfl
theorem Coding.kscl (pop push : BitVec 4) : Coding.Statement (.kscl pop push) := Coding.of_none rfl
theorem Coding.kpack (pop push : BitVec 4) : Coding.Statement (.kpack pop push) := Coding.of_none rfl
theorem Coding.kunpk (pop push : BitVec 4) : Coding.Statement (.kunpk pop push) := Coding.of_none rfl
theorem Coding.agset (gen : BitVec 3) : Coding.Statement (.agset gen) := Coding.of_none rfl
theorem Coding.agstr (gen : BitVec 3) : Coding.Statement (.agstr gen) := Coding.of_none rfl
theorem Coding.agwrap (gen : BitVec 3) : Coding.Statement (.agwrap gen) := Coding.of_none rfl
theorem Coding.agrd (gen : BitVec 3) : Coding.Statement (.agrd gen) := Coding.of_none rfl
theorem Coding.codeLineFill (unit : CoreUnit) (asn : Half) (va : Dword) : Coding.Statement (.codeLineFill unit asn va) := Coding.of_none rfl
theorem Coding.groupSlotFree (team gid : Nat) : Coding.Statement (.groupSlotFree team gid) := Coding.of_none rfl
theorem Coding.completionRecordFault (hub : HubId) (va : Dword) (cause status : Byte) : Coding.Statement (.completionRecordFault hub va cause status) := Coding.of_none rfl
theorem Coding.bundleValidation (hub : HubId) (queue : Nat) : Coding.Statement (.bundleValidation hub queue) := Coding.of_none rfl
theorem Coding.dependenceSignalRead (hub : HubId) (queue signal : Nat) : Coding.Statement (.dependenceSignalRead hub queue signal) := Coding.of_none rfl
theorem Coding.placementConsideration (hub : HubId) : Coding.Statement (.placementConsideration hub) := Coding.of_none rfl
theorem Coding.coreReservation (team : Nat) : Coding.Statement (.coreReservation team) := Coding.of_none rfl
theorem Coding.rangeClearDone (team : Nat) : Coding.Statement (.rangeClearDone team) := Coding.of_none rfl
theorem Coding.withdrawal (team : Nat) : Coding.Statement (.withdrawal team) := Coding.of_none rfl
theorem Coding.preemption (team gid : Nat) : Coding.Statement (.preemption team gid) := Coding.of_none rfl
theorem Coding.saveBudgetExpiry (team gid : Nat) : Coding.Statement (.saveBudgetExpiry team gid) := Coding.of_none rfl
theorem Coding.teamSaveComplete (team : Nat) : Coding.Statement (.teamSaveComplete team) := Coding.of_none rfl
theorem Coding.revocationComplete (core : CoreId) : Coding.Statement (.revocationComplete core) := Coding.of_none rfl
theorem Coding.harvestRevoke (team gid : Nat) : Coding.Statement (.harvestRevoke team gid) := Coding.of_none rfl
theorem Coding.entryWake (team gid : Nat) : Coding.Statement (.entryWake team gid) := Coding.of_none rfl
theorem Coding.waiteRecheck (team gid : Nat) : Coding.Statement (.waiteRecheck team gid) := Coding.of_none rfl
theorem Coding.reservationExpiry (hub : HubId) (index : Nat) : Coding.Statement (.reservationExpiry hub index) := Coding.of_none rfl
theorem Coding.storeCombiningDrain (core : CoreId) (index : Nat) : Coding.Statement (.storeCombiningDrain core index) := Coding.of_none rfl
theorem Coding.plainRead (txn : Nat) : Coding.Statement (.plainRead txn) := Coding.of_none rfl
theorem Coding.leasedRead (txn : Nat) : Coding.Statement (.leasedRead txn) := Coding.of_none rfl
theorem Coding.homeWrite (txn : Nat) : Coding.Statement (.homeWrite txn) := Coding.of_none rfl
theorem Coding.refUpdate (hub : HubId) (ref : Dword) : Coding.Statement (.refUpdate hub ref) := Coding.of_none rfl
theorem Coding.guardAnswer (hub : HubId) : Coding.Statement (.guardAnswer hub) := Coding.of_none rfl
theorem Coding.leaseFenceTimeout (hub : HubId) : Coding.Statement (.leaseFenceTimeout hub) := Coding.of_none rfl
theorem Coding.leaseCut (hub : HubId) : Coding.Statement (.leaseCut hub) := Coding.of_none rfl
theorem Coding.releasePublished (hub : HubId) (line : Nat) : Coding.Statement (.releasePublished hub line) := Coding.of_none rfl
theorem Coding.persistBufferDrain (hub : HubId) (index : Nat) : Coding.Statement (.persistBufferDrain hub index) := Coding.of_none rfl
theorem Coding.pageRequest (source : StopSource) : Coding.Statement (.pageRequest source) := Coding.of_none rfl
theorem Coding.prqcResume (hub : HubId) (tag : Half) : Coding.Statement (.prqcResume hub tag) := Coding.of_none rfl
theorem Coding.prqcDecline (hub : HubId) (tag : Half) : Coding.Statement (.prqcDecline hub tag) := Coding.of_none rfl
theorem Coding.cres (team : Nat) : Coding.Statement (.cres team) := Coding.of_none rfl
theorem Coding.bankFormatWrite (team : Nat) (high : Bool) (value : Dword) : Coding.Statement (.bankFormatWrite team high value) := Coding.of_none rfl
theorem Coding.chctlIso (hub : HubId) (pos : Nat) : Coding.Statement (.chctlIso hub pos) := Coding.of_none rfl
theorem Coding.chctlRen (hub : HubId) (pos : Nat) : Coding.Statement (.chctlRen hub pos) := Coding.of_none rfl
theorem Coding.registerWrite (hub : HubId) (offset : Nat) (value : Dword) : Coding.Statement (.registerWrite hub offset value) := Coding.of_none rfl
theorem Coding.enumerationComplete (hub : HubId) (pos : Nat) (table : List Byte) : Coding.Statement (.enumerationComplete hub pos table) := Coding.of_none rfl
theorem Coding.eventDelivery (hub : HubId) : Coding.Statement (.eventDelivery hub) := Coding.of_none rfl
theorem Coding.copyLineLanded (team copy : Nat) : Coding.Statement (.copyLineLanded team copy) := Coding.of_none rfl
theorem Coding.copyCompletion (team copy : Nat) : Coding.Statement (.copyCompletion team copy) := Coding.of_none rfl
theorem Coding.copyTranslationFault (team copy : Nat) : Coding.Statement (.copyTranslationFault team copy) := Coding.of_none rfl
theorem Coding.copyWriteFailure (team copy : Nat) : Coding.Statement (.copyWriteFailure team copy) := Coding.of_none rfl
theorem Coding.engineOpStart (team : Nat) (engine : EngineKind) : Coding.Statement (.engineOpStart team engine) := Coding.of_none rfl
theorem Coding.engineOpFinish (team : Nat) (engine : EngineKind) : Coding.Statement (.engineOpFinish team engine) := Coding.of_none rfl
theorem Coding.engineTranslationFault (team : Nat) : Coding.Statement (.engineTranslationFault team) := Coding.of_none rfl
theorem Coding.enginePoisonAtStore (team : Nat) : Coding.Statement (.enginePoisonAtStore team) := Coding.of_none rfl
theorem Coding.engineStop (team : Nat) (engine : EngineKind) : Coding.Statement (.engineStop team engine) := Coding.of_none rfl
theorem Coding.engineFaultReport (team : Nat) : Coding.Statement (.engineFaultReport team) := Coding.of_none rfl
theorem Coding.clusterFreezeDone (team : Nat) : Coding.Statement (.clusterFreezeDone team) := Coding.of_none rfl
theorem Coding.groupPatrolExpiry (team gid : Nat) : Coding.Statement (.groupPatrolExpiry team gid) := Coding.of_none rfl
theorem Coding.clusterPatrolExpiry (team : Nat) : Coding.Statement (.clusterPatrolExpiry team) := Coding.of_none rfl
theorem Coding.queuePatrolExpiry (hub : HubId) (queue : Nat) : Coding.Statement (.queuePatrolExpiry hub queue) := Coding.of_none rfl
theorem Coding.mailArrival (mail : Nat) : Coding.Statement (.mailArrival mail) := Coding.of_none rfl
theorem Coding.mailForward (mail : Nat) : Coding.Statement (.mailForward mail) := Coding.of_none rfl
theorem Coding.mailAck (mail : Nat) : Coding.Statement (.mailAck mail) := Coding.of_none rfl
theorem Coding.mailUndeliverable (team gid : Nat) : Coding.Statement (.mailUndeliverable team gid) := Coding.of_none rfl
theorem Coding.planeRemap (hub : HubId) (plane : Nat) : Coding.Statement (.planeRemap hub plane) := Coding.of_none rfl
theorem Coding.transactionTimeout (txn : Nat) : Coding.Statement (.transactionTimeout txn) := Coding.of_none rfl
theorem Coding.membershipTimeout (package : Nat) : Coding.Statement (.membershipTimeout package) := Coding.of_none rfl
theorem Coding.recoveryLimit (package : Nat) : Coding.Statement (.recoveryLimit package) := Coding.of_none rfl
theorem Coding.transactionResponse (txn : Nat) : Coding.Statement (.transactionResponse txn) := Coding.of_none rfl
theorem Coding.invalidationAcknowledgement (home : HubId) (peer line : Nat) : Coding.Statement (.invalidationAcknowledgement home peer line) := Coding.of_none rfl
theorem Coding.teamRestoreComplete (team : Nat) : Coding.Statement (.teamRestoreComplete team) := Coding.of_none rfl
theorem Coding.rollbackComplete (team : Nat) : Coding.Statement (.rollbackComplete team) := Coding.of_none rfl
theorem Coding.dup : Coding.Statement (.dup) := Coding.of_none rfl
theorem Coding.drop : Coding.Statement (.drop) := Coding.of_none rfl
theorem Coding.swap : Coding.Statement (.swap) := Coding.of_none rfl
theorem Coding.over : Coding.Statement (.over) := Coding.of_none rfl
theorem Coding.add : Coding.Statement (.add) := Coding.of_none rfl
theorem Coding.sub : Coding.Statement (.sub) := Coding.of_none rfl
theorem Coding.mul : Coding.Statement (.mul) := Coding.of_none rfl
theorem Coding.engAnd : Coding.Statement (.engAnd) := Coding.of_none rfl
theorem Coding.engOr : Coding.Statement (.engOr) := Coding.of_none rfl
theorem Coding.engXor : Coding.Statement (.engXor) := Coding.of_none rfl
theorem Coding.engShl : Coding.Statement (.engShl) := Coding.of_none rfl
theorem Coding.engShr : Coding.Statement (.engShr) := Coding.of_none rfl
theorem Coding.jmp : Coding.Statement (.jmp) := Coding.of_none rfl
theorem Coding.jz : Coding.Statement (.jz) := Coding.of_none rfl
theorem Coding.halt : Coding.Statement (.halt) := Coding.of_none rfl
theorem Coding.waitc : Coding.Statement (.waitc) := Coding.of_none rfl
theorem Coding.sigc : Coding.Statement (.sigc) := Coding.of_none rfl
theorem Coding.engineIllegalWord : Coding.Statement (.engineIllegalWord) := Coding.of_none rfl
theorem Coding.branchIntoLiteral : Coding.Statement (.branchIntoLiteral) := Coding.of_none rfl
theorem Coding.refBroadcast : Coding.Statement (.refBroadcast) := Coding.of_none rfl
theorem Coding.powerLoss : Coding.Statement (.powerLoss) := Coding.of_none rfl
theorem Coding.bridgeFailure : Coding.Statement (.bridgeFailure) := Coding.of_none rfl
theorem Coding.membershipBeat : Coding.Statement (.membershipBeat) := Coding.of_none rfl
theorem Coding.powerOnReset : Coding.Statement (.powerOnReset) := Coding.of_none rfl
theorem Coding.doorbell (hub : HubId) (queue : Nat) : Coding.Statement (.doorbell hub queue) := Coding.of_none rfl
theorem Coding.peerRead (home : HubId) (peer : Nat) (line : PageLine) : Coding.Statement (.peerRead home peer line) := Coding.of_none rfl
theorem Coding.readExclusive (home : HubId) (peer line : Nat) : Coding.Statement (.readExclusive home peer line) := Coding.of_none rfl
theorem Coding.upgrade (home : HubId) (peer line : Nat) : Coding.Statement (.upgrade home peer line) := Coding.of_none rfl
theorem Coding.writeBack (home : HubId) (peer line : Nat) : Coding.Statement (.writeBack home peer line) := Coding.of_none rfl
theorem Coding.ioCoherentRead (home : HubId) (line : Nat) : Coding.Statement (.ioCoherentRead home line) := Coding.of_none rfl
theorem Coding.ioCoherentWrite (home : HubId) (line : PageLine) (bytes : List (Nat × Byte)) :
    Coding.Statement (.ioCoherentWrite home line bytes) := Coding.of_none rfl
theorem Coding.chipletFatalError (hub : HubId) (pos : Nat) : Coding.Statement (.chipletFatalError hub pos) := Coding.of_none rfl
theorem Coding.ucieLinkFailure (hub : HubId) (pos : Nat) : Coding.Statement (.ucieLinkFailure hub pos) := Coding.of_none rfl
theorem Coding.engineWriteRefused (team : Nat) (cause : Byte) : Coding.Statement (.engineWriteRefused team cause) := Coding.of_none rfl
theorem Coding.correctedError (hub : HubId) : Coding.Statement (.correctedError hub) := Coding.of_none rfl
theorem Coding.uncorrectableError (target : ErrorTarget) : Coding.Statement (.uncorrectableError target) := Coding.of_none rfl
theorem Coding.linkTimeout (hub : HubId) (plane : Nat) : Coding.Statement (.linkTimeout hub plane) := Coding.of_none rfl
theorem Coding.planeUp (hub : HubId) (plane : Nat) : Coding.Statement (.planeUp hub plane) := Coding.of_none rfl
theorem Coding.switchTimeout (hub : HubId) (plane package : Nat) : Coding.Statement (.switchTimeout hub plane package) := Coding.of_none rfl
theorem Coding.beatReceived (package : Nat) (recovering : Bool) : Coding.Statement (.beatReceived package recovering) := Coding.of_none rfl
theorem Coding.packageRejoin (package : Nat) : Coding.Statement (.packageRejoin package) := Coding.of_none rfl
theorem Coding.frameAuthFailure (hub : HubId) (plane : Nat) : Coding.Statement (.frameAuthFailure hub plane) := Coding.of_none rfl
theorem Coding.rekeyStart (hub : HubId) (plane : Nat) : Coding.Statement (.rekeyStart hub plane) := Coding.of_none rfl
theorem Coding.rekeyComplete (hub : HubId) (plane : Nat) : Coding.Statement (.rekeyComplete hub plane) := Coding.of_none rfl
theorem Coding.portStop (hub : HubId) (plane : Nat) : Coding.Statement (.portStop hub plane) := Coding.of_none rfl
theorem Coding.accessTableWrite (target : AccessTarget) (index : Nat) (entry : AccessEntry) : Coding.Statement (.accessTableWrite target index entry) := Coding.of_none rfl
theorem Coding.hostAccess (window write : Bool) (address : Nat) (data : List Byte) : Coding.Statement (.hostAccess window write address data) := Coding.of_none rfl
theorem Coding.supplySag (hub : HubId) (pos : Nat) : Coding.Statement (.supplySag hub pos) := Coding.of_none rfl
theorem Coding.sagRecovery (hub : HubId) (pos : Nat) : Coding.Statement (.sagRecovery hub pos) := Coding.of_none rfl
theorem Coding.powerLimitStep (watts : Nat) : Coding.Statement (.powerLimitStep watts) := Coding.of_none rfl
theorem Coding.energyStoreDecline (hub : HubId) (cap : Nat) : Coding.Statement (.energyStoreDecline hub cap) := Coding.of_none rfl

end Sys2Proof.Laws
end

