-- ==== Sys2Proof/Tests/Slice0.lean ====
section
/-! SUPPORT. The author's own tests: ill-formed terms that the checks refuse, words written out from the encodings of the
spec, one step on small states with results worked out from the rules, and for the statements states that meet their
hypotheses. -/

namespace Sys2Proof.Tests

/-! The theorems of this file are checked one after the other. -/
set_option Elab.async false
open Sys2Proof Sys2Proof.Machine

/-! ## Ill-formed terms -/

/-- A main word with all fields zero. -/
def mw : MainWord := { lits := .none, neg := false, pred := 0, d := 0, a := 0, b := 0, c := 0, m := 0, x := 0 }

/-- R54: a PMOV form carries its own M. -/
theorem test_wf_pmov : (Instr.pmovFromPred { mw with m := 1 }).wf = false ∧ (Instr.pmovToPred mw).wf = false ∧
    (Instr.pmovGet mw).wf = false ∧ (Instr.pmovSet mw).wf = false := by decide
/-- R126: so does a PUBL form. -/
theorem test_wf_publ : (Instr.publDecl { mw with m := 1 }).wf = false ∧ (Instr.publSwap mw).wf = false ∧
    (Instr.publFree mw).wf = false := by decide
/-- R183 to R192: and the forms of ENGS, SAVEV, RESTV, HOLD, HARV and HCHK. -/
theorem test_wf_system : (Instr.engsGo { mw with m := 1 }).wf = false ∧ (Instr.engsSt mw).wf = false ∧
    (Instr.engsCmd mw).wf = false ∧ (Instr.engsSig mw).wf = false ∧ (Instr.savev { mw with m := 3 }).wf = false ∧
    (Instr.savevState mw).wf = false ∧ (Instr.restv { mw with m := 3 }).wf = false ∧ (Instr.restvState mw).wf = false ∧
    (Instr.holdArm { mw with m := 1 }).wf = false ∧ (Instr.holdOff mw).wf = false ∧ (Instr.harvOn { mw with m := 1 }).wf = false ∧
    (Instr.harvOff mw).wf = false ∧ (Instr.hchkLost { mw with m := 1 }).wf = false ∧ (Instr.hchkLostc mw).wf = false ∧
    (Instr.hchkRevs mw).wf = false := by decide
/-- R26, R163: a token queue number has four bits. -/
theorem test_wf_queue : (Instr.tkpop 16).wf = false ∧ (Instr.tkpsh 16).wf = false ∧ (Instr.tktst 16).wf = false ∧
    (Instr.tktst 15).wf = true := by decide
/-- R235: a hub has 64 queues. -/
theorem test_wf_hub_queue : hubQueueFits 64 = false ∧ hubQueueFits 63 = true := by decide
/-- R1, R421, R188: ring positions, planes and packages. -/
theorem test_wf_positions : posFits 8 = true ∧ posFits 9 = false ∧ planeFits 8 = false ∧ planeFits 7 = true ∧
    packageFits 1024 = false ∧ packageFits 1023 = true := by decide

/-! ## Decoding -/

/-- A main word of two words as the hardware stores it. -/
def two (w0 w1 : Word) : List Byte := bytesOfWord w0 ++ bytesOfWord w1

/-- R313: ICMP.n32.eq p1, ix0, zero. OP 0x020, D 1, A 0xE4, B 0xE0, C 0, M 0. -/
theorem test_decode_icmp : decodeMain (two 0xE4010080 0x000000E0) = .instr (.icmp { mw with d := 1, a := 0xE4, b := 0xE0 }) := by
  decide +kernel

/-- Fields that differ from each other: G 9, D 0x12, A 0x34, B 0x56, C 0x78, X 0x9AB (R10). -/
def fw (m : Nat) : MainWord := { lits := .none, neg := true, pred := 1, d := 0x12, a := 0x34, b := 0x56, c := 0x78, m := BitVec.ofNat 4 m, x := 0x9AB }

/-- Each pair of words decodes to the instruction beside it. -/
def decodesAll (rs : List (Word × Word × Instr)) : Bool := rs.all (fun r => decide (decodeMain (two r.1 r.2.1) = .instr r.2.2))

/-! The opcodes of R25 with those fields, written out by R10. -/

theorem test_decode_integer : decodesAll [
   (0x34129004, 0x9AB57856, .iadd (fw 5)), (0x34129008, 0x9AB57856, .isub (fw 5)),
   (0x3412900C, 0x9AB57856, .imul (fw 5)), (0x34129010, 0x9AB57856, .imulh (fw 5)),
   (0x34129014, 0x9AB57856, .imad (fw 5)), (0x34129018, 0x9AB57856, .idiv (fw 5)),
   (0x3412901C, 0x9AB57856, .irem (fw 5)), (0x34129020, 0x9AB57856, .imin (fw 5)),
   (0x34129024, 0x9AB57856, .imax (fw 5)), (0x34129028, 0x9AB57856, .iabs (fw 5)),
   (0x34129040, 0x9AB57856, .and (fw 5)), (0x34129044, 0x9AB57856, .or (fw 5)),
   (0x34129048, 0x9AB57856, .xor (fw 5)), (0x3412904C, 0x9AB57856, .andn (fw 5)),
   (0x34129050, 0x9AB57856, .bmix (fw 5)), (0x34129054, 0x9AB57856, .shl (fw 5)),
   (0x34129058, 0x9AB57856, .shr (fw 5)), (0x3412905C, 0x9AB57856, .sar (fw 5)),
   (0x34129060, 0x9AB57856, .rotl (fw 5)), (0x34129064, 0x9AB57856, .popc (fw 5)),
   (0x34129068, 0x9AB57856, .clz (fw 5)), (0x3412906C, 0x9AB57856, .ctz (fw 5)),
   (0x34129070, 0x9AB57856, .brev (fw 5)), (0x34129074, 0x9AB57856, .bfx (fw 5)),
   (0x34129078, 0x9AB57856, .bfi (fw 5)), (0x34129080, 0x9AB57856, .icmp (fw 5)),
   (0x34129084, 0x9AB57856, .plog (fw 5)), (0x34129088, 0x9AB57856, .sel (fw 5)),
   (0x3412908C, 0x9AB57856, .mov (fw 5)), (0x34129090, 0x9AB07856, .pmovFromPred (fw 0)),
   (0x34129090, 0x9AB17856, .pmovToPred (fw 1)), (0x34129090, 0x9AB27856, .pmovGet (fw 2)),
   (0x34129090, 0x9AB37856, .pmovSet (fw 3)), (0x34129094, 0x9AB57856, .lea (fw 5))] = true := by decide +kernel

theorem test_decode_float : decodesAll [
   (0x34129200, 0x9AB57856, .fadd (fw 5)), (0x34129204, 0x9AB57856, .fsub (fw 5)),
   (0x34129208, 0x9AB57856, .fmul (fw 5)), (0x3412920C, 0x9AB57856, .ffma (fw 5)),
   (0x34129210, 0x9AB57856, .fmin (fw 5)), (0x34129214, 0x9AB57856, .fmax (fw 5)),
   (0x34129218, 0x9AB57856, .fabs (fw 5)), (0x3412921C, 0x9AB57856, .fneg (fw 5)),
   (0x34129220, 0x9AB57856, .fdiv (fw 5)), (0x34129224, 0x9AB57856, .fsqrt (fw 5)),
   (0x34129228, 0x9AB57856, .fcmp (fw 5)), (0x3412922C, 0x9AB57856, .fclass (fw 5)),
   (0x34129230, 0x9AB57856, .fdot2 (fw 5)), (0x34129234, 0x9AB57856, .fdot4 (fw 5)),
   (0x34129400, 0x9AB57856, .cvt (fw 5)), (0x34129404, 0x9AB57856, .cvts (fw 5)),
   (0x34129408, 0x9AB57856, .frnd (fw 5)), (0x34129440, 0x9AB57856, .frcp (fw 5)),
   (0x34129444, 0x9AB57856, .frsq (fw 5)), (0x34129448, 0x9AB57856, .fexp2 (fw 5)),
   (0x3412944C, 0x9AB57856, .flog2 (fw 5)), (0x34129450, 0x9AB57856, .fsin (fw 5)),
   (0x34129454, 0x9AB57856, .fcos (fw 5)), (0x34129458, 0x9AB57856, .ftanh (fw 5))] = true := by decide +kernel

theorem test_decode_cross_lane : decodesAll [
   (0x34129480, 0x9AB57856, .qscl (fw 5)), (0x34129484, 0x9AB57856, .qpack (fw 5)),
   (0x34129488, 0x9AB57856, .qunpk (fw 5)), (0x3412948C, 0x9AB57856, .shape (fw 5)),
   (0x34129600, 0x9AB57856, .prdx (fw 5)), (0x34129604, 0x9AB57856, .ballot (fw 5)),
   (0x34129608, 0x9AB57856, .lxch (fw 5)), (0x3412960C, 0x9AB57856, .lxop (fw 5)),
   (0x34129610, 0x9AB57856, .scan (fw 5)), (0x34129614, 0x9AB57856, .part (fw 5)),
   (0x34129618, 0x9AB57856, .reord (fw 5))] = true := by decide +kernel

theorem test_decode_tile : decodesAll [
   (0x34129800, 0x9AB57856, .tmma (fw 5)), (0x34129804, 0x9AB57856, .tzero (fw 5)),
   (0x34129808, 0x9AB57856, .tld (fw 5)), (0x3412980C, 0x9AB57856, .tdrn (fw 5)),
   (0x34129810, 0x9AB57856, .tredr (fw 5)), (0x34129814, 0x9AB57856, .tredc (fw 5)),
   (0x34129818, 0x9AB57856, .tbcr (fw 5)), (0x3412981C, 0x9AB57856, .tbcc (fw 5)),
   (0x34129820, 0x9AB57856, .trot (fw 5)), (0x34129824, 0x9AB57856, .tew (fw 5)),
   (0x34129828, 0x9AB57856, .tget (fw 5)), (0x3412982C, 0x9AB57856, .tset (fw 5))] = true := by decide +kernel

theorem test_decode_memory : decodesAll [
   (0x34129A00, 0x9AB57856, .ld (fw 5)), (0x34129A04, 0x9AB57856, .st (fw 5)),
   (0x34129A08, 0x9AB57856, .pref (fw 5)), (0x34129A0C, 0x9AB57856, .wb (fw 5)),
   (0x34129A10, 0x9AB57856, .inv (fw 5)), (0x34129A14, 0x9AB57856, .iinv (fw 5)),
   (0x34129A18, 0x9AB57856, .ifence (fw 5)), (0x34129A40, 0x9AB57856, .lds (fw 5)),
   (0x34129A44, 0x9AB57856, .sts (fw 5)), (0x34129A48, 0x9AB57856, .ldk (fw 5)),
   (0x34129A4C, 0x9AB57856, .cpy (fw 5)), (0x34129A50, 0x9AB57856, .cpyw (fw 5)),
   (0x34129A54, 0x9AB07856, .publDecl (fw 0)), (0x34129A54, 0x9AB17856, .publSwap (fw 1)),
   (0x34129A54, 0x9AB27856, .publFree (fw 2))] = true := by decide +kernel

theorem test_decode_sync : decodesAll [
   (0x34129C00, 0x9AB57856, .atom (fw 5)), (0x34129C04, 0x9AB57856, .cas (fw 5)),
   (0x34129C08, 0x9AB57856, .ldr (fw 5)), (0x34129C0C, 0x9AB57856, .stc (fw 5)),
   (0x34129C10, 0x9AB57856, .fence (fw 5)), (0x34129C14, 0x9AB57856, .persist (fw 5)),
   (0x34129C40, 0x9AB57856, .bari (fw 5)), (0x34129C44, 0x9AB57856, .bara (fw 5)),
   (0x34129C48, 0x9AB57856, .barw (fw 5)), (0x34129C4C, 0x9AB57856, .bars (fw 5)),
   (0x34129C50, 0x9AB57856, .barq (fw 5))] = true := by decide +kernel

theorem test_decode_control : decodesAll [
   (0x34129D00, 0x9AB57856, .nop (fw 5)), (0x34129D04, 0x9AB57856, .bra (fw 5)),
   (0x34129D08, 0x9AB57856, .brx (fw 5)), (0x34129D0C, 0x9AB57856, .call (fw 5)),
   (0x34129D10, 0x9AB57856, .callx (fw 5)), (0x34129D14, 0x9AB57856, .ret (fw 5)),
   (0x34129D18, 0x9AB57856, .exit (fw 5)), (0x34129D1C, 0x9AB57856, .yield (fw 5)),
   (0x34129D20, 0x9AB57856, .loop (fw 5))] = true := by decide +kernel

theorem test_decode_system : decodesAll [
   (0x34129E00, 0x9AB57856, .trap (fw 5)), (0x34129E04, 0x9AB57856, .sysc (fw 5)),
   (0x34129E08, 0x9AB57856, .eret (fw 5)), (0x34129E0C, 0x9AB57856, .mfcr (fw 5)),
   (0x34129E10, 0x9AB57856, .mtcr (fw 5)), (0x34129E14, 0x9AB57856, .tlbi (fw 5)),
   (0x34129E18, 0x9AB57856, .waite (fw 5)), (0x34129E1C, 0x9AB57856, .lnch (fw 5)),
   (0x34129E20, 0x9AB07856, .engsGo (fw 0)), (0x34129E20, 0x9AB17856, .engsSt (fw 1)),
   (0x34129E20, 0x9AB27856, .engsCmd (fw 2)), (0x34129E20, 0x9AB37856, .engsSig (fw 3)),
   (0x34129E24, 0x9AB57856, .engr (fw 5)), (0x34129E28, 0x9AB27856, .savev (fw 2)),
   (0x34129E28, 0x9AB37856, .savevState (fw 3)), (0x34129E2C, 0x9AB27856, .restv (fw 2)),
   (0x34129E2C, 0x9AB37856, .restvState (fw 3)), (0x34129E30, 0x9AB57856, .name (fw 5)),
   (0x34129E34, 0x9AB67856, .holdArm (fw 6)), (0x34129E34, 0x9AB57856, .holdOff (fw 5)),
   (0x34129E38, 0x9AB57856, .rstv (fw 5)), (0x34129E3C, 0x9AB67856, .harvOn (fw 6)),
   (0x34129E3C, 0x9AB57856, .harvOff (fw 5)), (0x34129E40, 0x9AB07856, .hchkLost (fw 0)),
   (0x34129E40, 0x9AB17856, .hchkLostc (fw 1)), (0x34129E40, 0x9AB27856, .hchkRevs (fw 2))] = true := by decide +kernel

/-- R313, R310: words of the spec's own programs. -/
theorem test_decode_programs : decodesAll [
   (0xFC94008C, 0x00010700, .mov { mw with d := 0x94, a := 0xFC, c := 7, m := 1 }),
   (0xFC8B008C, 0x10910000, .mov { mw with d := 0x8B, a := 0xFC, m := 1, x := 0x109 }),
   (0x88000A04, 0x0004018B, .st { mw with a := 0x88, b := 0x8B, c := 1, m := 4 }),
   (0x88000A0C, 0x0020008C, .wb { mw with a := 0x88, b := 0x8C, x := 2 }),
   (0x88000A14, 0x0010008C, .iinv { mw with a := 0x88, b := 0x8C, x := 1 }),
   (0x89000A04, 0x0114008D, .st { mw with a := 0x89, b := 0x8D, m := 4, x := 0x011 }),
   (0x89990E18, 0x00909897, .waite { mw with d := 0x99, a := 0x89, b := 0x97, c := 0x98, x := 9 }),
   (0x00000A18, 0, .ifence mw), (0x96000D0C, 0x00000A00, .call { mw with a := 0x96, c := 10 })] = true := by decide +kernel

/-- R10, R25: literal words, an illegal length, unassigned opcodes and a reserved M. -/
theorem test_decode_rejects :
    decodeMain (two 0x00000005 0 ++ bytesOfWord 0x12345678) = .instr (.iadd { mw with lits := .one 0x12345678 }) ∧
    decodeMain (two 0x00000006 0 ++ bytesOfWord 0x12345678 ++ bytesOfWord 0x9ABCDEF0) =
      .instr (.iadd { mw with lits := .two 0x12345678 0x9ABCDEF0 }) ∧
    decodeMain (two 0x00000005 0) = .rejected .truncated ∧ decodeMain (two 0x00000007 0) = .rejected .illegalLength ∧
    decodeMain (two 0 0) = .rejected .illegalInstruction ∧ decodeMain (two 0x00000F00 0) = .rejected .illegalInstruction ∧
    decodeMain (two 0x0000002C 0) = .rejected .illegalInstruction ∧
    decodeMain (two 0x00000090 0x00040000) = .rejected .reservedField ∧
    decodeMain (two 0x00000E20 0x00040000) = .rejected .reservedField := by decide +kernel

/-- R27: every engine word with a word written from its class, operation and operand. -/
theorem test_decode_engine :
    ([(.access, 0x1ABC, .push 0x1ABC), (.array, 0x3ABC, .ext 0x1ABC), (.drain, 0x4000, .dup), (.kiln, 0x4100, .drop),
      (.access, 0x4200, .swap), (.access, 0x4300, .over), (.array, 0x4400, .add), (.array, 0x4500, .sub), (.drain, 0x4600, .mul),
      (.kiln, 0x4700, .engAnd), (.access, 0x4800, .engOr), (.access, 0x4900, .engXor), (.access, 0x4A00, .engShl),
      (.access, 0x4B00, .engShr), (.access, 0x4C02, .getl 2), (.access, 0x4D01, .setl 1), (.access, 0x6000, .engLoop 0),
      (.access, 0x6102, .endl 2), (.access, 0x6200, .jmp), (.access, 0x6300, .jz), (.access, 0x6400, .halt),
      (.access, 0x6500, .waitc), (.access, 0x6600, .sigc), (.access, 0x8007, .tkpop 7), (.access, 0x810F, .tkpsh 15),
      (.access, 0x8201, .tktst 1), (.access, 0xA012, .cpyin 1 2), (.access, 0xA112, .cpyout 1 2), (.access, 0xA212, .gath 1 2),
      (.access, 0xA312, .scat 1 2), (.access, 0xA412, .mdfil 1 2), (.array, 0xA012, .wpre 1 2), (.array, 0xA112, .wswp 1 2),
      (.array, 0xA212, .strm 1 2), (.array, 0xA312, .strms 1 2), (.drain, 0xA012, .drn 1 2), (.drain, 0xA112, .dclr 1 2),
      (.kiln, 0xA012, .kscl 1 2), (.kiln, 0xA112, .kpack 1 2), (.kiln, 0xA212, .kunpk 1 2), (.access, 0xC300, .agset 3),
      (.access, 0xCB00, .agstr 3), (.access, 0xD300, .agwrap 3), (.access, 0xDB00, .agrd 3)] : List (EngineKind × Half × Instr)).all
      (fun r => decide (decodeEngine r.1 r.2.1 = .instr r.2.2)) = true := by decide +kernel

/-- R27: engine illegal words. -/
theorem test_decode_engine_illegal :
    ([(.access, 0x4001), (.access, 0x4E00), (.access, 0x4C03), (.access, 0x6003), (.access, 0x6700), (.access, 0x8000),
      (.access, 0x8011), (.access, 0x8301), (.access, 0xA500), (.array, 0xA400), (.drain, 0xA200), (.kiln, 0xA300),
      (.array, 0xC000), (.access, 0xC001), (.access, 0xE000)] : List (EngineKind × Half)).all
      (fun r => decide (decodeEngine r.1 r.2 = .rejected .engineIllegal)) = true := by decide +kernel

/-! ## Small states -/

/-- The boot work item's machine with s registers set, at a level. -/
def scal (level : Level) (regs : List (Nat × Dword)) : State :=
  State.reset.modGroup 0 0 (fun g => { g with
    trap := TrapRegs.clear level, kernelLanes := if level = .kernel then 1 else 0
    regs := regs.foldl (fun r x => r.setS x.1 x.2 false) g.regs })

/-- A general v register by its lanes. -/
def gen (f : Nat → Nat) : VReg := { store := .general ((List.range 64).map (fun l => BitVec.ofNat 32 (f l))), poison := 0 }

/-- A group of the V profile at task level: v0 holds the lane number, v1 twice it plus 1, v2 is uniform 5, v3 affine 10 + 2 l,
v4 to v15 are general zeros. -/
def vgroup : Group :=
  let g := Group.fresh 0 0 0 0 .V 64 (BitVec.allOnes 64) 0x2000 .task
  { g with regs := { g.regs with vregs := [gen id, gen (fun l => 2 * l + 1), { store := .uniform 5, poison := 0 },
      { store := .affine 10 2, poison := 0 }] ++ List.replicate 12 (gen (fun _ => 0)) } }

/-- A vector core, and the empty barrier. -/
def vcore : CoreUnit := .vector { hub := .h0, chiplet := 0, core := 0 }
def bar0 : Barrier := { expected := 0, arrivals := 0, gen := 0, reord := [], arrived := [], copyArrived := false }

/-- A machine with one vector team of one group, 4 KiB of scratchpad, and the first GiB mapped to physical 0x40000000. -/
def vecWith (t : Team → Team) (g : Group) : State :=
  { State.reset with
    mem := Memory.writeCells [] (placedTables .h0 0x1000 0 (decide (g.trap.level = .kernel)))
    teams := [t { Team.boot Flash.factory with
      cls := .vector, groups := [g], desc := { KernelDesc.empty with barriers := 8 }, barriers := List.replicate 48 bar0, pairs := List.replicate 8 none,
      cores := [{ CoreShare.bare vcore 0 with scratch := Scratchpad.clear 4096 }] }] }
def vec : State := vecWith id vgroup
/-- The same with s registers set. -/
def vecS (regs : List (Nat × Dword)) : State :=
  vecWith id { vgroup with regs := regs.foldl (fun r x => r.setS x.1 x.2 false) vgroup.regs }

/-- What a test looks at: the group after, its registers and its trap. -/
def grp (r : Host.Outcome State Fault Refusal) : Option Group :=
  match r with
  | .next s => s.group? 0 0
  | _ => none
def sOf (n : Nat) (r : Host.Outcome State Fault Refusal) : Option Dword := (grp r).map (fun g => (g.regs.s n).value)
def vOf (n : Nat) (ls : List Nat) (r : Host.Outcome State Fault Refusal) : Option (List Nat) :=
  (grp r).map (fun g => ls.map (fun l => ((g.regs.v n).lane l).toNat))
def pOf (n : Nat) (r : Host.Outcome State Fault Refusal) : Option Dword := (grp r).map (fun g => g.regs.p n)
def pcOf (r : Host.Outcome State Fault Refusal) : Option Dword := (grp r).map (fun g => (g.regs.at 0).pc)
def trapOf (r : Host.Outcome State Fault Refusal) : Option (Nat × Dword × Dword × Dword) :=
  (grp r).map (fun g => (g.trap.cause.toNat, g.trap.val, g.trap.val2, g.trap.mask))

/-- Operand codes of s registers and the zero operand (R7). -/
def sr (n : Nat) : Byte := BitVec.ofNat 8 (0x80 + n)
def zr : Byte := 0xE0

/-! ## Results: integer instructions, worked out from R43 to R55 -/

/-- D := s4 of an instruction over s1, s2, s3 with type m. -/
def res3 (i : MainWord → Instr) (m : Nat) (a b c : Dword) (useC : Bool) (x : BitVec 12) : Option Dword :=
  sOf 4 (exec (i { mw with d := sr 4, a := sr 1, b := sr 2, c := if useC then sr 3 else 0, m := BitVec.ofNat 4 m, x := x })
    (scal .task [(1, a), (2, b), (3, c)]))
def res2 (i : MainWord → Instr) (m : Nat) (a b : Dword) : Option Dword := res3 i m a b 0 false 0
def res1 (i : MainWord → Instr) (m : Nat) (a : Dword) : Option Dword :=
  sOf 4 (exec (i { mw with d := sr 4, a := sr 1, m := BitVec.ofNat 4 m }) (scal .task [(1, a)]))

/-- R8, R43, R44: types s32 0, n32 1, s64 2, n64 3, s16 4, n16 5, s8 6, n8 7. -/
theorem test_int_arithmetic :
    res2 .iadd 0 0x7FFFFFFF 1 = some 0xFFFFFFFF80000000 ∧ res2 .isub 7 3 5 = some 0xFE ∧
    res2 .imul 5 0x1234 0x100 = some 0x3400 ∧ res2 .imulh 0 (-2) 3 = some (-1) ∧ res2 .imulh 3 0x8000000000000000 4 = some 2 ∧
    res3 .imad 1 3 5 7 true 0 = some 22 ∧ res2 .imin 6 0xFF 1 = some (-1) ∧ res2 .imax 7 0xFF 1 = some 0xFF ∧
    res1 .iabs 0 0x80000000 = some 0xFFFFFFFF80000000 ∧ res1 .iabs 6 0xFF = some 1 := by decide +kernel
/-- R44: division truncates; by 0 it gives all ones and the dividend; the most negative value by −1 itself. -/
theorem test_int_division :
    res2 .idiv 0 (-7) 2 = some (-3) ∧ res2 .irem 0 (-7) 2 = some (-1) ∧ res2 .idiv 1 9 0 = some 0xFFFFFFFF ∧ res2 .irem 1 9 0 = some 9 ∧
    res2 .idiv 0 0x80000000 0xFFFFFFFF = some 0xFFFFFFFF80000000 ∧ res2 .irem 0 0x80000000 0xFFFFFFFF = some 0 := by decide +kernel
/-- R45 to R48. -/
theorem test_int_bits :
    res2 .and 1 0xF0F0 0xFF00 = some 0xF000 ∧ res2 .or 1 0xF0F0 0xFF00 = some 0xFFF0 ∧ res2 .xor 1 0xF0F0 0xFF00 = some 0x0FF0 ∧
    res2 .andn 1 0xF0F0 0xFF00 = some 0x00F0 ∧ res3 .bmix 1 0xC 0xA 0x9 true 0x0E8 = some 8 ∧ res3 .bmix 1 0xC 0xA 0x9 true 0x022 = some 4 ∧
    res2 .shl 1 1 31 = some 0x80000000 ∧ res2 .shl 1 1 32 = some 0 ∧ res2 .shr 1 0x80000000 31 = some 1 ∧
    res2 .sar 1 0x80000000 4 = some 0xF8000000 ∧ res2 .sar 1 0x80000000 99 = some 0xFFFFFFFF ∧ res2 .rotl 7 0x81 9 = some 3 ∧
    res1 .popc 1 0xF0F = some 8 ∧ res1 .clz 5 1 = some 15 ∧ res1 .ctz 3 0 = some 64 ∧ res1 .brev 7 1 = some 0x80 := by decide +kernel
/-- R49: pos in bits 6:0, len in bits 14:8. -/
theorem test_int_fields :
    res2 .bfx 0 0xF0 0x0404 = some (-1) ∧ res2 .bfx 1 0xF0 0x0404 = some 15 ∧ res2 .bfx 1 0xF0 4 = some 0 ∧
    res3 .bfi 1 0xFFFFFFFF 0x0804 0x5A true 0 = some 0xFFFFF5AF := by decide +kernel
/-- R55: the base plus the index, extended by its type and shifted. -/
theorem test_lea : sOf 4 (exec (.lea { mw with d := sr 4, a := sr 1, b := sr 2, c := 3 }) (scal .task [(1, 0x1000), (2, 0xFFFFFFFF)])) =
    some 0xFF8 := by decide +kernel
/-- R15, R53: MOV.n32 s20, 7 as R310 writes it; -1 at 64 bits. -/
theorem test_mov : sOf 20 (exec (.mov { mw with d := 0x94, a := 0xFC, c := 7, m := 1 }) State.reset) = some 7 ∧
    sOf 20 (exec (.mov { mw with d := 0x94, a := 0xFC, c := 0xFF, m := 2, x := 0xFFF }) State.reset) = some (-1) := by decide +kernel

/-- A vector state with predicates set. -/
def vecP (ps : List (Nat × Dword)) : State :=
  vecWith id { vgroup with regs := { vgroup.regs with preds := (List.range 7).map (fun n => ((ps.find? (fun x => x.1 == n + 1)).map (fun x => x.2)).getD 0) } }

/-- R43, R44: IADD.n32 of v0 and v1 in every lane; the PC moves on by 8. Under a guard the other lanes keep their values (R12). -/
theorem test_vector_form : vOf 4 [0, 1, 63] (exec (.iadd { mw with d := 4, a := 0, b := 1, m := 1 }) vec) = some [1, 4, 190] ∧
    pcOf (exec (.iadd { mw with d := 4, a := 0, b := 1, m := 1 }) vec) = some 0x2008 ∧
    vOf 4 [0, 1, 2] (exec (.iadd { mw with d := 4, a := 0, b := 1, m := 1, pred := 1 }) (vecP [(1, 6)])) = some [0, 4, 7] ∧
    vOf 4 [0, 1, 2] (exec (.iadd { mw with d := 4, a := 0, b := 1, m := 1, pred := 1, neg := true }) (vecP [(1, 6)])) = some [1, 0, 0] := by
  decide +kernel
/-- R41: a general result does not fit v2, which is declared uniform: cause 0x08, register 2, declared 1, result 3. -/
theorem test_shape_violation : trapOf (exec (.iadd { mw with d := 2, a := 0, b := 1, m := 1 }) vec) =
    some (8, 2, 1 + 4 * 3, BitVec.allOnes 64) := by decide +kernel
/-- R50: v0 < 5; combined with p2 by .and. -/
theorem test_icmp : pOf 1 (exec (.icmp { mw with d := 1, a := 0, b := 2, c := 2, m := 1 }) vec) = some 0x1F ∧
    pOf 1 (exec (.icmp { mw with d := 1, a := 0, b := 2, c := 0x4A, m := 1 }) (vecP [(2, 0xF0F)])) = some 0xF ∧
    pOf 0 (exec (.icmp { mw with a := 0, b := 2, c := 2, m := 1 }) vec) = some (BitVec.allOnes 64) := by decide +kernel
/-- R51: p3 := p1 and p2 is table 0xC0 with p0 as third; 0x0F is not pa. -/
theorem test_plog : pOf 3 (exec (.plog { mw with d := 3, a := 1, b := 2, c := 0, x := 0x0C0 }) (vecP [(1, 0xFF), (2, 0xF0F0)])) = some 0xF0 ∧
    pOf 3 (exec (.plog { mw with d := 3, a := 1, b := 2, c := 0, x := 0x00F }) (vecP [(1, 0xFF)])) = some (~~~0xFF) := by decide +kernel
/-- R52: a where p1 is true, b elsewhere. -/
theorem test_sel : vOf 4 [0, 1, 2, 3] (exec (.sel { mw with d := 4, a := 1, b := 2, c := 1, m := 1 }) (vecP [(1, 6)])) =
    some [5, 3, 5, 5] := by decide +kernel
/-- R54: the four forms. -/
theorem test_pmov : vOf 4 [0, 1, 2] (exec (.pmovFromPred { mw with d := 4, a := 1 }) (vecP [(1, 6)])) = some [0, 1, 1] ∧
    pOf 2 (exec (.pmovToPred { mw with d := 2, a := 0, m := 1 }) vec) = some (~~~1) ∧
    vOf 4 [0, 1, 2] (exec (.pmovGet { mw with d := 4, m := 2 }) (vecP [(1, 6), (7, 4)])) = some [1, 3, 131] ∧
    pOf 2 (exec (.pmovSet { mw with a := 0, m := 3 }) vec) = some 0xF0F0F0F0F0F0F0F0 := by decide +kernel

/-! ## Results: floating point, worked out from R76 to R86 -/

/-- R13, R76: f32 with rne is M = 0; rtz 1, rup 2, rdn 3. -/
theorem test_float_arithmetic :
    res2 .fadd 0 0x3FC00000 0x40100000 = some 0x40700000 ∧ res2 .fsub 0 0x3FC00000 0x40100000 = some 0xBF400000 ∧
    res2 .fmul 0 0x3FC00000 0x40100000 = some 0x40580000 ∧ res3 .ffma 0 0x3FC00000 0x40100000 0x3F800000 true 0 = some 0x408C0000 ∧
    res2 .fdiv 0 0x3F800000 0x40400000 = some 0x3EAAAAAB ∧ res2 .fdiv 1 0x3F800000 0x40400000 = some 0x3EAAAAAA ∧
    res1 .fsqrt 0 0x40000000 = some 0x3FB504F3 ∧ res2 .fmin 0 0x3FC00000 0xBF800000 = some 0xBF800000 ∧
    res2 .fmax 0 0x3FC00000 0xBF800000 = some 0x3FC00000 ∧ res1 .fabs 0 0xBF800000 = some 0x3F800000 ∧
    res1 .fneg 0 0x3F800000 = some 0xBF800000 := by decide +kernel
/-- R76, R268: f64 has M = 4, f16 8, bf16 12; overflow of f16 goes to infinity, the quiet NaN comes from inf − inf. -/
theorem test_float_formats :
    res2 .fadd 4 0x3FF0000000000000 0x4000000000000000 = some 0x4008000000000000 ∧ res2 .fadd 8 0x7BFF 0x7BFF = some 0x7C00 ∧
    res2 .fadd 12 0x3F80 0x3F80 = some 0x4000 ∧ res2 .fsub 0 0x7F800000 0x7F800000 = some 0x7FC00000 := by decide +kernel
/-- R79: 1.5 < 2.25; R80: −1 is a −normal, +0 bit 4, a quiet NaN bit 9. -/
theorem test_float_compare :
    pOf 1 (exec (.fcmp { mw with d := 1, a := sr 1, b := sr 2, c := 2 }) (scal .task [(1, 0x3FC00000), (2, 0x40100000)])) = some 1 ∧
    res1 .fclass 0 0xBF800000 = some 2 ∧ res1 .fclass 0 0 = some 0x10 ∧ res1 .fclass 0 0x7FC00000 = some 0x200 := by decide +kernel
/-- R277: 1 / 0 gives infinity and sets the flag of divide-by-zero, bit 1 of FPST. -/
theorem test_float_flags : (grp (exec (.fdiv { mw with d := sr 4, a := sr 1, b := sr 2 }) (scal .task [(1, 0x3F800000)]))).map
    (fun g => ((g.regs.s 4).value, g.regs.fpst)) = some (0x7F800000, 2) := by decide +kernel
/-- R83: 2.5 in f32 to s32 by rne is 2 and by rup 3; f32 1.0 to e4m3 is 0x38; e2m1 code 5 is 3.0. -/
theorem test_cvt :
    res3 (fun w => .cvt { w with b := 0 }) 0 0x40200000 0 0 false 0x010 = some 2 ∧ res3 (fun w => .cvt { w with b := 0 }) 2 0x40200000 0 0 false 0x010 = some 3 ∧
    res3 (fun w => .cvt { w with b := 0 }) 0 0x3F800000 0 0 false 0x004 = some 0x38 ∧
    res3 (fun w => .cvt { w with b := 0 }) 0 5 0 0 false 0x100 = some 0x40400000 := by decide +kernel
/-- R85: 1.25 to s32: the fraction 0.25 is 16384 / 65536, above the draw 16383 and not above 16384. R86: FRND of −0.25 is −0. -/
theorem test_cvts : res3 .cvts 0 0x3FA00000 16383 0 false 0x016 = some 2 ∧ res3 .cvts 0 0x3FA00000 16384 0 false 0x016 = some 1 ∧
    res1 .frnd 0 0xBE800000 = some 0x80000000 := by decide +kernel
/-- R81: c = 1 and the products 1 * 2 and 3 * 4 of f16; four s8 products. -/
theorem test_dot :
    vOf 4 [9] (exec (.fdot2 { mw with d := 4, a := sr 1, b := sr 2, c := sr 3 }) (vecS [(1, 0x42003C00), (2, 0x44004000), (3, 0x3F800000)])) = some [0x41700000] ∧
    vOf 4 [9] (exec (.fdot4 { mw with d := 4, a := sr 1, b := sr 2, c := sr 3, m := 10 }) (vecS [(1, 0xFF020304), (2, 0x01020304), (3, 7)])) = some [35] := by
  decide +kernel
/-- R88: the special cases, which are not free: 1 / 0, 2 ^ 3, log2 8, sin pi, cos 0, tanh 10, rsqrt of −1. -/
theorem test_special :
    vOf 4 [0] (exec (.frcp { mw with d := 4, a := zr }) vec) = some [0x7F800000] ∧
    vOf 4 [0] (exec (.fexp2 { mw with d := 4, a := sr 1 }) (vecS [(1, 0x40400000)])) = some [0x41000000] ∧
    vOf 4 [0] (exec (.flog2 { mw with d := 4, a := sr 1 }) (vecS [(1, 0x41000000)])) = some [0x40400000] ∧
    vOf 4 [0] (exec (.fsin { mw with d := 4, a := sr 1 }) (vecS [(1, 0x3F800000)])) = some [0] ∧
    vOf 4 [0] (exec (.fcos { mw with d := 4, a := zr }) vec) = some [0x3F800000] ∧
    vOf 4 [0] (exec (.ftanh { mw with d := 4, a := sr 1 }) (vecS [(1, 0x41200000)])) = some [0x3F800000] ∧
    vOf 4 [0] (exec (.frsq { mw with d := 4, a := sr 1 }) (vecS [(1, 0xBF800000)])) = some [0x7FC00000] := by decide +kernel

/-! ## Results: quantisation and cross-lane -/

/-- The example of R92: lane L holds (L − 16) / 4 below lane 32, and 0 above. -/
def rampBits : List Nat := [0xC0800000, 0xC0700000, 0xC0600000, 0xC0500000, 0xC0400000, 0xC0300000, 0xC0200000, 0xC0100000,
  0xC0000000, 0xBFE00000, 0xBFC00000, 0xBFA00000, 0xBF800000, 0xBF400000, 0xBF000000, 0xBE800000, 0, 0x3E800000, 0x3F000000,
  0x3F400000, 0x3F800000, 0x3FA00000, 0x3FC00000, 0x3FE00000, 0x40000000, 0x40100000, 0x40200000, 0x40300000, 0x40400000,
  0x40500000, 0x40600000, 0x40700000]
/-- A vector state with registers replaced. -/
def vecV (vs : List (Nat × VReg)) (ss : List (Nat × Dword)) : State :=
  vecWith id { vgroup with regs := vs.foldl (fun r x => { r with vregs := r.vregs.set x.1 x.2 }) (ss.foldl (fun r x => r.setS x.1 x.2 false) vgroup.regs) }
def quant : State := vecV [(4, gen (fun l => rampBits.getD l 0)), (8, gen (fun l => if l < 32 then 0x7F else 0)),
  (9, gen (fun l => [0xCCDDDEEE, 0x89AAABCC, 0x43222100, 0x66555444].getD l 0))] []
/-- R90 to R92: the worked example. -/
theorem test_quant :
    vOf 10 [0, 31, 32] (exec (.qscl { mw with d := 10, a := 4 }) quant) = some [0x7F, 0x7F, 0] ∧
    vOf 10 [0, 1, 2, 3, 4, 63] (exec (.qpack { mw with d := 10, a := 4, b := 8 }) quant) = some [0xCCDDDEEE, 0x89AAABCC, 0x43222100, 0x66555444, 0, 0] ∧
    vOf 10 [19, 2, 26] (exec (.qunpk { mw with d := 10, a := 9, b := 8 }) quant) = some [0x3F800000, 0xC0800000, 0x40000000] := by decide +kernel
/-- R93: v3 is declared affine with base 10 and stride 2. -/
theorem test_shape : sOf 4 (exec (.shape { mw with d := sr 4, a := 3 }) vec) = some 2 ∧ sOf 4 (exec (.shape { mw with d := sr 4, a := 3, m := 1 }) vec) = some 10 ∧
    sOf 4 (exec (.shape { mw with d := sr 4, a := 3, m := 2 }) vec) = some 2 := by decide +kernel
/-- R95: all, any, equal, odd over the active lanes; R96: the masks. -/
theorem test_predicates :
    pOf 2 (exec (.prdx { mw with d := 2, a := 1 }) (vecP [(1, 6)])) = some 0 ∧ pOf 2 (exec (.prdx { mw with d := 2, a := 1, m := 1 }) (vecP [(1, 6)])) = some (-1) ∧
    pOf 2 (exec (.prdx { mw with d := 2, a := 1, m := 2 }) (vecP [(1, 6)])) = some 0 ∧ pOf 2 (exec (.prdx { mw with d := 2, a := 1, m := 3 }) (vecP [(1, 7)])) = some (-1) ∧
    sOf 4 (exec (.ballot { mw with d := sr 4, a := 1 }) (vecP [(1, 6)])) = some 6 ∧
    sOf 4 (exec (.ballot { mw with d := sr 4, m := 1, pred := 1 }) (vecP [(1, 6)])) = some 6 ∧
    sOf 4 (exec (.ballot { mw with d := sr 4, m := 3, pred := 1 }) (vecP [(1, 6)])) = some (-1) := by decide +kernel
/-- R97: a rotation by one, without .wrap and with it; R98: the first step of the sum of R98; R99: inclusive and exclusive sums. -/
theorem test_lanes :
    vOf 4 [0, 1, 63] (exec (.lxch { mw with lits := .one 1, d := 4, a := 1, b := 0xF8, c := 6, m := 5 }) vec) = some [127, 1, 125] ∧
    vOf 4 [0, 1, 63] (exec (.lxch { mw with lits := .one 1, d := 4, a := 1, b := 0xF8, c := 6, m := 1 }) vec) = some [1, 1, 125] ∧
    vOf 4 [0, 1, 32] (exec (.lxop { mw with lits := .one 32, d := 4, a := 0, b := 0xF8, c := 6, m := 3 }) vec) = some [32, 34, 32] ∧
    vOf 4 [0, 1, 2, 10] (exec (.scan { mw with d := 4, a := 0, c := 1 }) vec) = some [0, 1, 3, 55] ∧
    vOf 4 [0, 1, 2, 10] (exec (.scan { mw with d := 4, a := 0, c := 1, m := 1 }) vec) = some [0, 0, 1, 45] ∧
    vOf 4 [5, 6, 7] (exec (.scan { mw with d := 4, a := 0, c := 1 }) (vecP [(1, 0x40)])) = some [15, 6, 13] := by decide +kernel

/-- The words of the scratchpad after, at byte addresses. -/
def scOf (as : List Nat) (r : Host.Outcome State Fault Refusal) : Option (List Nat) :=
  match r with
  | .next s => some (as.map (fun a => ofBytes ((s.scratchOf 0 0).readBytes a 4)))
  | _ => none
/-- A vector state with scratchpad words, v registers and s registers. -/
def vecM (ws : List (Nat × Nat)) (vs : List (Nat × VReg)) (ss : List (Nat × Dword)) : State :=
  (vecV vs ss).modTeam 0 (fun t => { t with cores := t.cores.map (fun c => { c with
    scratch := ws.foldl (fun p x => p.write x.1 (toBytes 4 x.2)) c.scratch }) })
def parts : State := vecM [(0x10, 0x100), (0x14, 0x200), (0x20, 2), (0x24, 100)] [(5, gen (fun l => l % 3))] [(1, 0)]
/-- R101: outcomes l mod 3 with N = 2; list 0 has room for two. -/
theorem test_part : vOf 4 [0, 1, 2, 3, 4, 5, 6] (exec (.part { mw with d := 4, a := 5, b := 1, c := sr 1, m := 1 }) parts) =
      some [0, 0, 0xFFFFFFFF, 1, 1, 0xFFFFFFFF, 2] ∧
    scOf [0, 4, 0x100, 0x104, 0x108, 0x200, 0x204] (exec (.part { mw with d := 4, a := 5, b := 1, c := sr 1, m := 1 }) parts) =
      some [22, 21, 1, 7, 0, 3, 9] := by decide +kernel
/-- R103: keys 63 − l reverse the lanes of the marked v1; D takes the tid that was there. -/
theorem test_reord : vOf 1 [0, 63] (exec (.reord { mw with d := 4, a := 5, b := sr 10 }) (vecV [(5, gen (fun l => 63 - l))] [(10, 2)])) = some [127, 1] ∧
    vOf 4 [0, 63] (exec (.reord { mw with d := 4, a := 5, b := sr 10 }) (vecV [(5, gen (fun l => 63 - l))] [(10, 2)])) = some [63, 0] := by
  decide +kernel

/-! ## Results: tiles -/

/-- A tile by its elements, and a state whose t1 has element 16 r + n, as the small bits of a word or as f32. -/
def tileOf (f : Nat → Nat → Nat) : Tile := { rows := (List.range 16).map (fun r => (List.range 64).map (fun n => BitVec.ofNat 32 (f r n))), poison := 0 }
def tiled (f : Nat → Nat → Nat) (ws : List (Nat × Nat)) (ss : List (Nat × Dword)) : State :=
  (vecM ws [] ss).modGroup 0 0 (fun g => { g with regs := { g.regs with tiles := some ((List.replicate 8 (tileOf (fun _ _ => 0))).set 1 (tileOf f)) } })
def tOf (t : Nat) (xs : List (Nat × Nat)) (r : Host.Outcome State Fault Refusal) : Option (List Nat) :=
  (grp r).map (fun g => xs.map (fun x => ((g.regs.tile t).at x.1 x.2).toNat))
def small : State := tiled (fun r n => 64 * r + n) [] [(1, 1)]
/-- Elements 1.0 in column 0 and 2.0 elsewhere. -/
def ones : State := tiled (fun _ n => if n = 0 then 0x3F800000 else 0x40000000) [] [(1, 0x40400000)]
/-- R151, R155, R157. -/
theorem test_tile_moves :
    tOf 1 [(0, 5), (15, 63)] (exec (.tzero { mw with d := 1 }) small) = some [0, 0] ∧
    tOf 2 [(0, 0), (15, 3)] (exec (.trot { mw with d := 2, a := 1, b := sr 1 }) small) = some [64, 3] ∧
    tOf 2 [(0, 0), (2, 63)] (exec (.trot { mw with d := 2, a := 1, b := sr 1, m := 1 }) small) = some [1, 128] ∧
    vOf 4 [0, 63] (exec (.tget { mw with d := 4, a := 1, b := sr 1 }) small) = some [64, 127] ∧
    tOf 1 [(0, 7), (1, 7), (1, 63)] (exec (.tset { mw with d := 1, a := 1, b := sr 1 }) small) = some [7, 15, 127] := by decide +kernel
/-- R153: the largest of 1 and 63 times 2 in each row below 16; R154: column 3 takes lane 3 of v1; R156: .neg. -/
theorem test_tile_arithmetic :
    vOf 4 [0, 16] (exec (.tredr { mw with d := 4, a := 1, m := 1 }) ones) = some [0x40000000, 0] ∧
    tOf 1 [(3, 3), (4, 3)] (exec (.tbcr { mw with d := 1, a := 1 }) ones) = some [7, 7] ∧
    tOf 2 [(0, 0), (0, 1)] (exec (.tew { mw with d := 2, a := 1, m := 1 }) ones) = some [0xBF800000, 0xC0000000] := by decide +kernel
/-- R153, R154: the sum 1 + 63 * 2 = 127 of a row, and row 3 times lane 3 of a source. -/
theorem test_tile_elements :
    (tileReduce 0 (0x3F800000 :: List.replicate 63 0x40000000)).code = 0x42FE0000 ∧
    (tileCombine 2 0x40000000 0x40400000).code = 0x40C00000 ∧ (tileUnary 5 0x40000000 0x40400000).code = 0x40C00000 := by decide +kernel
/-- R151: rows 128 bytes apart of bf16 elements 1.0 and 2.0 load as f32. -/
theorem test_tld : tOf 0 [(0, 0), (0, 1), (1, 0)] (exec (.tld { mw with d := 0, a := sr 1, b := sr 2, m := 1 })
      (tiled (fun _ _ => 0) [(0x20, 0x40003F80), (0xA0, 0x3F80)] [(1, 0x20), (2, 0x80)])) =
    some [0x3F800000, 0x40000000, 0x3F800000] := by decide +kernel
/-- R145, R148: register form with f16, K = 16: A has 1.0 in element 2 of row 1 (lane 5, low half) and B 2.0 in element 2 of column 17
(register 1 of 4, lane 5); their product is 2.0. -/
theorem test_tmma : ((vecV [(4, gen (fun l => if l = 5 then 0x3C00 else 0)), (7, gen (fun l => if l = 5 then 0x4000 else 0))] []).ctx mw).map (fun c =>
      let a := tmmaOperand c true 4 6 0 16
      let b := tmmaOperand c false 6 6 0 16
      [(1, 17), (1, 16), (0, 17)].map (fun x => (accumulate false 0 16 1 (a.value x.1) (b.value x.2)).code)) =
    some [0x40000000, 0, 0] := by decide +kernel

/-! ## Results: memory, atomics and synchronisation -/

/-- A vector state with memory at virtual address 0x100, s registers, and a name for what a byte of the home holds. -/
def vecG (bytes : List Byte) (ss : List (Nat × Dword)) : State :=
  let s := vecS ss
  { s with mem := s.mem.writeCells (cellsFrom (memKey (peerOf .h0) 0x40000100) bytes) }
def homeOf (off n : Nat) (r : Host.Outcome State Fault Refusal) : Option Nat :=
  match r with
  | .next s => some (ofBytes (s.homeBytes (memKey (peerOf .h0) (0x40000000 + off)) n))
  | _ => none
/-- What the core's store-combining path forwards for a byte. -/
def pathOf (off : Nat) (r : Host.Outcome State Fault Refusal) : Option (Option Byte) :=
  match r with
  | .next s => some ((s.core vcore).forwarded (memKey (peerOf .h0) (0x40000000 + off)))
  | _ => none

/-- R107, R112: .b32 with offset C = 1 times 4, .s8 sign-extended; lanes by an address pair. -/
theorem test_ld :
    sOf 4 (exec (.ld { mw with d := sr 4, a := sr 1, c := 1, m := 4 }) (vecG [1, 2, 3, 4, 0x85, 6, 7, 8] [(1, 0x100)])) = some 0x08070685 ∧
    sOf 4 (exec (.ld { mw with d := sr 4, a := sr 1, c := 4, m := 1 }) (vecG [1, 2, 3, 4, 0x85, 6, 7, 8] [(1, 0x100)])) = some (-123) ∧
    sOf 4 (exec (.ld { mw with d := sr 4, a := sr 1, m := 5, x := 0x00A }) (vecG [1, 2, 3, 4, 0x85, 6, 7, 8] [(1, 0x100)])) = some 0x0807068504030201 := by
  decide +kernel
/-- R372: a misaligned load takes 0x25 with the address; R382: an unmapped page 0x20. -/
theorem test_ld_traps :
    (trapOf (exec (.ld { mw with d := sr 4, a := sr 1, m := 4 }) (vecG [] [(1, 0x102)]))).map (fun t => (t.1, t.2.1)) = some (0x25, 0x102) ∧
    (trapOf (exec (.ld { mw with d := sr 4, a := sr 1, m := 4 }) (vecG [] [(1, 0x80000000)]))).map (fun t => (t.1, t.2.1)) = some (0x20, 0x80000000) := by
  decide +kernel
/-- R112, R317: a relaxed store stands in the core's path, a release is performed at the home. -/
theorem test_st :
    pathOf 0x101 (exec (.st { mw with a := sr 1, b := sr 2, m := 4 }) (vecG [] [(1, 0x100), (2, 0x44332211)])) = some (some 0x22) ∧
    homeOf 0x100 4 (exec (.st { mw with a := sr 1, b := sr 2, m := 4, x := 0x011 }) (vecG [] [(1, 0x100), (2, 0x44332211)])) = some 0x44332211 := by
  decide +kernel
/-- R129, R130: the old value is returned and the new one stands at the home; a CAS that differs changes nothing. -/
theorem test_atomics :
    sOf 4 (exec (.atom { mw with d := sr 4, a := sr 1, b := sr 2 }) (vecG [5] [(1, 0x100), (2, 3)])) = some 5 ∧
    homeOf 0x100 4 (exec (.atom { mw with d := sr 4, a := sr 1, b := sr 2 }) (vecG [5] [(1, 0x100), (2, 3)])) = some 8 ∧
    homeOf 0x100 4 (exec (.atom { mw with d := sr 4, a := sr 1, b := sr 2, m := 9 }) (vecG [5] [(1, 0x100), (2, 5)])) = some 0 ∧
    homeOf 0x100 4 (exec (.cas { mw with d := sr 4, a := sr 1, b := sr 2, c := sr 3 }) (vecG [5] [(1, 0x100), (2, 5), (3, 9)])) = some 9 ∧
    homeOf 0x100 4 (exec (.cas { mw with d := sr 4, a := sr 1, b := sr 2, c := sr 3 }) (vecG [5] [(1, 0x100), (2, 4), (3, 9)])) = some 5 := by
  decide +kernel
/-- The state after a step, with the translations and caches of the cores gone, which would be used or replaced freely (R383). -/
def next (r : Host.Outcome State Fault Refusal) : State :=
  match r with
  | .next s => { s with cores := s.cores.map (fun c => { c with tlb := [], walker := [] }) }
  | _ => vec
def reserved : State := next (exec (.ldr { mw with d := sr 4, a := sr 1, m := 4 }) (vecG [5] [(1, 0x100), (2, 6)]))
/-- R132: LDR reserves; STC without a reservation gives 1, and behind the LDR 0. -/
theorem test_reservations :
    sOf 4 (exec (.ldr { mw with d := sr 4, a := sr 1, m := 4 }) (vecG [5] [(1, 0x100)])) = some 5 ∧
    sOf 4 (exec (.stc { mw with d := sr 4, a := sr 1, b := sr 2, m := 4 }) (vecG [5] [(1, 0x100), (2, 6)])) = some 1 ∧
    sOf 4 (exec (.stc { mw with d := sr 4, a := sr 1, b := sr 2, m := 4 }) reserved) = some 0 ∧
    homeOf 0x100 4 (exec (.stc { mw with d := sr 4, a := sr 1, b := sr 2, m := 4 }) reserved) = some 6 := by decide +kernel
/-- R119, R120: scratchpad words by lane, and the word of a constant bank. -/
theorem test_scratch :
    vOf 4 [0, 1, 63] (exec (.lds { mw with d := 4, a := 5, m := 4 }) (vecM [(0, 7), (4, 9), (252, 11)] [(5, gen (fun l => 4 * l))] [])) = some [7, 9, 11] ∧
    scOf [0, 4, 252] (exec (.sts { mw with a := 5, b := 1, m := 4 }) (vecM [] [(5, gen (fun l => 4 * l))] [])) = some [1, 3, 127] ∧
    trapOf (exec (.lds { mw with d := sr 4, a := sr 1, m := 4 }) (vecS [(1, 4096)])) = some (0x24, 4096, 0, -1) ∧
    sOf 4 (exec (.ldk { mw with d := sr 4, a := 2, b := sr 1, m := 4 }) ((vecS [(1, 4)]).modTeam 0 (fun t => { t with consts := [[], [], [1, 2]], constPoison := [[], [], []] }))) = some 2 := by
  decide +kernel
/-- R114 to R118: what these change is the fetch and cache side; the PC moves on. -/
theorem test_maintenance :
    [pcOf (exec (.pref { mw with a := sr 1 }) (vecG [] [(1, 0x80000000)])), pcOf (exec (.wb { mw with a := sr 1, b := sr 2 }) (vecG [] [(1, 0x100), (2, 64)])),
     pcOf (exec (.inv { mw with a := sr 1, b := sr 2 }) (vecG [] [(1, 0x100), (2, 64)])), pcOf (exec (.iinv { mw with a := sr 1, b := sr 2 }) (vecG [] [(1, 0x100), (2, 64)])),
     pcOf (exec (.ifence mw) vec), pcOf (exec (.fence { mw with x := 0x019 }) vec), pcOf (exec (.persist { mw with x := 6 }) vec)] =
    List.replicate 7 (some 0x2008) := by decide +kernel
def copyOf (r : Host.Outcome State Fault Refusal) : List (List Nat) :=
  match r with
  | .next s => ((s.team? 0).map (fun t => t.copies.map (fun c =>
      [c.rows, c.rowBytes, c.globalBase.toNat, c.globalPitch.toNat, c.scratchBase, c.scratchPitch]))).getD []
  | _ => []
def slotOf (s : State) : Option PairSlot := (s.team? 0).bind (fun t => t.pair 3)
def paired : State := vec.modTeam 0 (fun t => t.setPair 3 (some { base := 0x80, size := 0x100, side := false }))
/-- R121 to R126: a copy stands outstanding with its pieces; a paired buffer is declared, exchanged and freed. -/
theorem test_copies :
    copyOf (exec (.cpy { mw with a := sr 1, b := sr 2, c := sr 3 }) (vecS [(1, 0x100), (2, 0x40), (3, 256)])) = [[1, 256, 0x100, 0, 0x40, 0]] ∧
    copyOf (exec (.cpyw { mw with a := sr 4, b := zr }) (vecS [(4, 0x1000), (5, 0x8000000080), (6, 0x100), (7, 0x2000040)])) = [[2, 64, 0x1000, 0x100, 128, 128]] ∧
    slotOf (next (exec (.publDecl { mw with a := sr 1, b := sr 2, c := 3 }) (vecS [(1, 0x80), (2, 0x100)]))) = some { base := 0x80, size := 0x100, side := false } ∧
    slotOf (next (exec (.publSwap { mw with c := 3, m := 1 }) paired)) = some { base := 0x80, size := 0x100, side := true } ∧
    slotOf (next (exec (.publFree { mw with c := 3, m := 2 }) paired)) = none := by decide +kernel
def barOf (n : Nat) (r : Host.Outcome State Fault Refusal) : Option (Nat × Nat × Half) :=
  match r with
  | .next s => (s.team? 0).map (fun t => ((t.barrier n).expected, (t.barrier n).arrivals, (t.barrier n).gen))
  | _ => none
def expecting (n : Nat) : State := vec.modTeam 0 (fun t => { t with barriers := List.replicate 48 { bar0 with expected := n } })
/-- R138, R139: expected 2, then an arrival; of expected 1 the arrival ends the generation; b8 of 8 is misuse. -/
theorem test_barriers :
    barOf 3 (exec (.bari { mw with a := sr 1, c := 3 }) (vecS [(1, 2)])) = some (2, 0, 0) ∧ barOf 3 (exec (.bara { mw with c := 3 }) (expecting 2)) = some (2, 1, 0) ∧
    barOf 3 (exec (.bara { mw with c := 3 }) (expecting 1)) = some (1, 0, 1) ∧ pcOf (exec (.bars { mw with c := 3 }) (expecting 1)) = some 0x2008 ∧
    pcOf (exec (.bars { mw with c := 3 }) (expecting 2)) = some 0x2000 ∧ pcOf (exec (.barw { mw with c := 3 }) (expecting 2)) = some 0x2008 ∧
    sOf 4 (exec (.barq { mw with d := sr 4, c := 3 }) (expecting 2)) = some 0x20000 ∧
    (trapOf (exec (.bara { mw with c := 8 }) vec)).map (fun t => (t.1, t.2.1)) = some (0x10, 8) := by decide +kernel

/-! ## Results: control flow -/

/-- The positions of lanes after: PC, priority and depth. -/
def posOf (ls : List Nat) (r : Host.Outcome State Fault Refusal) : Option (List (Nat × Nat × Nat)) :=
  (grp r).map (fun g => ls.map (fun l => ((g.regs.at l).pc.toNat, (g.regs.at l).pri.toNat, (g.regs.at l).depth.toNat)))
/-- R58, R59, R60: imm20 counts words from the PC; inactive lanes fall through at the priority of B. -/
theorem test_branches :
    posOf [0] (exec (.nop mw) vec) = some [(0x2008, 0, 0)] ∧
    posOf [0, 1] (exec (.bra { mw with d := 7, b := 3, c := 0xFE, x := 0xFFF, pred := 1 }) (vecP [(1, 2)])) = some [(0x2008, 3, 0), (0x1FF8, 7, 0)] ∧
    posOf [0, 1] (exec (.brx { mw with d := 7, a := 6 }) (vecV [(6, gen (fun l => 0x3000 + 8 * l)), (7, gen (fun _ => 0))] [])) =
      some [(0x3000, 7, 0), (0x3008, 7, 0)] := by decide +kernel
/-- R61 to R63: the link word of a call at 0x2000 is 0x2008 / 4 with the priority 3 in bits 62:55, and RET comes back through it. -/
theorem test_calls :
    sOf 22 (exec (.call { mw with d := 7, a := sr 22, b := 3, c := 10 }) vec) = some 0x180000000000802 ∧
    posOf [5] (exec (.call { mw with d := 7, a := sr 22, b := 3, c := 10 }) vec) = some [(0x2028, 7, 1)] ∧
    posOf [5] (exec (.callx { mw with d := 7, a := sr 1, b := 3, c := sr 22 }) (vecS [(1, 0x3000)])) = some [(0x3000, 7, 1)] ∧
    sOf 22 (exec (.callx { mw with d := 7, a := sr 1, b := 3, c := sr 22 }) (vecS [(1, 0x3000)])) = some 0x180000000000802 ∧
    posOf [5] (exec (.ret { mw with a := sr 22, b := 9 }) (next (exec (.call { mw with d := 7, a := sr 22, b := 3, c := 10 }) vec))) = some [(0x2008, 3, 0)] ∧
    (trapOf (exec (.ret { mw with a := sr 22 }) vec)).map (fun t => t.1) = some 0x0F := by decide +kernel
/-- R65, R66: an EXIT of lanes 0 to 3 leaves the others; of all lanes it retires the group; YIELD holds it back for 8 cycles. -/
theorem test_exit_yield :
    (grp (exec (.exit { mw with pred := 1 }) (vecP [(1, 0xF)]))).map (fun g => (g.regs.live, g.retired)) = some (~~~0xF, false) ∧
    (grp (exec (.exit mw) (vec.modTeam 0 (fun t => { t with groups := t.groups ++ [{ vgroup with gid := 1 }] })))).map (fun g => g.retired) = some true ∧
    (grp (exec (.yield { mw with b := 4 }) vec)).map (fun g => (g.yieldUntil, (g.regs.at 3).pri)) = some (8, 4) := by decide +kernel
def looped : State := next (exec (.loop { mw with a := sr 1, c := 4 }) (scal .task [(1, 2)]))
/-- R67, R68: a body of one instruction at 8 with end 16; the count 2 makes the arrival at the end start it again, and the next one leave it. -/
theorem test_loop :
    (looped.group? 0 0).map (fun g => (g.ldep, g.loops.head?.map (fun v => (v.cnt, v.sta, v.lend)))) = some (1, some (2, 8, 16)) ∧
    pcOf (exec (.nop mw) looped) = some 8 ∧ pcOf (exec (.nop mw) (next (exec (.nop mw) looped))) = some 16 ∧
    pcOf (exec (.loop { mw with a := zr, c := 4 }) (scal .task [])) = some 16 ∧
    (trapOf (exec (.loop { mw with a := sr 1 }) (scal .task [(1, 2)]))).map (fun t => t.1) = some 7 := by decide +kernel

/-! ## Results: system -/

/-- The trap state after: 1 at kernel level, cause, TEPC, TVAL and PC. -/
def entered (r : Host.Outcome State Fault Refusal) : Option (List Nat) :=
  (grp r).map (fun g => [if g.kernel then 1 else 0, g.trap.cause.toNat, g.trap.epc.toNat, g.trap.val.toNat, (g.regs.at 0).pc.toNat])
/-- A scalar work item with KTVEC 0x4000. -/
def vectored (level : Level) (regs : List (Nat × Dword)) : State := (scal level regs).modTeam 0 (fun t => { t with ktvec := 0x4000 })
/-- R174, R366: TRAP and SYSC record the fall-through address and go to KTVEC; R24: a privileged instruction at task level takes 0x05. -/
theorem test_traps :
    entered (exec (.trap { mw with a := sr 1 }) (vectored .task [(1, 9)])) = some [1, 0x0A, 8, 9, 0x4000] ∧
    entered (exec (.sysc { mw with a := sr 1 }) (vectored .task [(1, 9)])) = some [1, 0x0B, 8, 9, 0x4000] ∧
    (entered (exec (.eret mw) (vectored .task []))).map (fun t => t.take 3) = some [1, 5, 0] ∧
    entered (exec (.trap { mw with a := sr 1 }) (vectored .kernel [(1, 9)])) = some [1, 0x0A, 8, 9, 0x4000] := by decide +kernel
/-- R175: ERET of the handler goes to TEPC at the level before. -/
theorem test_eret : entered (exec (.eret mw) (next (exec (.trap { mw with a := sr 1 }) (vectored .task [(1, 9)])))) =
    some [0, 0x0A, 8, 9, 8] := by decide +kernel
/-- R176: TEPC and FPST by number; KTVEC without its low bits; a read-only number takes 0x02. -/
theorem test_control_registers :
    sOf 4 (exec (.mfcr { mw with d := sr 4, x := 0x002 }) (next (exec (.mtcr { mw with a := sr 1, x := 0x002 }) (scal .kernel [(1, 0x1234)])))) = some 0x1234 ∧
    sOf 4 (exec (.mfcr { mw with d := sr 4, x := 0x006 }) (next (exec (.mtcr { mw with a := sr 1, x := 0x006 }) (scal .kernel [(1, 0x12FF)])))) = some 0x1200 ∧
    (trapOf (exec (.mtcr { mw with a := sr 1, x := 0x040 }) (scal .kernel []))).map (fun t => t.1) = some 2 ∧
    (trapOf (exec (.mfcr { mw with d := sr 4, x := 0x002 }) (scal .task []))).map (fun t => t.1) = some 5 := by decide +kernel
/-- R178, R179: TLBI completes on quiet cores; WAITE whose word is 5 meets .eq 5, and with c = 0 ends at once where it does not. -/
theorem test_tlbi_waite :
    pcOf (exec (.tlbi { mw with a := sr 1, b := sr 2 }) (scal .kernel [])) = some 8 ∧
    sOf 4 (exec (.waite { mw with d := sr 4, a := sr 1, b := sr 2, c := sr 3 }) (vecG [5] [(1, 0x100), (2, 5), (3, -1)])) = some 0 ∧
    sOf 4 (exec (.waite { mw with d := sr 4, a := sr 1, b := sr 2, c := sr 3 }) (vecG [5] [(1, 0x100), (2, 6)])) = some 1 ∧
    pcOf (exec (.waite { mw with d := sr 4, a := sr 1, b := sr 2, c := sr 3 }) (vecG [5] [(1, 0x100), (2, 6), (3, -1)])) = some 0x2000 := by decide +kernel
def open0 (s : State) : State := s.modQueue .h0 0 (fun q => { q with en := true })
/-- R180: b above bit 6 gives 4, and so does a queue that is not enabled; an enabled one answers 3 to a misaligned packet, and accepts one. -/
theorem test_lnch :
    sOf 4 (exec (.lnch { mw with d := sr 4, a := sr 1, b := sr 2 }) (open0 (vecG [] [(1, 0x100), (2, 0x80)]))) = some 4 ∧
    sOf 4 (exec (.lnch { mw with d := sr 4, a := sr 1, b := sr 2 }) (vecG [] [(1, 0x100), (2, 0)])) = some 4 ∧
    sOf 4 (exec (.lnch { mw with d := sr 4, a := sr 1, b := sr 2 }) (open0 (vecG [] [(1, 0x110), (2, 0)]))) = some 3 ∧
    sOf 4 (exec (.lnch { mw with d := sr 4, a := sr 1, b := sr 2 }) (open0 (vecG [] [(1, 0x100), (4, 9), (2, 0)]))) = some 0 := by decide +kernel
/-- R188: package 0, hub 0, chiplet 0, core 0, slot 0, generation 1; R189: without a name HOLD is misuse 1, and with one it arms v4; R192: no harvest context. -/
theorem test_names :
    sOf 4 (exec (.name { mw with d := sr 4 }) vec) = some 1 ∧
    (trapOf (exec (.holdArm { mw with d := 4, b := zr }) vec)).map (fun t => (t.1, t.2.1)) = some (0x12, 1) ∧
    (grp (exec (.holdArm { mw with d := 4, b := zr }) (next (exec (.name { mw with d := sr 4 }) vec)))).map (fun g => g.mailboxes.map (fun m => (m.reg, m.armed))) = some [(4, true)] ∧
    sOf 4 (exec (.hchkLost { mw with d := sr 4 }) vec) = some 0 := by decide +kernel
/-- R190: mail from the group to itself leaves a message on its way. -/
theorem test_rstv : (match exec (.rstv { mw with d := 7, a := sr 4, b := 1, c := sr 5 }) (vecS [(4, 1)]) with
    | .next s => decide (s.mails.length = 1)
    | _ => false) = true := by decide +kernel
def kvec : State := vecWith id { vgroup with trap := TrapRegs.clear .kernel, kernelLanes := BitVec.allOnes 64 }
/-- R191, R192: HARV is privileged, and of a team that is not latency-critical harvest limit 4. -/
theorem test_harv :
    (trapOf (exec (.harvOn { mw with a := zr }) vec)).map (fun t => t.1) = some 5 ∧
    (trapOf (exec (.harvOn { mw with a := zr }) kvec)).map (fun t => (t.1, t.2.1)) = some (0x11, 4) := by decide +kernel
def kvecS (regs : List (Nat × Dword)) : State :=
  vecWith id { vgroup with trap := TrapRegs.clear .kernel, kernelLanes := BitVec.allOnes 64, regs := regs.foldl (fun r x => r.setS x.1 x.2 false) vgroup.regs }
/-- R186: an .sregs image: version 1, kind 1, 896 bytes, s0 at offset 0x40 and s1 behind it; a .state image: 0x540 bytes, lane 0's PC at 0x40, b
at 0x4D8; misaligned images take 0x25. -/
theorem test_savev :
    ((kvecS [(1, 0x100), (0, 0x77)]).group? 0 0).map (fun g => let b := sregsImage g; (b.length, b.take 8, b[0x40]?, b[0x49]?)) =
      some (896, [1, 0, 1, 0, 0x80, 3, 0, 0], some 0x77, some 1) ∧
    (kvec.group? 0 0).map (fun g => let b := stateImage g 0x5000; (b.length, b[2]?, b[0x41]?, b[0x4D9]?)) = some (1344, some 3, some 0x20, some 0x50) ∧
    (trapOf (exec (.savev { mw with a := sr 1, m := 1 }) (kvecS [(1, 0x120)]))).map (fun t => t.1) = some 0x25 ∧
    (trapOf (exec (.restv { mw with a := sr 1, m := 1 }) (kvecS [(1, 0x120)]))).map (fun t => t.1) = some 0x25 := by decide +kernel

/-! ## Results: the engines -/

/-- A machine whose array team's engine moves next, with a stack (top first) and one more change of the engine. -/
def engWith (k : EngineKind) (stack : List Word) (f : Engine → Engine) : State :=
  { State.reset with
    teams := [Team.boot Flash.factory, { placedTeam 1 with cluster := (placedTeam 1).cluster.map (fun c =>
      c.setEngine k (f { c.engine k with stack := stack, state := .running, imem := List.replicate 16 0, pc := 3 })) }]
    nextTeam := 2, next := .agent (.engine 1 k) }
def eng (stack : List Word) : State := engWith .access stack id
def engOf (k : EngineKind) (r : Host.Outcome State Fault Refusal) : Option Engine :=
  match r with
  | .next s => ((s.team? 1).bind (fun t => t.cluster)).map (fun c => c.engine k)
  | _ => none
def stackOf (r : Host.Outcome State Fault Refusal) : Option (List Word × Nat) := (engOf .access r).map (fun e => (e.stack, e.pc))
/-- R28, R161: the stack words: b is the top; the PC moves on by one. -/
theorem test_engine_stack :
    [stackOf (exec (.push 0x1FFF) (eng [7])), stackOf (exec (.ext 5) (eng [2])), stackOf (exec .dup (eng [7])), stackOf (exec .drop (eng [7, 8])),
     stackOf (exec .swap (eng [7, 8])), stackOf (exec .over (eng [7, 8])), stackOf (exec .add (eng [1, 0xFFFFFFFF])), stackOf (exec .sub (eng [3, 10])),
     stackOf (exec .mul (eng [3, 10])), stackOf (exec .engAnd (eng [12, 10])), stackOf (exec .engOr (eng [12, 10])), stackOf (exec .engXor (eng [12, 10])),
     stackOf (exec .engShl (eng [4, 1])), stackOf (exec .engShr (eng [32, 1]))] =
    [some ([0xFFFFFFFF, 7], 4), some ([0x4005], 4), some ([7, 7], 4), some ([8], 4), some ([8, 7], 4), some ([8, 7, 8], 4), some ([0], 4),
     some ([7], 4), some ([30], 4), some ([8], 4), some ([14], 4), some ([6], 4), some ([16], 4), some ([0], 4)] := by decide +kernel
/-- R161, R299: an underflow and an overflow fault with cause 0x41, stack and PC as before. -/
theorem test_engine_stack_faults :
    (engOf .access (exec .add (eng [1]))).map (fun e => (e.state, e.cause, e.stack, e.pc)) = some (.faulted, 0x41, [1], 3) ∧
    (engOf .access (exec .dup (eng [1, 2, 3, 4, 5, 6, 7, 8]))).map (fun e => (e.state, e.cause)) = some (.faulted, 0x41) := by decide +kernel
def looping (m : Word) : State := engWith .access [] (fun e => { e with loops := [{ n := 0, m := 0, start := 0 }, { n := 2, m := m, start := 1 }, { n := 0, m := 0, start := 0 }] })
/-- R161, R162: loops and control: LOOP l1 with 2 starts at the next word; the index is n − m; ENDL goes back, then on. -/
theorem test_engine_loops :
    (engOf .access (exec (.engLoop 1) (eng [2]))).map (fun e => (e.pc, e.loops[1]?)) = some (4, some { n := 2, m := 2, start := 4 }) ∧
    stackOf (exec (.getl 1) (looping 1)) = some ([1], 4) ∧
    (engOf .access (exec (.setl 1) (eng [9]))).map (fun e => (e.loops[1]?).map (fun l => l.m)) = some (some 9) ∧
    (engOf .access (exec (.endl 1) (looping 2))).map (fun e => (e.pc, (e.loops[1]?).map (fun l => l.m))) = some (1, some 1) ∧
    (engOf .access (exec (.endl 1) (looping 1))).map (fun e => (e.pc, (e.loops[1]?).map (fun l => l.m))) = some (4, some 0) ∧
    stackOf (exec .jmp (eng [9])) = some ([], 9) ∧ stackOf (exec .jz (eng [9, 0])) = some ([], 9) ∧ stackOf (exec .jz (eng [9, 1])) = some ([], 4) := by
  decide +kernel
/-- R162, R183: HALT stops an engine without operations; commands and signals. -/
theorem test_engine_control :
    (engOf .access (exec .halt (eng []))).map (fun e => e.state) = some .stopped ∧
    stackOf (exec .waitc (engWith .access [] (fun e => { e with cmds := [5, 6] }))) = some ([5], 4) ∧ stackOf (exec .waitc (eng [])) = some ([], 3) ∧
    (engOf .access (exec .sigc (eng [9]))).map (fun e => (e.sigs, e.stack)) = some ([9], []) := by decide +kernel
/-- The control core of the array team moves next, with s registers set. -/
def ctl (f : Engine → Engine) (regs : List (Nat × Dword)) : State :=
  { (engWith .access [] f).modGroup 1 0 (fun g => { g with regs := regs.foldl (fun r x => r.setS x.1 x.2 false) g.regs }) with next := .agent (.group 1 0) }
def s1Of (n : Nat) (r : Host.Outcome State Fault Refusal) : Option Dword :=
  match r with
  | .next s => (s.group? 1 0).map (fun g => (g.regs.s n).value)
  | _ => none
/-- R183, R185: the status of a running engine at 3 with two commands; GO of a running engine is 1, of a stopped one 0 with its PC; ENGR of
one that is not stopped at a fault is 1. -/
theorem test_engs :
    s1Of 4 (exec (.engsSt { mw with d := sr 4, a := sr 1, m := 1 }) (ctl (fun e => { e with cmds := [1, 2] }) [])) = some (1 + 3 * 4 + 2 * 65536) ∧
    s1Of 4 (exec (.engsGo { mw with d := sr 4, a := sr 1, b := sr 2 }) (ctl id [(2, 5)])) = some 1 ∧
    (engOf .access (exec (.engsGo { mw with d := sr 4, a := sr 1, b := sr 2 }) (ctl (fun e => { e with state := .stopped }) [(2, 5)]))).map (fun e => (e.pc, e.state)) = some (5, .running) ∧
    (engOf .access (exec (.engsCmd { mw with a := sr 1, b := sr 2, m := 2 }) (ctl id [(2, 5)]))).map (fun e => e.cmds) = some [5] ∧
    s1Of 4 (exec (.engsSig { mw with d := sr 4, a := sr 1, m := 3 }) (ctl (fun e => { e with sigs := [7, 8] }) [])) = some 7 ∧
    (match exec (.engr { mw with d := sr 4, a := sr 1, b := sr 2 }) ((ctl id []).modGroup 1 0 (fun g => { g with trap := TrapRegs.clear .kernel, kernelLanes := 1 })) with
     | .next s => (s.group? 1 0).map (fun g => (g.regs.s 4).value)
     | _ => none) = some 1 := by decide +kernel
/-- The array team with a token map, R291: queue q has consumer and producer as its fields say. -/
def clusterOf (r : Host.Outcome State Fault Refusal) : Option Cluster :=
  match r with
  | .next s => (s.team? 1).bind (fun t => t.cluster)
  | _ => none
def agen : State := (eng []).modCluster 1 (fun c => { c with gens := c.gens.set 3 { base := 0x100000010, s0 := 4, s1 := 100, c0 := 2, i := 1, j := 2, wrap := 0 } })
/-- R165: AGSET pops high, then low; AGSTR pops s1, c0, s0; AGWRAP; the address of AGRD: B + i s0 + j s1. -/
theorem test_generators :
    ((clusterOf (exec (.agset 3) (eng [1, 0x10]))).bind (fun c => c.gens[3]?)).map (fun g => (g.base, g.c0)) = some (0x100000010, 1) ∧
    ((clusterOf (exec (.agstr 3) (eng [100, 2, 4]))).bind (fun c => c.gens[3]?)).map (fun g => (g.s0, g.c0, g.s1)) = some (4, 2, 100) ∧
    ((clusterOf (exec (.agwrap 3) (eng [64]))).bind (fun c => c.gens[3]?)).map (fun g => g.wrap) = some 64 ∧
    stackOf (exec (.agrd 3) agen) = some ([0xDC], 4) ∧
    (engOf .access (exec (.agstr 3) (eng [100, 0, 4]))).map (fun e => e.cause) = some 0x42 := by decide +kernel
/-- R164, R166: CPYIN with g 0, p 1, w 64, n 2, flags 0 is outstanding; DCLR and WSWP on their engines; flags bit 0 is refused on CPYIN. -/
theorem test_launches :
    (engOf .access (exec (.cpyin 0 0) (eng [0, 2, 64, 1, 0]))).map (fun e => (e.ops.length, e.stack, e.pc)) = some (1, [], 4) ∧
    (engOf .access (exec (.cpyin 0 0) (eng [1, 2, 64, 1, 0]))).map (fun e => (e.cause, e.stack.length)) = some (0x42, 5) ∧
    (engOf .access (exec (.cpyin 5 0) ((eng [0, 2, 64, 1, 0]).modTeam 1 (fun t => { t with desc := { t.desc with tokens := -1 } })))).map (fun e => e.ops.length) = some 0 ∧
    (engOf .drain (exec (.dclr 0 0) (engWith .drain [4, 10] id))).map (fun e => e.ops.length) = some 1 ∧
    (engOf .array (exec (.wswp 0 0) (engWith .array [] id))).map (fun e => e.ops.length) = some 1 := by decide +kernel

/-! ## Witnesses: states and operands that meet the hypotheses of the statements -/

/-- Whether a word issues in a state and a test of its context holds. -/
def issuesB (g : Sig) (w : MainWord) (s : State) (p : Ctx → Bool) : Bool :=
  match s.ctx w with
  | some c => (g.check c w).isNone && (c.group.held ((g.vregs w).1 ++ (g.vregs w).2)).isNone &&
      !c.group.mailboxes.any (fun m => m.delivered && (g.vregs w).1.contains m.reg) &&
      !(memoryInstruction g.op && c.group.completingAt.any (fun p => decide (p ≠ c.pos))) && s.asked.isEmpty && p c
  | none => false
theorem issues_of {g : Sig} {w : MainWord} {s : State} {P : Ctx → Prop} [DecidablePred P]
    (h : issuesB g w s (fun c => decide (P c)) = true) : ∃ c, Issues g w s c ∧ P c := by
  unfold issuesB at h
  split at h
  · rename_i c hc
    simp only [Bool.and_eq_true, Option.isNone_iff_eq_none, Bool.not_eq_true', decide_eq_true_eq, List.isEmpty_iff] at h
    exact ⟨c, ⟨hc, h.1.1.1.1.1, h.1.1.1.1.2, h.1.1.1.2, h.1.1.2, h.1.2⟩, h.2⟩
  · cases h
/-- A word that issues. -/
theorem issues_at {g : Sig} {w : MainWord} {s : State} (h : issuesB g w s (fun _ => true) = true) : ∃ c, Issues g w s c := by
  obtain ⟨c, hc, -⟩ := issues_of (P := fun _ => True) (g := g) (w := w) (s := s) (by simpa using h)
  exact ⟨c, hc⟩

/-- Words with operands: a vector form, and a scalar form over s registers. -/
def vw (m : Nat) : MainWord := { mw with d := 4, a := 0, b := 1, m := BitVec.ofNat 4 m }
def sw (m : Nat) : MainWord := { mw with d := sr 4, a := sr 1, b := sr 2, m := BitVec.ofNat 4 m }

theorem wit_IntegerArithmetic_two : ∀ r ∈ intRows,
    (∃ c, Issues (r.sig (vw 1)) (vw 1) vec c ∧ c.active ≠ 0 ∧ Fits c ((r.sig (vw 1)).scalarForm c.vector (vw 1)) 4 32 .general) ∧
    (∃ c, Issues (r.sig (sw 1)) (sw 1) State.reset c ∧ c.active ≠ 0 ∧ Fits c ((r.sig (sw 1)).scalarForm c.vector (sw 1)) (sr 4) 32 .general) := by
  have h : intRows.all (fun r =>
      issuesB (r.sig (vw 1)) (vw 1) vec (fun c => decide (c.active ≠ 0 ∧ Fits c ((r.sig (vw 1)).scalarForm c.vector (vw 1)) 4 32 .general)) &&
      issuesB (r.sig (sw 1)) (sw 1) State.reset (fun c => decide (c.active ≠ 0 ∧ Fits c ((r.sig (sw 1)).scalarForm c.vector (sw 1)) (sr 4) 32 .general))) = true := by
    decide +kernel
  intro r hr
  have := List.all_eq_true.1 h r hr
  simp only [Bool.and_eq_true] at this
  exact ⟨issues_of this.1, issues_of this.2⟩
theorem wit_IntegerArithmetic_others :
    (∀ r ∈ intOneRows, ∃ c, Issues (r.sig { vw 0 with b := 0 }) { vw 0 with b := 0 } vec c ∧ c.active ≠ 0 ∧ Fits c false 4 32 .general) ∧
    (∀ r ∈ intThreeRows, ∃ c, Issues (r.sig { vw 1 with c := 1 }) { vw 1 with c := 1 } vec c ∧ c.active ≠ 0 ∧ Fits c false 4 32 .general) := by
  have h1 : intOneRows.all (fun r => issuesB (r.sig { vw 0 with b := 0 }) { vw 0 with b := 0 } vec (fun c => decide (c.active ≠ 0 ∧ Fits c false 4 32 .general))) = true := by
    decide +kernel
  have h2 : intThreeRows.all (fun r => issuesB (r.sig { vw 1 with c := 1 }) { vw 1 with c := 1 } vec (fun c => decide (c.active ≠ 0 ∧ Fits c false 4 32 .general))) = true := by
    decide +kernel
  exact ⟨fun r hr => issues_of (List.all_eq_true.1 h1 r hr), fun r hr => issues_of (List.all_eq_true.1 h2 r hr)⟩
theorem wit_IntegerCompare :
    (∃ c, Issues { op := 0x020, form := .perLane, d := .form 0x07, a := .s tN32, b := .s tN32, c := .form 0xFF, mOk := true, fieldsOk := true }
      { mw with d := 1, a := 0, b := 1, c := 2, m := 1 } vec c) ∧
    ∃ t : Nat → Bool, ∀ l, t l = true ↔ condition 2 0 (l : Int) :=
  ⟨issues_at (by decide +kernel), fun l => @decide (condition 2 0 (l : Int)) (Classical.propDecidable _), fun l => by simp⟩
theorem wit_SelectMoveAddress :
    (let w := { vw 1 with c := 1 }
     let g : Sig := { op := 0x022, form := .byDest, d := .dstAny (mTy w).width, a := .s (mTy w), b := .s (mTy w),
                      c := .form 0x07, mOk := decide (w.m.toNat < 8) }
     ∃ c, Issues g w vec c ∧ c.active ≠ 0 ∧ Fits c (g.scalarForm c.vector w) w.d (mTy w).width .general) ∧
    (let w : MainWord := { mw with d := 4, a := 0, m := 1 }
     let ty := movTy w.m.toNat
     let g : Sig := { op := 0x023, form := .byDest, d := .dstAny ty.width,
                      a := .src ty (fun code => !(w.m == 8 || w.m == 9) || code != 0xFC), mOk := decide (w.m.toNat < 10), imm := true }
     ∃ c, Issues g w vec c ∧ c.active ≠ 0 ∧ Fits c (g.scalarForm c.vector w) w.d ty.width .general) ∧
    (let w := { mw with d := 4, a := sr 1, b := 1, c := 3 }
     let g : Sig := { op := 0x025, form := .byDest, d := .dstAny 64, a := .s tN64, b := .s (mTy w), c := .form 0x07,
                      mOk := decide (w.m.toNat < 4) }
     ∃ c, Issues g w vec c ∧ c.active ≠ 0 ∧ Fits c (g.scalarForm c.vector w) w.d 64 .general) :=
  ⟨issues_of (by decide +kernel), issues_of (by decide +kernel), issues_of (by decide +kernel)⟩
theorem wit_PredicateLogicAndMove :
    (∃ c, Issues { op := 0x021, form := .perLane, d := .form 0x07, a := .form 0x07, b := .form 0x07, c := .form 0x07, mOk := true, xMask := 0x0FF }
      { mw with d := 1, a := 2, b := 3, c := 4, x := 0x0E8 } vec c) ∧
    (∃ c, Issues { op := 0x024, form := .perLane, d := .dst 32 (pmovDest vec.vectorIssuer), a := .form 0x07, mOk := true } { mw with d := 4, a := 1 } vec c ∧ Fits c false 4 32 .general) ∧
    (∃ c, Issues { op := 0x024, form := .perLane, d := .form 0x07, a := .s tN32, mOk := true } { mw with d := 1, a := 0, m := 1 } vec c) ∧
    (∃ c, Issues { op := 0x024, form := .perLane, d := .dst 32 (pmovDest vec.vectorIssuer), mOk := true } { mw with d := 4, m := 2 } vec c ∧ Fits c false 4 32 .general) ∧
    (∃ c, Issues { op := 0x024, form := .perLane, a := .s tN32, mOk := true } { mw with a := 0, m := 3 } vec c) :=
  ⟨issues_at (by decide +kernel), issues_of (by decide +kernel), issues_at (by decide +kernel), issues_of (by decide +kernel), issues_at (by decide +kernel)⟩
/-- A word with the operands that its sources take. -/
def fw3 (k : Nat) : MainWord := { mw with d := 4, a := 0, b := if 2 ≤ k then 1 else 0, c := if k = 3 then 5 else 0 }
theorem wit_FloatArithmetic : ∀ r ∈ floatRows, ∃ k ∈ [1, 2, 3], ∃ c, Issues (r.sig (fw3 k)) (fw3 k) vec c ∧ c.active ≠ 0 ∧ Fits c false 4 32 .general := by
  have h : floatRows.all (fun r => [1, 2, 3].any (fun k => issuesB (r.sig (fw3 k)) (fw3 k) vec (fun c => decide (c.active ≠ 0 ∧ Fits c false 4 32 .general)))) = true := by
    decide +kernel
  intro r hr
  obtain ⟨k, hk, hi⟩ := List.any_eq_true.1 (List.all_eq_true.1 h r hr)
  exact ⟨k, hk, issues_of hi⟩
theorem wit_DotProducts :
    (∀ r ∈ dotRows, ∃ c, Issues (r.sig (fw3 3)) (fw3 3) vec c ∧ c.active ≠ 0 ∧ Fits c false 4 32 .general) ∧
    (∃ c, Issues (dotSig 0x08D (.int 32 true) true) { fw3 3 with m := 10 } vec c ∧ c.active ≠ 0 ∧ Fits c false 4 32 .general) := by
  have h : dotRows.all (fun r => issuesB (r.sig (fw3 3)) (fw3 3) vec (fun c => decide (c.active ≠ 0 ∧ Fits c false 4 32 .general))) = true := by decide +kernel
  exact ⟨fun r hr => issues_of (List.all_eq_true.1 h r hr), issues_of (by decide +kernel)⟩
theorem wit_FloatSignClassCompare :
    (∀ op ∈ [0x086, 0x087], ∃ c, Issues (floatSig op (fw3 1) false false true) (fw3 1) vec c ∧ Fits c false 4 32 .general) ∧
    (∃ c, Issues { floatSig 0x08B (fw3 1) false false true with d := .dstAny 32 } (fw3 1) vec c ∧ Fits c false 4 32 .general) ∧
    (let w : MainWord := { mw with d := 1, a := 0, b := 1, c := 2 }
     ∃ c, Issues { op := 0x08A, form := .perLane, d := .form 0x07, a := .s (.float (mFmt w)), b := .s (.float (mFmt w)), c := .form 0xFF,
                   mOk := bits w.m 1 0 == 0, fieldsOk := bits w.c 4 3 != 0 || bits w.c 7 5 == 0 } w vec c) := by
  have h : ([0x086, 0x087] : List (BitVec 10)).all (fun op => issuesB (floatSig op (fw3 1) false false true) (fw3 1) vec (fun c => decide (Fits c false 4 32 .general))) = true := by
    decide +kernel
  exact ⟨fun op hop => issues_of (List.all_eq_true.1 h op hop), issues_of (by decide +kernel), issues_at (by decide +kernel)⟩
theorem wit_Conversions :
    (∃ c, Issues (cvtSig 0x100 { fw3 1 with x := 0x002 } false true) { fw3 1 with x := 0x002 } vec c ∧ c.active ≠ 0 ∧ Fits c false 4 32 .general) ∧
    (let w := { fw3 2 with x := 0x002 }
     let g0 := cvtSig 0x101 w true (w.m == 0 || w.m == 4)
     ∃ c, Issues { g0 with fieldsOk := g0.fieldsOk && !(cvtFmt (bits w.x 9 5)).isInt && decide ((cvtFmt (bits w.x 4 0)).width < (cvtFmt (bits w.x 9 5)).width) } w vec c ∧
       c.active ≠ 0 ∧ Fits c false 4 32 .general) :=
  ⟨issues_of (by decide +kernel), issues_of (by decide +kernel)⟩
theorem wit_SpecialFunctions : ∀ r ∈ specialRows, ∃ c,
    Issues { floatSig r.2.1 (fw3 1) false false true with inS := false, mOk := true, d := .dstAny 32, a := .s (.float .f32) } (fw3 1) vec c ∧
      c.active ≠ 0 ∧ Fits c false 4 32 .general := by
  have h : specialRows.all (fun r => issuesB { floatSig r.2.1 (fw3 1) false false true with inS := false, mOk := true, d := .dstAny 32, a := .s (.float .f32) } (fw3 1) vec
      (fun c => decide (c.active ≠ 0 ∧ Fits c false 4 32 .general))) = true := by decide +kernel
  exact fun r hr => issues_of (List.all_eq_true.1 h r hr)
theorem wit_LaneExchange :
    (let w := { vw 0 with c := 6 }
     ∃ c, Issues (exchangeSig 0x182 w 0x07 true) w vec c ∧ c.partialWrite = false ∧ Fits c false 4 32 .general) ∧
    (let w := { vw 3 with c := 0x06 }
     ∃ c, Issues (exchangeSig 0x183 w 0xF7 (decide (bits w.c 7 4 < 11))) w vec c ∧ c.active ≠ 0 ∧ Fits c false 4 32 .general) ∧
    (let w := { mw with d := 4, a := 0, c := 1 }
     ∃ c, Issues { op := 0x184, inS := false, form := .perLane, d := .dst 32 isV, a := .s tN32, c := .form 0xF7,
                   mOk := decide (w.m.toNat < 2), fieldsOk := decide (bits w.c 7 4 < 11) } w vec c ∧ Fits c false 4 32 .general ∧ c.active ≠ 0) :=
  ⟨issues_of (by decide +kernel), issues_of (by decide +kernel), issues_of (by decide +kernel)⟩
theorem wit_PredicateReduceBallotShape :
    (∃ c, Issues { op := 0x180, inS := false, form := .perLane, d := .form 0x07, a := .form 0x07, mOk := true } { mw with d := 1, a := 2, m := 3 } vec c) ∧
    (∀ d ∈ [sr 4, 4], ∃ c, Issues { op := 0x181, inS := false, form := .byDest, d := .dstAny 64, a := .form 0x07, mOk := true } { mw with d := d, a := 2 } vec c ∧
       c.active ≠ 0 ∧ Fits c false d 64 .general) ∧
    (∀ d ∈ [sr 4, 4], ∃ c, Issues { op := 0x123, inS := false, form := .once, d := .dstAny 32, a := .src tN32 isV, mOk := true } { mw with d := d, a := 3, m := 2 } vec c ∧
       c.active ≠ 0 ∧ Fits c (isScalarReg d) d 32 .uniform) := by
  have h1 : [sr 4, 4].all (fun d => issuesB { op := 0x181, inS := false, form := .byDest, d := .dstAny 64, a := .form 0x07, mOk := true } { mw with d := d, a := 2 } vec
      (fun c => decide (c.active ≠ 0 ∧ Fits c false d 64 .general))) = true := by decide +kernel
  have h2 : [sr 4, 4].all (fun d => issuesB { op := 0x123, inS := false, form := .once, d := .dstAny 32, a := .src tN32 isV, mOk := true } { mw with d := d, a := 3, m := 2 } vec
      (fun c => decide (c.active ≠ 0 ∧ Fits c (isScalarReg d) d 32 .uniform))) = true := by decide +kernel
  exact ⟨issues_at (by decide +kernel), fun d hd => issues_of (List.all_eq_true.1 h1 d hd), fun d hd => issues_of (List.all_eq_true.1 h2 d hd)⟩
theorem wit_Quantisation :
    (let w : MainWord := { mw with d := 10, a := 4 }
     ∃ c, Issues { op := 0x120, inS := false, form := .perLane, d := .dst 32 isV, a := .s (.float .f32), b := bandUse w, mOk := true, imm := true } w quant c ∧
       Fits c false 10 32 .general) ∧
    (let w : MainWord := { mw with d := 10, a := 4, b := 8, c := sr 1, m := 5 }
     ∃ c, Issues { op := 0x121, inS := false, form := .perLane, d := .dst 32 isV, a := .s (.float .f32), b := .s tN32, c := bandUse w, mOk := true, imm := false } w quant c ∧
       Fits c false 10 32 .general ∧ c.active ≠ 0) ∧
    (let w : MainWord := { mw with d := 10, a := 9, b := 8 }
     ∃ c, Issues { op := 0x122, inS := false, form := .perLane, d := .dst 32 isV, a := .s tN32, b := .s tN32, c := bandUse w, mOk := true, imm := true } w quant c ∧
       Fits c false 10 32 .general) :=
  ⟨issues_of (by decide +kernel), issues_of (by decide +kernel), issues_of (by decide +kernel)⟩
/-- Whether a release or fence has nothing to wait for and nothing to report. -/
def readyB (x : Sync) : Bool :=
  match x with
  | .ready s => s.asked.isEmpty
  | _ => false
theorem readyB_ready {x : Sync} (h : readyB x = true) : ∃ s, x = .ready s ∧ s.asked = [] := by
  cases x <;> simp_all [readyB]
/-- Whether reads give values, and how many. -/
def readsB (x : ReadRes) (n : Nat) : Bool :=
  match x with
  | .ok s vs => vs.length == n && s.asked.isEmpty
  | _ => false
theorem readsB_some {x : ReadRes} {n : Nat} (h : readsB x n = true) : ∃ s vs, x = .ok s vs ∧ s.asked = [] := by
  cases x <;> simp_all [readsB]

theorem wit_Partition :
    let w : MainWord := { mw with d := 4, a := 5, b := 1, c := sr 1, m := 1 }
    let g : Sig := { op := 0x185, inS := false, form := .perLane, d := .dst 32 (fun c => isV c || c == 0xE0), a := .s tN32,
                     b := .s tN32, c := .src tN32 isScalarReg, mOk := true }
    ∃ c, Issues g w parts c ∧ (c.entry = c.live ∧ Fits c false 4 32 .general ∧ c.active ≠ 0 ∧ (g.opC c w).val 0 = 0 ∧ c.scratch.inside 0 48 = true ∧
      (∀ l ∈ List.range 64, (g.opA c w).poison l = false ∧ (g.opB c w).poison l = false ∧ (g.opC c w).poison l = false) ∧
      c.scratch.bytes.wf = true ∧ c.scratch.poison = [] ∧ c.scratch.absent = [] ∧ c.awaitsCommit = false ∧ c.team.pairs = List.replicate 8 none ∧
      (∀ o ∈ [0, 1], ∀ l ∈ List.range 64, (ofBytes (c.scratch.readBytes (16 + 4 * o) 4) + 4 * partPlace c (g.opA c w) (fun _ => 0) l) % 4 = 0 ∧
        c.scratch.inside ((ofBytes (c.scratch.readBytes (16 + 4 * o) 4) + 4 * partPlace c (g.opA c w) (fun _ => 0) l) % 2 ^ 32) 4 = true)) :=
  issues_of (by decide +kernel)
/-- A group whose marks in s10 name v1, with barriers of an expected count. -/
def reordered (n : Nat) : State := (vecS [(10, 2)]).modTeam 0 (fun t => { t with barriers := List.replicate 48 { bar0 with expected := n } })
theorem wit_Reorder :
    (let w : MainWord := { mw with d := 4, a := 5, b := sr 10 }
     let g : Sig := { op := 0x186, inS := false, form := .perLane, d := .dst 32 (fun c => isV c || c == 0xE0),
                      a := .src tN32 isV, b := .src tN64 maskPair, c := .form 0, mOk := true, reads := (reordered 0).reordReads w }
     ∃ c, Issues g w (reordered 0) c ∧ (c.entry = c.live ∧ c.live &&& (c.group.regs.v 5).poison = 0 ∧ (c.group.regs.s 10).value = 2 ∧
       (c.group.regs.v 1).shape = .general ∧ (c.group.regs.v 4).shape = .general)) ∧
    (let w : MainWord := { mw with d := 4, a := 5, b := sr 10, c := 3, m := 1 }
     let g : Sig := { op := 0x186, inS := false, form := .perLane, d := .dst 32 (fun c => isV c || c == 0xE0),
                      a := .src tN32 isV, b := .src tN64 maskPair, c := .form 0x3F, mOk := true, reads := (reordered 1).reordReads w }
     ∃ c, Issues g w (reordered 1) c ∧ (c.entry = c.live ∧ c.live &&& (c.group.regs.v 5).poison = 0 ∧ (c.group.regs.s 10).value = 2 ∧
       (c.group.regs.v 1).shape = .general ∧ (c.group.regs.v 4).shape = .general ∧ barMisuse (reordered 1) c 3 = false ∧
       3 < c.team.barriers.length ∧ c.group.reordAt ≠ some 3 ∧ c.group.reordFailed ≠ some 3 ∧
       (c.team.barrier 3).expected ≤ (c.team.barrier 3).arrivals + 1 ∧ (c.team.barrier 3).reord = [] ∧ c.team.groups = [c.group])) :=
  ⟨issues_of (by decide +kernel), issues_of (by decide +kernel)⟩
/-- The words of the rows of tile instructions, by how many operands they have. -/
def tw (k : Nat) : MainWord := { mw with d := 1, a := if k = 0 then 0 else 2, b := if k = 2 then sr 1 else 0 }
theorem wit_TileElements_elements : ∀ r ∈ tileRows, ∃ k ∈ [0, 1, 2], ∃ c, Issues (r.sig (tw k)) (tw k) small c ∧ TileReady small c := by
  have h : tileRows.all (fun r => [0, 1, 2].any (fun k => issuesB (r.sig (tw k)) (tw k) small (fun c => decide (TileReady small c)))) = true := by decide +kernel
  intro r hr
  obtain ⟨k, hk, hi⟩ := List.any_eq_true.1 (List.all_eq_true.1 h r hr)
  exact ⟨k, hk, issues_of hi⟩
theorem wit_TileMatrix :
    let w : MainWord := { mw with d := 1, a := sr 10, b := 4, m := 6, x := 0x806 }
    let s := vecM [] [] [(10, 0x2000000040), (11, 0)]
    ∃ c, Issues (tmmaSig s w) w s c ∧ (c.entry = c.live ∧ TileReady s c ∧ descReserved c w.a 0 = false ∧ descReserved c w.b 0 = false ∧
      descMisaligned c w.a 6 0 16 = none ∧ descMisaligned c w.b 6 0 16 = none ∧
      (∀ r ∈ (tmmaOperand c true w.a 6 0 16).ranges ++ (tmmaOperand c false w.b 6 0 16).ranges, c.scratch.inside r.1 r.2 = true) ∧
      c.scratch.absent = [] ∧ c.scratch.poison = []) := issues_of (by decide +kernel)
theorem wit_TileScratch :
    (let w : MainWord := { mw with d := 1, a := sr 1, b := sr 2, m := 1 }
     let s := tiled (fun _ _ => 0) [] [(1, 0x20), (2, 0x80)]
     ∃ c, Issues { op := 0x202, inS := false, d := tileUse, a := .src tN32 isUniform, b := .src tN32 isUniform, mOk := true, imm := true } w s c ∧
       (TileReady s c ∧ (∀ r ∈ List.range 16, c.scratch.inside (0x20 + r * 0x80) 128 = true) ∧ c.scratch.absent = [] ∧ c.scratch.poison = [])) ∧
    (let w : MainWord := { mw with d := 1, a := sr 1, b := sr 2, m := 1, pred := 1 }
     ∃ c, Issues { op := 0x202, inS := false, d := tileUse, a := .src tN32 isUniform, b := .src tN32 isUniform, mOk := true, imm := true } w vec c ∧ c.active = 0) ∧
    (let w : MainWord := { mw with d := 1, a := sr 1, b := sr 2, x := 3 }
     let s := tiled (fun _ _ => 0x3F800000) [] [(1, 0x20), (2, 0x80)]
     ∃ c, Issues { op := 0x203, inS := false, d := tileUse, a := .src tN32 isUniform, b := .src tN32 isUniform, mOk := true, xMask := 0x007, fieldsOk := true } w s c ∧
       (TileReady s c ∧ (∀ r ∈ List.range 16, c.scratch.inside (0x20 + r * 0x80) 64 = true) ∧ c.scratch.absent = [] ∧
        c.scratch.bytes.wf = true ∧ (c.group.regs.tile 1).poison = 0 ∧ fpstEnables c.group.regs.fpst = 0 ∧
        (c.group.regs.s 1).poison = false ∧ (c.group.regs.s 2).poison = false ∧ c.awaitsCommit = false)) :=
  ⟨issues_of (by decide +kernel), issues_of (by decide +kernel), issues_of (by decide +kernel)⟩
theorem wit_TileElements_rows :
    (∀ op ∈ [0x204, 0x205], ∃ c, Issues { op := op, inS := false, form := .perLane, d := tileDest, a := tileUse, mOk := true } { mw with d := 4, a := 1 } small c ∧
       (TileReady small c ∧ Fits c false 4 32 .general)) ∧
    (∃ c, Issues { op := 0x20A, inS := false, form := .perLane, d := tileDest, a := tileUse, b := .src tN32 isUniform, mOk := true, imm := true }
       { mw with d := 4, a := 1, b := sr 1 } small c ∧ (TileReady small c ∧ Fits c false 4 32 .general)) ∧
    (∃ c, Issues { op := 0x20B, inS := false, form := .perLane, d := tileUse, a := .s (.float .f32), b := .src tN32 isUniform, mOk := true, imm := true }
       { mw with d := 1, a := 1, b := sr 1 } small c ∧ (TileReady small c ∧ 1 < c.group.regs.tileSet.length)) := by
  have h : ([0x204, 0x205] : List (BitVec 10)).all (fun op => issuesB { op := op, inS := false, form := .perLane, d := tileDest, a := tileUse, mOk := true }
      { mw with d := 4, a := 1 } small (fun c => decide (TileReady small c ∧ Fits c false 4 32 .general))) = true := by decide +kernel
  exact ⟨fun op hop => issues_of (List.all_eq_true.1 h op hop), issues_of (by decide +kernel), issues_of (by decide +kernel)⟩

/-- Words of memory instructions with the base in s1 and data in s2. -/
def memWord : MainWord := { mw with d := sr 4, a := sr 1, m := 4 }
def loadWord (order : Nat) : MainWord := { memWord with x := BitVec.ofNat 12 (8 * order) }
def storeWord (x : BitVec 12) : MainWord := { mw with a := sr 1, b := sr 2, m := 4, x := x }
def mapped : State := vecG [5] [(1, 0x100), (2, 7)]
def reading (atomic : Bool) : CheckHow := { kind := .read, bytes := 4, atomic := atomic, own := atomic }
def writing : CheckHow := { kind := .write, bytes := 4, atomic := false, own := false }
/-- The checked accesses of a word. -/
def accesses (s : State) (c : Ctx) (how : CheckHow) (a : Opnd) (w : MainWord) : List LaneAccess × List LaneFault :=
  checkLanes s c.space how (effectiveAddress a w 4) (cleanLanes a (c.accessLanes true))
/-- A synchronisation's state. -/
def syncState (x : Sync) (s : State) : State :=
  match x with
  | .ready s1 => s1
  | _ => s
/-- The reads of a load of an order answer from the state behind the release part, as its statement has it. -/
def loads (c : Ctx) (s1 : State) (order : Nat) (atHome : Bool) (as : List LaneAccess) : Bool :=
  let s2 := if order = 0 then .ready (s1.touchLanes c .read 0 as)
    else (s1.touchLanes c .read 0 as).acquireReady c 0 (as.map (fun a => a.x.key))
  !(as.any (fun a => effectivePolicy a.x.pol 0 == 0) && s1.ownWrites c.tid c.gid) && readyB s2 &&
    readsB ((syncState s2 s1).readLanes c (fun a => a.how order 0 atHome) 4 as) 1
theorem wit_Load : ∀ order ∈ [0, 1, 4],
    let w := loadWord order
    (let g := loadSig 0x280 w false true
     ∃ c, Issues g w mapped c ∧ (xOrder w = order ∧ Fits c (g.scalarForm c.vector w) w.d 32 .uniform ∧ c.active ≠ 0 ∧
       readyB (mapped.before c order 0) = true ∧ (accesses mapped c (reading false) (g.opA c w) w).2.isEmpty = true ∧
       loads c (syncState (mapped.before c order 0) mapped) order false (accesses mapped c (reading false) (g.opA c w) w).1 = true)) ∧
    (let g := loadSig 0x302 w true true
     ∃ c, Issues g w mapped c ∧ (c.active ≠ 0 ∧ c.team.staging = false ∧ Fits c (g.scalarForm c.vector w) w.d 32 .uniform ∧
       readyB (mapped.before c order 0) = true ∧ (accesses mapped c (reading true) (g.opA c w) w).2.isEmpty = true ∧
       (let as := (accesses mapped c (reading true) (g.opA c w) w).1
        let ls := (as.map (fun x => lineOfKey x.x.key)).eraseDups
        let s1 := (syncState (mapped.before c order 0) mapped).linesReady c ls
        s1.linesFree c ls && loads c s1 order true as) = true)) := by
  have h : [0, 1, 4].all (fun order =>
      let w := loadWord order
      let g := loadSig 0x280 w false true
      let g2 := loadSig 0x302 w true true
      issuesB g w mapped (fun c => decide (xOrder w = order ∧ Fits c (g.scalarForm c.vector w) w.d 32 .uniform ∧ c.active ≠ 0 ∧
       readyB (mapped.before c order 0) = true ∧ (accesses mapped c (reading false) (g.opA c w) w).2.isEmpty = true ∧
       loads c (syncState (mapped.before c order 0) mapped) order false (accesses mapped c (reading false) (g.opA c w) w).1 = true)) &&
      issuesB g2 w mapped (fun c => decide (c.active ≠ 0 ∧ c.team.staging = false ∧ Fits c (g2.scalarForm c.vector w) w.d 32 .uniform ∧
       readyB (mapped.before c order 0) = true ∧ (accesses mapped c (reading true) (g2.opA c w) w).2.isEmpty = true ∧
       (let as := (accesses mapped c (reading true) (g2.opA c w) w).1
        let ls := (as.map (fun x => lineOfKey x.x.key)).eraseDups
        let s1 := (syncState (mapped.before c order 0) mapped).linesReady c ls
        s1.linesFree c ls && loads c s1 order true as) = true))) = true := by decide +kernel
  intro order ho
  obtain ⟨h1, h2⟩ := Bool.and_eq_true_iff.1 (List.all_eq_true.1 h order ho)
  exact ⟨issues_of h1, issues_of h2⟩
/-- The store of an order completes as its statement has it. -/
def storesB (c : Ctx) (w : MainWord) (s1 : State) (as : List (LaneAccess × List Byte)) (order : Nat) : Bool :=
  let p := s1.storeParts 0 as
  let touched := fun (s : State) => s.touchLanes c .write 0 (as.map (fun x => x.1))
  let lines := storeLines (p.rest ++ p.device)
  let s2 := lines.foldl (fun s l => s.drainLine c.unit l) s1
  let s4 := (touched s2).releaseStores c (xScope w) p
  let x := s4.settleStores c (xScope w) true
  if order = 0 then ((touched s1).relaxedStores c 0 p).any (fun s => s.asked.isEmpty)
  else s2.roomForKeys (durableKeys p.rest) && !lines.any (s2.holdsLine c.unit) && s2.deviceReady c p && s4.asked.isEmpty &&
    (order == 2 || (x.2.isNone && (x.1.heldFailures c).isEmpty &&
      (x.1.acquire c.tid c.gid c.group.coreIx (xScope w) c.unit false).asked.isEmpty))
theorem wit_Store : ∀ order ∈ [0, 2, 4],
    let w := storeWord (BitVec.ofNat 12 (8 * order + 1))
    let g := storeSig 0x281 .bySources .unused w false 5
    ∃ c, Issues g w mapped c ∧ (xOrder w = order ∧ c.guardPoison = 0 ∧ c.active ≠ 0 ∧ c.awaitsCommit = false ∧ c.stages = false ∧
      readyB (mapped.before c (storeOrder order) (xScope w)) = true ∧ (accesses mapped c writing (g.opA c w) w).2.isEmpty = true ∧
      (∀ l ∈ List.range 64, (g.opA c w).poison l = false ∧ (storeData g c w 4).opnd.poison l = false) ∧
      storesB c w (syncState (mapped.before c (storeOrder order) (xScope w)) mapped)
        ((accesses mapped c writing (g.opA c w) w).1.map (fun x => (x, (storeData g c w 4).bytes 4 x.lane))) order = true) := by
  have h : [0, 2, 4].all (fun order =>
      let w := storeWord (BitVec.ofNat 12 (8 * order + 1))
      let g := storeSig 0x281 .bySources .unused w false 5
      issuesB g w mapped (fun c => decide (xOrder w = order ∧ c.guardPoison = 0 ∧ c.active ≠ 0 ∧ c.awaitsCommit = false ∧ c.stages = false ∧
      readyB (mapped.before c (storeOrder order) (xScope w)) = true ∧ (accesses mapped c writing (g.opA c w) w).2.isEmpty = true ∧
      (∀ l ∈ List.range 64, (g.opA c w).poison l = false ∧ (storeData g c w 4).opnd.poison l = false) ∧
      storesB c w (syncState (mapped.before c (storeOrder order) (xScope w)) mapped)
        ((accesses mapped c writing (g.opA c w) w).1.map (fun x => (x, (storeData g c w 4).bytes 4 x.lane))) order = true))) = true := by decide +kernel
  exact fun x hx => issues_of (List.all_eq_true.1 h x hx)
/-- One of two bytes of a line that a group stores is forwarded; and bytes of a line that a write performs. -/
theorem wit_StoreForwarding :
    (let path := (next (exec (.st (storeWord 0)) mapped)).core vcore
     (path.combining.map (fun e => e.line)).Nodup ∧ path.combining.length = 1 ∧
     path.takes 0 0 [lineOfKey (memKey (peerOf .h0) 0x40000100)] = true) ∧
    (([(128, (1 : Byte)), (129, 2)]).map (fun x => x.1)).Nodup ∧ (∀ x ∈ [(128, (1 : Byte)), (129, 2)], lineOfKey x.1 = 1 ∧ x.1 / 128 = 1) ∧
    mapped.mem.wf = true ∧ localHome (keyHome (memKey (peerOf .h0) 0x40000100)) = true := by decide +kernel
/-- Behind an STS of an order, what its statement asks for; nothing stands in the core's path. -/
def stored (s : State) (c : Ctx) (w : MainWord) : Bool :=
  let b := s.before c (storeOrder (xOrder w)) 0
  let x := (syncState b s).settleStores c 0 true
  readyB b && (xOrder w != 4 || (x.2.isNone && (x.1.heldFailures c).isEmpty))
theorem wit_ScratchAndConstants :
    (let w : MainWord := { mw with d := 4, a := 5, m := 4 }
     let s := vecM [] [(5, gen (fun l => 4 * l))] []
     let g : Sig := { op := 0x290, inS := false, form := .byDest, d := .dst 32 anyCode, a := scratchUse, c := offsetUse, memory := true, mOk := true, xMask := 0x03F, fieldsOk := true }
     ∃ c, Issues g w s c ∧ (Fits c false 4 32 .general ∧ c.active ≠ 0 ∧
       ∀ l ∈ cleanLanes (g.opA c w) (c.accessLanes false), scratchAddress (g.opA c w) 0 l % 4 = 0 ∧ c.scratch.inside (scratchAddress (g.opA c w) 0 l) 4 = true)) ∧
    (∀ x ∈ [0x000, 0x010, 0x020],
     let w : MainWord := { mw with a := 5, b := 1, m := 4, x := x }
     let s := vecM [] [(5, gen (fun l => 4 * l))] []
     let g : Sig := { op := 0x291, inS := false, form := .bySources, a := scratchUse, b := .s (widthTy 4), c := offsetUse, memory := true, mOk := true, xMask := 0x03F, fieldsOk := true }
     ∃ c, Issues g w s c ∧ (c.guardPoison = 0 ∧ (∀ l ∈ List.range 64, (g.opA c w).poison l = false ∧ (storeData g c w 4).opnd.poison l = false) ∧
       c.active ≠ 0 ∧ c.awaitsCommit = false ∧ stored s c w = true ∧
       ∀ l ∈ c.accessLanes false, scratchAddress (g.opA c w) 0 l % 4 = 0 ∧ c.scratch.inside (scratchAddress (g.opA c w) 0 l) 4 = true)) ∧
    (let w : MainWord := { mw with d := 4, a := 2, b := 5, m := 4 }
     let s := vecM [] [(5, gen (fun l => 4 * l))] []
     let g : Sig := { op := 0x292, inS := false, form := .byDest, d := .dst 32 anyCode, a := .form 0x03, b := .s tN32, c := offsetUse, memory := true, mOk := true }
     ∃ c, Issues g w s c ∧ (Fits c false 4 32 .general ∧ c.active ≠ 0 ∧ ∀ l ∈ c.accessLanes false, scratchAddress (g.opB c w) 0 l % 4 = 0)) := by
  refine ⟨issues_of (by decide +kernel), ?_, issues_of (by decide +kernel)⟩
  have h : ([0x000, 0x010, 0x020] : List (BitVec 12)).all (fun x =>
     let w : MainWord := { mw with a := 5, b := 1, m := 4, x := x }
     let s := vecM [] [(5, gen (fun l => 4 * l))] []
     let g : Sig := { op := 0x291, inS := false, form := .bySources, a := scratchUse, b := .s (widthTy 4), c := offsetUse, memory := true, mOk := true, xMask := 0x03F, fieldsOk := true }
     issuesB g w s (fun c => decide (c.guardPoison = 0 ∧ (∀ l ∈ List.range 64, (g.opA c w).poison l = false ∧ (storeData g c w 4).opnd.poison l = false) ∧
       c.active ≠ 0 ∧ c.awaitsCommit = false ∧ stored s c w = true ∧
       ∀ l ∈ c.accessLanes false, scratchAddress (g.opA c w) 0 l % 4 = 0 ∧ c.scratch.inside (scratchAddress (g.opA c w) 0 l) 4 = true))) = true := by decide +kernel
  exact fun x hx => issues_of (List.all_eq_true.1 h x hx)

/-- The words of the access rows: one with a destination and no data, a store, and those with both. -/
def accessWord (k : Nat) : MainWord :=
  if k = 0 then memWord else if k = 1 then storeWord 0 else if k = 2 then { memWord with b := sr 2 }
  else if k = 3 then { mw with d := sr 4, a := sr 1, b := sr 2 } else { mw with d := sr 4, a := sr 1, b := sr 2, c := sr 3 }
/-- Whether an instruction answers a next state. -/
def nextB (r : Host.Outcome State Fault Refusal) : Bool :=
  match r with
  | .next _ => true
  | _ => false
/-- Whether an instruction of the boot group has gone on to the word behind it. -/
def gone (r : Host.Outcome State Fault Refusal) : Bool := pcOf r == some 0x2008
theorem nextB_some {r : Host.Outcome State Fault Refusal} (h : nextB r = true) : ∃ t, r = .next t := by
  cases r <;> simp_all [nextB]
theorem wit_MemoryFrame : mapped.mem.wf = true ∧ ∀ r ∈ accessRows, ∃ k ∈ [0, 1, 2, 3, 4], ∃ c, Issues (r.sig (accessWord k)) (accessWord k) mapped c ∧
    ((accessWord k).x.getLsbD 11 = false ∧ c.team.mode = .plain ∧ c.team.twin = none ∧ c.origin ≠ 0x50 ∧ c.group.failures = [] ∧
     (∀ a ∈ (checkLanes mapped c.space (r.how (accessWord k)) (r.address (r.sig (accessWord k)) c (accessWord k)) [0]).1, (mapped.queueRegister a.x.key).isNone = true) ∧
     nextB (exec (r.make (accessWord k)) mapped) = true) := by
  have h : accessRows.all (fun r => [0, 1, 2, 3, 4].any (fun k => issuesB (r.sig (accessWord k)) (accessWord k) mapped (fun c => decide
    ((accessWord k).x.getLsbD 11 = false ∧ c.team.mode = .plain ∧ c.team.twin = none ∧ c.origin ≠ 0x50 ∧ c.group.failures = [] ∧
     (∀ a ∈ (checkLanes mapped c.space (r.how (accessWord k)) (r.address (r.sig (accessWord k)) c (accessWord k)) [0]).1, (mapped.queueRegister a.x.key).isNone = true) ∧
     nextB (exec (r.make (accessWord k)) mapped) = true)))) = true := by decide +kernel
  refine ⟨by decide +kernel, fun r hr => ?_⟩
  obtain ⟨k, hk, hi⟩ := List.any_eq_true.1 (List.all_eq_true.1 h r hr)
  exact ⟨k, hk, issues_of hi⟩
/-- Atomic words: memory relaxed and seq-cst, and the scratchpad. -/
def atomWord (k : Nat) (x : BitVec 12) : MainWord := { mw with d := sr 4, a := sr 1, b := sr 2, c := if k = 0 then 0 else sr 3, x := x }
/-- The clean operands and the checked access of an atomic on memory, with what it waits for gone and, of a seq-cst form, nothing
behind it to wait for. -/
def atomReady (r : AtomRow) (w : MainWord) (s : State) (c : Ctx) : Bool :=
  let g := r.sig w false
  let b := s.before c (xOrder w) 0
  let as := checkLanes s c.space { kind := .rmw, bytes := 4, atomic := true, own := false } (fun l => (g.opA c w).val l + r.offset w) [0]
  let lines := (as.1.map (fun a => lineOfKey a.x.key)).eraseDups
  let s1 := ((syncState b s).touchLanes c .rmw 0 as.1).linesReady c lines
  readyB b && as.2.isEmpty && s1.linesFree c lines && s1.roomForKeys (wordKeys 4 as.1) &&
    readyB (s1.acquireReady c 0 (as.1.map (fun a => a.x.key))) &&
    (List.range 64).all (fun l => !(g.opA c w).poison l && !poisonOf (r.ops g c w) l)
theorem wit_Atomics : ∀ r ∈ atomRows, ∃ k ∈ [0, 1],
    (∀ x ∈ [0x000, 0x020], ∃ c, Issues (r.sig (atomWord k x) false) (atomWord k x) mapped c ∧
      (c.active ≠ 0 ∧ c.guardPoison = 0 ∧ c.team.staging = false ∧ Fits c true (sr 4) 32 .general ∧ atomReady r (atomWord k x) mapped c = true ∧
       gone (exec (r.make (atomWord k x)) mapped) = true)) ∧
    (∃ c, Issues (r.sig (atomWord k 0x800) true) (atomWord k 0x800) mapped c ∧
      (c.active ≠ 0 ∧ c.guardPoison = 0 ∧ c.team.staging = false ∧ c.scratch.inside 0x100 4 = true ∧ c.absentLine [0x100] 4 = none)) := by
  have h : atomRows.all (fun r => [0, 1].any (fun k =>
    ([0x000, 0x020] : List (BitVec 12)).all (fun x => issuesB (r.sig (atomWord k x) false) (atomWord k x) mapped (fun c => decide
      (c.active ≠ 0 ∧ c.guardPoison = 0 ∧ c.team.staging = false ∧ Fits c true (sr 4) 32 .general ∧ atomReady r (atomWord k x) mapped c = true ∧
       gone (exec (r.make (atomWord k x)) mapped) = true))) &&
    issuesB (r.sig (atomWord k 0x800) true) (atomWord k 0x800) mapped (fun c => decide
      (c.active ≠ 0 ∧ c.guardPoison = 0 ∧ c.team.staging = false ∧ c.scratch.inside 0x100 4 = true ∧ c.absentLine [0x100] 4 = none)))) = true := by decide +kernel
  intro r hr
  obtain ⟨k, hk, hi⟩ := List.any_eq_true.1 (List.all_eq_true.1 h r hr)
  rw [Bool.and_eq_true] at hi
  exact ⟨k, hk, fun x hx => issues_of (List.all_eq_true.1 hi.1 x hx), issues_of hi.2⟩
/-- A word that one lane's read-modify-write may take: no write of the hub is on its way to its line. -/
theorem wit_Atomics_lane : ∃ c, Issues (atomSig (atomWord 0 0) false) (atomWord 0 0) mapped c ∧
    (mapped.linkError c.hub (peerOf .h0) = none ∧ memKey (peerOf .h0) 0x40000100 % 128 + 4 ≤ 128 ∧
     mapped.pendingWrites c.hub (lineOfKey (memKey (peerOf .h0) 0x40000100)) = [] ∧ mapped.mem.wf = true) := issues_of (by decide +kernel)
/-- What an STC waits for is gone, and of a seq-cst form nothing stands behind it. -/
def condReady (w : MainWord) (s : State) (c : Ctx) : Bool :=
  let g := storeSig 0x303 .byDest (.dstAny 32) w true 6
  let b := s.before c (storeOrder (xOrder w)) 0
  let r := checkLanes s c.space { kind := .write, bytes := 4, atomic := true, own := true } (effectiveAddress (g.opA c w) w 4) [0]
  let as := r.1.map (fun x => (x, (storeData g c w 4).bytes 4 x.lane))
  let s1 := (syncState b s).linesReady c (storeLines as)
  readyB b && r.2.isEmpty && s1.linesFree c (storeLines as) && s1.roomForKeys (durableKeys as) && !(as.any (fun p => effectivePolicy p.1.x.pol 0 == 0) && s1.ownWrites c.tid c.gid) &&
    (List.range 64).all (fun l => !(g.opA c w).poison l && !(storeData g c w 4).opnd.poison l)
theorem wit_Reservations : ∀ x ∈ [0x000, 0x020],
    let w : MainWord := { memWord with b := sr 2, x := x }
    let g := storeSig 0x303 .byDest (.dstAny 32) w true 6
    ∃ c, Issues g w reserved c ∧ (c.active ≠ 0 ∧ c.guardPoison = 0 ∧ c.team.staging = false ∧ Fits c true (sr 4) 32 .general ∧ condReady w reserved c = true ∧
      sOf 4 (exec (.stc w) reserved) = some 0) := by
  have h : ([0x000, 0x020] : List (BitVec 12)).all (fun x =>
    let w : MainWord := { memWord with b := sr 2, x := x }
    let g := storeSig 0x303 .byDest (.dstAny 32) w true 6
    issuesB g w reserved (fun c => decide (c.active ≠ 0 ∧ c.guardPoison = 0 ∧ c.team.staging = false ∧ Fits c true (sr 4) 32 .general ∧ condReady w reserved c = true ∧
      sOf 4 (exec (.stc w) reserved) = some 0))) = true := by
    decide +kernel
  exact fun x hx => issues_of (List.all_eq_true.1 h x hx)
/-- A range in s1 and s2. -/
def rangeWord : MainWord := { mw with a := sr 1, b := sr 2 }
theorem wit_Maintenance :
    (∃ c, Issues { op := 0x282, form := .bySources, a := addressUse, c := offsetUse, memory := true, mOk := true, xMask := 0x1C0, fieldsOk := true } { mw with a := sr 1 } mapped c) ∧
    (∀ op ∈ [0x283, 0x284, 0x285], ∃ c, Issues (maintSig op 3 rangeWord) rangeWord mapped c ∧ (c.active ≠ 0 ∧ c.namesAsk mapped ((maintSig op 3 rangeWord).opA c rangeWord |>.val 0) ((maintSig op 3 rangeWord).opB c rangeWord |>.val 0) = none)) ∧
    (∃ c, Issues (maintSig 0x284 5 { mw with a := sr 1, b := sr 2, x := 3 }) { mw with a := sr 1, b := sr 2, x := 3 } State.reset c ∧ c.active ≠ 0) ∧
    (∃ c, Issues { op := 0x286, mOk := true } mw vec c ∧ vec.maintaining c.unit c.tid c.gid = false) := by
  have h : ([0x283, 0x284, 0x285] : List (BitVec 10)).all (fun op => issuesB (maintSig op 3 rangeWord) rangeWord mapped (fun c => decide (c.active ≠ 0 ∧ c.namesAsk mapped ((maintSig op 3 rangeWord).opA c rangeWord |>.val 0) ((maintSig op 3 rangeWord).opB c rangeWord |>.val 0) = none))) = true := by decide +kernel
  exact ⟨issues_at (by decide +kernel), fun op hop => issues_of (List.all_eq_true.1 h op hop), issues_of (by decide +kernel), issues_of (by decide +kernel)⟩
theorem wit_Fences :
    (∃ c, Issues { op := 0x304, mOk := true, xMask := 0x03F, fieldsOk := true } { mw with x := 0x022 } mapped c ∧
      (c.active ≠ 0 ∧ (mapped.settleStores c 2 true).2 = none ∧ (mapped.settleStores c 2 true).1.heldFailures c = [] ∧ (mapped.settleStores c 2 true).1.asked = [])) ∧
    (∃ c, Issues { op := 0x305, mOk := true, xMask := 0x007, fieldsOk := true } { mw with x := 6 } mapped c ∧
      (c.active ≠ 0 ∧ c.team.staging = false ∧ (mapped.settleStores c 5 true).2 = none ∧ (mapped.settleStores c 5 true).1.heldFailures c = [] ∧ (mapped.settleStores c 5 true).1.asked = [])) :=
  ⟨issues_of (by decide +kernel), issues_of (by decide +kernel)⟩
/-- A machine whose registers hold a copy's operands and a window's descriptor. -/
def copying : State := vecS [(1, 0x100), (2, 0x40), (3, 256), (4, 0x1000), (5, 0x8000000080), (6, 0x100), (7, 0x2000040)]
theorem wit_Copies :
    (∃ c, Issues { op := 0x293, inS := false, d := .form 0x7F, a := .src tN64 isUniform, b := .src tN32 isUniform, c := .src tN32 countCode, mOk := true, xMask := 0x1C0, fieldsOk := true }
       { mw with a := sr 1, b := sr 2, c := sr 3 } copying c ∧
       (c.active ≠ 0 ∧ c.awaitsCommit = false ∧ copying.copyFull c = false ∧ c.scratch.inside 0x40 256 = true ∧ c.guardPoison = 0 ∧
        ∀ n ∈ List.range 8, (c.group.regs.s n).poison = false)) ∧
    (∃ c, Issues { op := 0x294, inS := false, d := .form 0x7F, a := .src tN64 windowCode, b := .src tN32 (fun x => x == 0xE0), mOk := true, xMask := 0x1C0, fieldsOk := true }
       { mw with a := sr 4, b := zr } copying c ∧
       (c.active ≠ 0 ∧ copying.copyFull c = false ∧ c.awaitsCommit = false ∧ c.guardPoison = 0 ∧ (∀ n ∈ List.range 8, (c.group.regs.s n).poison = false) ∧
        bits (c.group.regs.s 7).value 63 48 = 0 ∧ bits (c.group.regs.s 7).value 23 0 = 64 ∧ bits (c.group.regs.s 7).value 47 24 = 2 ∧
        ∀ i ∈ [0, 1], c.scratch.inside (0x80 + 128 * i) 64 = true)) :=
  ⟨issues_of (by decide +kernel), issues_of (by decide +kernel)⟩
theorem wit_PairedBuffers :
    (∃ c, Issues { op := 0x295, inS := false, a := .src tN32 isUniform, b := .src tN32 isUniform, c := .form 0x07, mOk := true } { mw with a := sr 1, b := sr 2, c := 3 }
       (vecS [(1, 0x80), (2, 0x100)]) c ∧ (c.active ≠ 0 ∧ c.scratch.inside 0x80 0x200 = true ∧ c.team.pairOverlap 3 0x80 0x100 = false ∧ c.team.pair 3 = none)) ∧
    (∀ m ∈ [1, 2], ∃ c, Issues { op := 0x295, inS := false, c := .form 0x07, mOk := true } { mw with c := 3, m := m } paired c ∧ (c.active ≠ 0 ∧ (c.team.pair 3).isSome = true ∧ c.team.copies = [] ∧ paired.maintaining c.unit c.tid c.gid = false)) := by
  have h : [1, 2].all (fun m => issuesB { op := 0x295, inS := false, c := .form 0x07, mOk := true } { mw with c := 3, m := m } paired
    (fun c => decide (c.active ≠ 0 ∧ (c.team.pair 3).isSome = true ∧ c.team.copies = [] ∧ paired.maintaining c.unit c.tid c.gid = false))) = true := by decide +kernel
  exact ⟨issues_of (by decide +kernel), fun m hm => issues_of (List.all_eq_true.1 h m hm)⟩
theorem wit_Barriers :
    (∃ c, Issues (barSig 0x310 .unused (.src tN32 isUniform) { mw with a := sr 1, c := 3 }) { mw with a := sr 1, c := 3 } (vecS [(1, 1024)]) c ∧
       (c.active ≠ 0 ∧ barMisuse (vecS [(1, 1024)]) c 3 = false ∧ (c.team.barrier 3).arrivals = 0 ∧ (c.group.regs.s 1).value = 1024)) ∧
    (∀ op ∈ [0x311, 0x312, 0x313], ∃ c, Issues (barSig op .unused .unused { mw with c := 3 }) { mw with c := 3 } (expecting 1) c ∧
       (c.active ≠ 0 ∧ barMisuse (expecting 1) c 3 = false ∧ c.team.opening 3 = false ∧ readyB ((expecting 1).release c 1 false) = true ∧ (c.team.barrier 3).reord = [] ∧
        (expecting 1).team? c.tid = some c.team ∧ c.team.group? c.gid = some c.group)) ∧
    (∃ c, Issues (barSig 0x314 (.dst 64 statusCode) .unused { mw with d := sr 4, c := 3 }) { mw with d := sr 4, c := 3 } (expecting 1) c ∧ (c.active ≠ 0 ∧ barMisuse (expecting 1) c 3 = false)) ∧
    (∃ t ∈ (expecting 2).teams, (expecting 2).team? t.id = some t ∧ t.mode = .plain ∧ (t.barrier 3).reord = [] ∧ 3 < t.barriers.length) := by
  have h : ([0x311, 0x312, 0x313] : List (BitVec 10)).all (fun op => issuesB (barSig op .unused .unused { mw with c := 3 }) { mw with c := 3 } (expecting 1) (fun c => decide
       (c.active ≠ 0 ∧ barMisuse (expecting 1) c 3 = false ∧ c.team.opening 3 = false ∧ readyB ((expecting 1).release c 1 false) = true ∧ (c.team.barrier 3).reord = [] ∧
        (expecting 1).team? c.tid = some c.team ∧ c.team.group? c.gid = some c.group))) = true := by decide +kernel
  exact ⟨issues_of (by decide +kernel), fun op hop => issues_of (List.all_eq_true.1 h op hop), issues_of (by decide +kernel), by decide +kernel⟩

theorem wit_ControlTransfers :
    (∀ op ∈ [0x340], ∃ c, Issues { op := op, mOk := true } mw vec c) ∧
    (∃ c, Issues { op := 0x341, d := .form 0xFF, b := .form 0xFF, mOk := true, branch := true } { mw with d := 7, b := 255, c := 0xFE, x := 0xFFF } vec c ∧ c.guardPoison = 0) ∧
    (∃ c, Issues { op := 0x342, d := .form 0xFF, a := .src tN64 isAddress, b := .form 0xFF, mOk := true } { mw with a := 6 } vec c ∧ c.guardPoison = 0) ∧
    (∃ c, Issues { op := 0x343, d := .form 0xFF, a := .dstAny 64, b := .form 0xFF, mOk := true, branch := true } { mw with a := 6, c := 10 } vec c ∧
       (c.guardPoison = 0 ∧ c.pos.depth ≠ 255 ∧ Fits c false 6 64 .uniform)) ∧
    (∃ c, Issues { op := 0x344, d := .form 0xFF, a := .src tN64 isAddress, b := .form 0xFF, c := .dstAny 64, mOk := true } { mw with a := 6, c := sr 22 } vec c ∧
       (c.guardPoison = 0 ∧ c.pos.depth ≠ 255 ∧ Fits c false (sr 22) 64 .uniform)) ∧
    (∃ c, Issues { op := 0x345, a := .s tN64, b := .form 0xFF, mOk := true, imm := true } { mw with a := sr 22 } (next (exec (.call { mw with a := sr 22, c := 10 }) vec)) c ∧
       (c.guardPoison = 0 ∧ c.active ≠ 0 ∧ c.pos.depth ≠ 0)) ∧
    ((0x2008 : Dword).toNat % 4 = 0 ∧ sextDword 57 0x2008 = 0x2008) := by
  have h : ([0x340] : List (BitVec 10)).all (fun op => issuesB { op := op, mOk := true } mw vec (fun _ => true)) = true := by decide +kernel
  exact ⟨fun op hop => issues_at (List.all_eq_true.1 h op hop), issues_of (by decide +kernel), issues_of (by decide +kernel), issues_of (by decide +kernel),
    issues_of (by decide +kernel), issues_of (by decide +kernel), by decide +kernel⟩
theorem wit_ExitYieldLoop :
    (∃ c, Issues { op := 0x346, mOk := true } mw vec c ∧ (c.guardPoison = 0 ∧ c.team.cls ≠ .scalar)) ∧
    (∃ c, Issues { op := 0x347, b := .form 0xFF, mOk := true } { mw with b := 255 } vec c ∧ c.guardPoison = 0) ∧
    (∀ n ∈ [(0 : Dword), 2], ∃ c, Issues { op := 0x348, inV := false, a := .src tN32 loopCount, mOk := true, branch := true } { mw with a := sr 1, c := 4 } (scal .task [(1, n)]) c ∧
       (c.guardPoison = 0 ∧ c.active ≠ 0 ∧ c.group.ldep < 3 ∧ (c.group.ldep ≠ 0 → False) ∧ (c.group.regs.s 1).value = n)) ∧
    (∃ v : LoopLevel, (looped.group? 0 0).map (fun g => g.loops[0]?) = some (some v) ∧ v.lend = 16 ∧ v.body 8 = true ∧ 1 < v.cnt.toNat) := by
  have h : ([0, 2] : List Dword).all (fun n => issuesB { op := 0x348, inV := false, a := .src tN32 loopCount, mOk := true, branch := true } { mw with a := sr 1, c := 4 } (scal .task [(1, n)])
       (fun c => decide (c.guardPoison = 0 ∧ c.active ≠ 0 ∧ c.group.ldep < 3 ∧ (c.group.ldep ≠ 0 → False) ∧ (c.group.regs.s 1).value = n))) = true := by decide +kernel
  exact ⟨issues_of (by decide +kernel), issues_of (by decide +kernel), fun n hn => issues_of (List.all_eq_true.1 h n hn),
    ⟨{ cnt := 2, sta := 8, lend := 16 }, by decide +kernel⟩⟩
theorem wit_CompletionFrame : ∃ c, Issues { op := 0x340, mOk := true } mw vec c ∧
    (vec.team? c.tid = some c.team ∧ c.team.group? c.gid = some c.group ∧ c.group.profile = .V) := issues_of (by decide +kernel)
/-- A group whose v2 and v3 are declared uniform, and whose p1 holds in four lanes. -/
def declared : State := vecWith id { vgroup with regs := { vgroup.regs with
  vregs := [gen id, gen (fun l => 2 * l + 1), { store := .uniform 5, poison := 0 }, { store := .uniform 5, poison := 0 }] ++ List.replicate 12 (gen (fun _ => 0))
  preds := vgroup.regs.preds.set 0 0xF } }
/-- Words among which each row of the statement has one that violates the shape of v2. -/
def shapeWords : List MainWord :=
  [{ mw with d := 2 }, { mw with d := 2, pred := 1 }, { mw with d := 2, c := sr 1 }, { mw with d := 2, b := zr }, { mw with d := 2, m := 4 },
   { mw with d := 2, pred := 1, a := 2 }, { mw with d := 2, pred := 1, a := zr, c := 2 }, { mw with d := 2, x := 2 }]
theorem wit_ShapePrivilegeProfile_shapes : ∀ r ∈ shapeRowsInt ++ shapeRowsFloat ++ shapeRowsLane ++ shapeRowsMemory, ∃ w ∈ shapeWords, ∃ c,
    Issues (r.sig w) w declared c ∧ (r.ready c w = true ∧ r.scalar (r.sig w) c w = false ∧
      (destRegs (r.code w) (r.width w)).find? (fun n => decide ((c.group.regs.v n).shape.code < (r.shape (r.sig w) c w).code)) = some 2) := by
  have h : (shapeRowsInt ++ shapeRowsFloat ++ shapeRowsLane ++ shapeRowsMemory).all (fun r => shapeWords.any (fun w => issuesB (r.sig w) w declared (fun c => decide
      (r.ready c w = true ∧ r.scalar (r.sig w) c w = false ∧
      (destRegs (r.code w) (r.width w)).find? (fun n => decide ((c.group.regs.v n).shape.code < (r.shape (r.sig w) c w).code)) = some 2)))) = true := by decide +kernel
  intro r hr
  obtain ⟨w, hw, h⟩ := List.any_eq_true.1 (List.all_eq_true.1 h r hr)
  exact ⟨w, hw, issues_of h⟩
theorem wit_ShapePrivilegeProfile :
    (∃ c, vec.ctx mw = some c ∧ c.vector = true ∧ c.kernel = false) ∧ (∃ c, State.reset.ctx mw = some c ∧ c.vector = false ∧ c.kernel = true) := by
  refine ⟨?_, ?_⟩
  · obtain ⟨c, h, hp⟩ := issues_of (P := fun c => c.vector = true ∧ c.kernel = false) (g := { op := 0x340, mOk := true }) (w := mw) (s := vec) (by decide +kernel)
    exact ⟨c, h.1, hp⟩
  · obtain ⟨c, h, hp⟩ := issues_of (P := fun c => c.vector = false ∧ c.kernel = true) (g := { op := 0x340, mOk := true }) (w := mw) (s := State.reset) (by decide +kernel)
    exact ⟨c, h.1, hp⟩
theorem wit_TrapInstructions : ∀ r ∈ [(0x380, 0x0A), (0x381, 0x0B)], ∃ c,
    Issues { op := BitVec.ofNat 10 r.1, a := uniformSource, mOk := true, imm := true } { mw with a := sr 1 } vec c ∧ c.active ≠ 0 := by
  have h : ([(0x380, 0x0A), (0x381, 0x0B)] : List (Nat × Nat)).all (fun r =>
    issuesB { op := BitVec.ofNat 10 r.1, a := uniformSource, mOk := true, imm := true } { mw with a := sr 1 } vec (fun c => decide (c.active ≠ 0))) = true := by decide +kernel
  exact fun r hr => issues_of (List.all_eq_true.1 h r hr)
/-- A handler's group, with and without staged records. -/
def handling : State := next (exec (.trap { mw with a := sr 1 }) vec)
def restaged : State := handling.modGroup 0 0 (fun g => { g with
  staged := some (List.replicate 64 { pos := { pc := 0x3000, pri := 1, depth := 2 }, live := true }), trap := { g.trap with rstg := true } })
theorem wit_TrapEntryAndReturn :
    (∃ t ∈ vec.teams, ∃ g ∈ t.groups, vec.team? t.id = some t ∧ t.group? g.gid = some g) ∧
    (∃ c, Issues { op := 0x382, privileged := true, mOk := true, fieldsOk := true } mw handling c ∧
      (c.entry = c.group.current ∧ c.group.profile = .V ∧ handling.team? c.tid = some c.team ∧ c.team.group? c.gid = some c.group ∧ c.group.trap.plvl = .task ∧ c.group.trap.rstg = false)) ∧
    (∃ c, Issues { op := 0x382, privileged := true, mOk := true, fieldsOk := true } mw restaged c ∧
      (c.entry = c.group.current ∧ c.group.trap.rstg = true ∧ c.group.staged.isSome = true)) :=
  ⟨by decide +kernel, issues_of (by decide +kernel), issues_of (by decide +kernel)⟩

/-- Control registers at kernel level, on a scalar core, on a vector core and on a control core. -/
def crWord (n : BitVec 12) : MainWord := { mw with d := sr 4, a := 0, x := n }
def crSet (n : BitVec 12) : MainWord := { mw with a := sr 1, x := n }
def kctl (regs : List (Nat × Dword)) (pre : Option Dword) : State := (ctl id regs).modGroup 1 0 (fun g => { g with
  trap := TrapRegs.clear .kernel, kernelLanes := 1, preemptedAt := pre, handling := pre.map (fun _ => 0x70) })
theorem wit_ControlRegisters :
    (∀ n ∈ [0x000, 0x006, 0x040], ∃ c, Issues (mfcrSig (scal .kernel []) (crWord n)) (crWord n) (scal .kernel []) c ∧ c.active ≠ 0) ∧
    (∀ n ∈ [0x000, 0x001, 0x002, 0x003, 0x004, 0x005, 0x006, 0x007, 0x008, 0x009, 0x00A, 0x00B, 0x00D, 0x00E, 0x010, 0x011, 0x012, 0x013, 0x014, 0x020, 0x021, 0x022, 0x024, 0x025, 0x026, 0x028, 0x029, 0x02A, 0x02C],
      ∃ c, Issues (mtcrSig (scal .kernel [(1, 5)]) (crSet n)) (crSet n) (scal .kernel [(1, 5)]) c ∧
        (c.active ≠ 0 ∧ readyB ((scal .kernel [(1, 5)]).release c 3 false) = true ∧ c.group.loops.length = 3)) ∧
    (∃ c, Issues (mtcrSig (kctl [] none) (crSet 0x063)) (crSet 0x063) (kctl [] none) c ∧ (c.active ≠ 0 ∧ (c.group.regs.s 1).value = 0)) ∧
    (∀ n ∈ [0x060, 0x061, 0x062], ∃ c, Issues (mtcrSig (kctl [] none) (crSet n)) (crSet n) (kctl [] none) c ∧
        (c.active ≠ 0 ∧ c.team.cluster.isSome = true ∧ (bankBytes 0).all bankByteOk = true ∧ c.team.cluster.any (fun k => k.formatsFree false 0) = true)) ∧
    (∃ c, Issues (mtcrSig (kctl [(1, 1)] (some 0)) (crSet 0x063)) (crSet 0x063) (kctl [(1, 1)] (some 0)) c ∧ (c.active ≠ 0 ∧ c.group.handling.isSome = true)) := by
  have h1 : ([0x000, 0x006, 0x040] : List (BitVec 12)).all (fun n => issuesB (mfcrSig (scal .kernel []) (crWord n)) (crWord n) (scal .kernel []) (fun c => decide (c.active ≠ 0))) = true := by
    decide +kernel
  have h2 : ([0x000, 0x001, 0x002, 0x003, 0x004, 0x005, 0x006, 0x007, 0x008, 0x009, 0x00A, 0x00B, 0x00D, 0x00E, 0x010, 0x011, 0x012, 0x013, 0x014, 0x020, 0x021, 0x022, 0x024, 0x025, 0x026, 0x028, 0x029, 0x02A, 0x02C] : List (BitVec 12)).all
    (fun n => issuesB (mtcrSig (scal .kernel [(1, 5)]) (crSet n)) (crSet n) (scal .kernel [(1, 5)]) (fun c => decide
      (c.active ≠ 0 ∧ readyB ((scal .kernel [(1, 5)]).release c 3 false) = true ∧ c.group.loops.length = 3))) = true := by decide +kernel
  have h3 : ([0x060, 0x061, 0x062] : List (BitVec 12)).all (fun n => issuesB (mtcrSig (kctl [] none) (crSet n)) (crSet n) (kctl [] none) (fun c => decide
        (c.active ≠ 0 ∧ c.team.cluster.isSome = true ∧ (bankBytes 0).all bankByteOk = true ∧ c.team.cluster.any (fun k => k.formatsFree false 0) = true))) = true := by
    decide +kernel
  exact ⟨fun n hn => issues_of (List.all_eq_true.1 h1 n hn), fun n hn => issues_of (List.all_eq_true.1 h2 n hn), issues_of (by decide +kernel), fun n hn => issues_of (List.all_eq_true.1 h3 n hn),
    issues_of (by decide +kernel)⟩
/-- What a TLBI waits for is over. -/
def tlbiReady (c : Ctx) (w : MainWord) : Bool :=
  let x := (scal .kernel []).settleStores c (xScope w) true
  let s2 := (x.1.cores.filter (fun y => c.tlbReaches (xScope w) y.unit)).foldl (fun s y => s.drainCore y.unit) x.1
  x.2.isNone && s2.accessesDone c (xScope w) && (s2.podAnswer (xScope w)).isNone && (s2.heldFailures c).isEmpty
theorem wit_TranslationAndWait :
    (∀ x ∈ [0, 2, 3, 4], ∃ c, Issues { op := 0x385, privileged := true, a := uniformSource, b := uniformSource, mOk := true, xMask := 0x007, fieldsOk := true } { rangeWord with x := x } (scal .kernel []) c ∧
      (c.active ≠ 0 ∧ tlbiReady c { rangeWord with x := x } = true)) ∧
    (let w : MainWord := { mw with d := sr 4, a := sr 1, b := sr 2, c := sr 3 }
     ∃ c, Issues { op := 0x386, d := .dst 64 statusCode, a := uniformAddress, b := uniformSource, c := uniformSource, mOk := true, xMask := 0x03F, fieldsOk := true } w mapped c ∧
      (c.active ≠ 0 ∧ (checkLanes mapped c.space { kind := .read, bytes := 8, atomic := false, own := false } (fun _ => 0x100) [0]).2.isEmpty = true ∧
       readsB ((mapped.touchLanes c .read 0 (checkLanes mapped c.space { kind := .read, bytes := 8, atomic := false, own := false } (fun _ => 0x100) [0]).1).readLanes c
         (fun y => y.how 0 0 false) 8 (checkLanes mapped c.space { kind := .read, bytes := 8, atomic := false, own := false } (fun _ => 0x100) [0]).1) 1 = true)) := by
  have h : ([0, 2, 3, 4] : List (BitVec 12)).all (fun x => issuesB { op := 0x385, privileged := true, a := uniformSource, b := uniformSource, mOk := true, xMask := 0x007, fieldsOk := true } { rangeWord with x := x }
      (scal .kernel []) (fun c => decide (c.active ≠ 0 ∧ tlbiReady c { rangeWord with x := x } = true))) = true := by
    decide +kernel
  exact ⟨fun x hx => issues_of (List.all_eq_true.1 h x hx), issues_of (by decide +kernel)⟩
theorem wit_LaunchInstruction :
    (∃ c, Issues { op := 0x387, d := .dst 64 statusCode, a := uniformAddress, b := uniformSource, mOk := true } { mw with d := sr 4, a := sr 1, b := sr 2 } mapped c ∧
      (c.active ≠ 0 ∧ c.team.staging = false ∧ readyB (mapped.release c 3 false) = true)) ∧
    ((State.reset.offerPacket .h0 0 hostSpace none).2 = 4 ∧ ((open0 State.reset).offerPacket .h0 0 hostSpace none).2 = 3 ∧
      ((open0 State.reset).offerPacket .h0 0 hostSpace (some (List.replicate 128 0))).2 = 0 ∧
      (((open0 State.reset).modQueue .h0 0 (fun q => { q with packets := List.replicate 16 (Packet.accepted 0 [] 0) })).offerPacket .h0 0 hostSpace (some [])).2 = 1) :=
  ⟨issues_of (by decide +kernel), by decide +kernel⟩
/-- A control core whose engine is in a state. -/
def ctlAt (st : EngState) : State := ctl (fun e => { e with state := st, sigs := [7], cmds := [1, 2, 3] }) [(2, 5)]
theorem wit_EngineControl :
    (∀ st ∈ [EngState.stopped, .running, .faulted], ∃ c, Issues { op := 0x388, inS := (ctlAt st).controlIssuer, inV := false, d := .dst 64 statusCode, a := uniformSource, b := uniformSource, mOk := true, imm := true }
      { mw with d := sr 4, a := sr 1, b := sr 2 } (ctlAt st) c ∧ (c.active ≠ 0 ∧ ((ctlAt st).engineAt c.tid .access).map (fun x => x.engine.state) = some st)) ∧
    (∀ r ∈ [(1, true, false), (3, true, false), (2, false, true)], ∃ c, Issues { op := 0x388, inS := (ctlAt .running).controlIssuer, inV := false, d := if r.2.1 then .dst 64 statusCode else .unused, a := uniformSource, b := if r.2.2 then uniformSource else .unused, mOk := true, imm := true }
      { mw with d := if r.2.1 then sr 4 else 0, a := sr 1, b := if r.2.2 then sr 2 else 0, m := BitVec.ofNat 4 r.1 } (ctlAt .running) c ∧
      (c.active ≠ 0 ∧ readyB ((ctlAt .running).release c 2 false) = true ∧ ((ctlAt .running).engineAt c.tid .access).map (fun x => (x.engine.sigs.length, x.engine.cmds.length)) = some (1, 3))) ∧
    (∃ c, Issues { op := 0x389, privileged := true, d := .dst 64 statusCode, a := uniformSource, b := uniformSource, mOk := true } { mw with d := sr 4, a := sr 1, b := sr 2 } (kctl [] none) c ∧
      (c.active ≠ 0 ∧ (kctl [] none).stoppedOp 1 = none)) := by
  have h1 : [EngState.stopped, .running, .faulted].all (fun st => issuesB { op := 0x388, inS := (ctlAt st).controlIssuer, inV := false, d := .dst 64 statusCode, a := uniformSource, b := uniformSource, mOk := true, imm := true }
      { mw with d := sr 4, a := sr 1, b := sr 2 } (ctlAt st) (fun c => decide (c.active ≠ 0 ∧ ((ctlAt st).engineAt c.tid .access).map (fun x => x.engine.state) = some st))) = true := by decide +kernel
  have h2 : ([(1, true, false), (3, true, false), (2, false, true)] : List (Nat × Bool × Bool)).all (fun r => issuesB { op := 0x388, inS := (ctlAt .running).controlIssuer, inV := false, d := if r.2.1 then .dst 64 statusCode else .unused, a := uniformSource, b := if r.2.2 then uniformSource else .unused, mOk := true, imm := true }
      { mw with d := if r.2.1 then sr 4 else 0, a := sr 1, b := if r.2.2 then sr 2 else 0, m := BitVec.ofNat 4 r.1 } (ctlAt .running) (fun c => decide
      (c.active ≠ 0 ∧ readyB ((ctlAt .running).release c 2 false) = true ∧ ((ctlAt .running).engineAt c.tid .access).map (fun x => (x.engine.sigs.length, x.engine.cmds.length)) = some (1, 3)))) = true := by
    decide +kernel
  exact ⟨fun st hst => issues_of (List.all_eq_true.1 h1 st hst), fun r hr => issues_of (List.all_eq_true.1 h2 r hr), issues_of (by decide +kernel)⟩
/-- A group with a name, and with v4 armed or with mail in it. -/
def named (armed delivered : Bool) : State := vec.modGroup 0 0 (fun g => { g with name := some 1, mailboxes := if armed || delivered then [{ reg := 4, key := 0, scope := 2, armed := armed, delivered := delivered, senderClock := 0, senderInScope := true }] else [] })
theorem wit_NamesAndMail :
    (∃ c, Issues { op := 0x38C, inS := false, d := .dst 64 statusCode, mOk := true } { mw with d := sr 4 } vec c ∧
      (c.group.harvest = false ∧ c.active ≠ 0 ∧ c.team.twin = none ∧ (vec.giveName c.tid c.gid).isSome = true)) ∧
    (∃ c, Issues { op := 0x38D, inS := false, d := .code, b := uniformSource, mOk := true, xMask := 0x007, fieldsOk := true, operandsBad := holdBad (named false false) { mw with d := 4, b := zr, x := 5 } }
      { mw with d := 4, b := zr, x := 5 } (named false false) c ∧ (c.group.name.isSome = true ∧ (c.group.regs.v 4).shape = .general ∧ c.group.mailboxes = [])) ∧
    (∃ c, Issues { op := 0x38D, inS := false, d := .code, b := uniformSource, mOk := true, xMask := 0x007, fieldsOk := true, operandsBad := holdBad (named true false) { mw with d := 4, b := zr, m := 1 } }
      { mw with d := 4, b := zr, m := 1 } (named true false) c ∧ (∃ m ∈ c.group.mailboxes.filter (fun m => m.armed), m.reg = 4)) ∧
    (∃ c, Issues { op := 0x38E, inS := false, d := .code, a := uniformSource, b := .src tN32 isV, c := uniformSource, mOk := true, xMask := 0x007, fieldsOk := true, operandsBad := none }
      { mw with d := 7, a := sr 4, b := 1, c := sr 5 } (vecS [(4, 1)]) c ∧
      (c.team.staging = false ∧ (c.group.regs.v 1).poison = 0 ∧ readyB ((vecS [(4, 1)]).release c 0 false) = true ∧ (vecS [(4, 1)]).mailDenied c 1 = false)) ∧
    (let g := intSig 0x001 { vw 1 with a := 4 } true false
     ∃ c, (named true false).ctx { vw 1 with a := 4 } = some c ∧ g.check c { vw 1 with a := 4 } = none ∧ c.group.held ((g.vregs { vw 1 with a := 4 }).1 ++ (g.vregs { vw 1 with a := 4 }).2) = some 4) := by
  refine ⟨issues_of (by decide +kernel), issues_of (by decide +kernel), issues_of (by decide +kernel), issues_of (by decide +kernel), ?_⟩
  obtain ⟨c, h, hp⟩ := issues_of (P := fun c => (intSig 0x001 { vw 1 with a := 4 } true false).check c { vw 1 with a := 4 } = none ∧ c.group.held [4, 1, 4] = some 4)
    (g := { op := 0x340, mOk := true, d := .form 0xFF, a := .form 0xFF, b := .form 0xFF }) (w := { vw 1 with a := 4 }) (s := named true false) (by decide +kernel)
  exact ⟨c, h.1, hp.1, hp.2⟩
/-- A latency-critical team at kernel level. -/
def critical : State := kvec.modTeam 0 (fun t => { t with latencyCritical := true })
theorem wit_Harvesting :
    (∀ m ∈ [0, 1], ∃ c, Issues { op := 0x38F, inS := false, privileged := true, a := uniformSource, mOk := true, imm := true } { mw with a := zr, m := m } critical c ∧
      (c.active ≠ 0 ∧ c.team.latencyCritical = true ∧ c.group.harvest = false ∧ limitBad 0 = false)) ∧
    (∀ m ∈ [0, 1, 2], ∃ c, Issues { op := 0x390, inS := false, d := .dst 64 statusCode, mOk := true } { mw with d := sr 4, m := m } vec c ∧ c.active ≠ 0) := by
  have h1 : ([0, 1] : List (BitVec 4)).all (fun m => issuesB { op := 0x38F, inS := false, privileged := true, a := uniformSource, mOk := true, imm := true } { mw with a := zr, m := m } critical
    (fun c => decide (c.active ≠ 0 ∧ c.team.latencyCritical = true ∧ c.group.harvest = false ∧ limitBad 0 = false))) = true := by decide +kernel
  have h2 : ([0, 1, 2] : List (BitVec 4)).all (fun m => issuesB { op := 0x390, inS := false, d := .dst 64 statusCode, mOk := true } { mw with d := sr 4, m := m } vec (fun c => decide (c.active ≠ 0))) = true := by
    decide +kernel
  exact ⟨fun m hm => issues_of (List.all_eq_true.1 h1 m hm), fun m hm => issues_of (List.all_eq_true.1 h2 m hm)⟩
/-- The walk of an access, without the core's cached entries. -/
def walked (s : State) (sp : Space) (va : Dword) : XRes := walkCheck s sp [] va .read
/-- Whether every cached pointer entry that a walk may use is the one that memory holds. -/
def pointersB (s : State) (sp : Space) (cache : List TlbEntry) (va : Nat) : Nat → Nat → Nat → Bool
  | 0, _, _ => true
  | n + 1, table, home => match walkEntry s sp va (n + 1) .read table home with
    | .error _ => false
    | .ok (e, key) => cache.all (fun t => !(t.asn == sp.asn && t.level == n + 1 && t.page == va >>> (12 + 9 * (n + 1))) ||
          (isPointer e && t.pte == e && t.pteAddress == key)) &&
        (!isPointer e || pointersB s sp cache va n (ptePpn e * 4096) (s.pteHome e))
theorem pointerOf_nil (s : State) (asn : Half) (va n : Nat) : pointerOf s [] asn va n = none := rfl
theorem walkFrom_agrees {s : State} {sp : Space} {cache : List TlbEntry} {va : Nat} (n table home : Nat) (ps : List (Nat × Dword × Nat))
    (h : pointersB s sp cache va n table home = true) :
    walkFrom s sp cache va .read n table home ps = walkFrom s sp [] va .read n table home ps := by
  induction n generalizing table home ps with
  | zero => rfl
  | succ n ih =>
    rcases he : walkEntry s sp va (n + 1) .read table home with f | ⟨e, key⟩
    · simp only [pointersB, he] at h
      cases h
    · simp only [pointersB, he, Bool.and_eq_true] at h
      simp only [walkFrom, pointerOf_nil, he]
      split
      · rename_i t ht
        have hf := List.find?_some ht
        have hm := List.all_eq_true.1 h.1 t (List.mem_of_find?_eq_some ht)
        simp only [Bool.and_eq_true, Bool.or_eq_true, Bool.not_eq_true', beq_iff_eq] at hf hm
        obtain ⟨⟨⟨h1, h2⟩, h3⟩, -⟩ := hf
        simp only [h1, h2, h3, beq_self_eq_true, Bool.and_self, Bool.true_eq_false, false_or] at hm
        obtain ⟨⟨hp, hq⟩, hk⟩ := hm
        rw [hq, hk]
        simp only [hp, if_true]
        exact ih _ _ _ (by simpa [hp] using h.2)
      · split
        · rename_i hp
          exact ih _ _ _ (by simpa [hp] using h.2)
        · rfl
/-- The pointer entries that a space's walker holds. -/
def pointersOf (s : State) (sp : Space) : List TlbEntry :=
  match sp.tlb with
  | none => []
  | some u => (s.core u).walker
/-- Whether every cached entry that may serve a read answers what its walk answers. -/
def agreesB (s : State) (sp : Space) (va : Dword) : Bool :=
  pointersB s sp (pointersOf s sp) va.toNat 4 (bits sp.ptroot 50 12 * 4096) (peerOf sp.hub) &&
  match sp.tlb with
  | none => true
  | some u => (s.core u).tlb.all (fun t =>
      match checkLeaf s sp va .read { leaf := t.pte, level := t.level, key := t.pteAddress, pointers := [] }, walked s sp va with
      | .ok x, .ok y => decide ({ x with pointers := [] } = { y with pointers := [] })
      | _, _ => false)
/-- Two answers that differ in nothing but the pointer entries passed. -/
def sameBut (x y : XRes) : Prop :=
  match x, y with
  | .ok x, .ok y => { x with pointers := [] } = { y with pointers := [] }
  | .bad f, .bad g => f = g
  | _, _ => False
theorem sameBut_refl (x : XRes) : sameBut x x := by
  cases x <;> simp [sameBut]
theorem translate_agrees {s : State} {sp : Space} {va : Dword} (h : agreesB s sp va = true) : sameBut (translate s sp va .read) (walked s sp va) := by
  unfold agreesB at h
  obtain ⟨hp, hl⟩ := Bool.and_eq_true_iff.1 h
  have hw : walkCheck s sp (pointersOf s sp) va .read = walked s sp va := by
    unfold walked walkCheck walk
    rw [walkFrom_agrees 4 _ _ _ hp]
  have ht : translate s sp va .read = if !canonical va then walked s sp va else
      match s.cached sp va .read with
      | none => (match walkCheck s sp (pointersOf s sp) va .read with | .ok x => .ok x | .bad _ => walked s sp va)
      | some t => match checkLeaf s sp va .read { leaf := t.pte, level := t.level, key := t.pteAddress, pointers := [] } with
        | .ok x => .ok x
        | .bad _ => (match walkCheck s sp (pointersOf s sp) va .read with | .ok x => .ok x | .bad _ => walked s sp va) := rfl
  have hs : (match walkCheck s sp (pointersOf s sp) va .read with | .ok x => XRes.ok x | .bad _ => walked s sp va) = walked s sp va := by
    rw [hw]; cases walked s sp va <;> rfl
  rw [ht]
  split
  · exact sameBut_refl _
  · rw [hs]
    split
    · exact sameBut_refl _
    · rename_i t hc
      unfold State.cached at hc
      split at hc
      · cases hc
      · rename_i u hu
        rw [hu] at hl
        have := List.all_eq_true.1 hl t (List.mem_of_find?_eq_some hc)
        split
        · rename_i x hx
          rw [hx] at this
          split at this
          · rename_i a b ha hb
            cases ha
            rw [hb]
            have hab : { x with pointers := [] } = { b with pointers := [] } := of_decide_eq_true this
            exact hab
          · cases this
        · exact sameBut_refl _
/-- Whether a range within one page reads without a fault, by the walk alone. -/
def rangeB (s : State) (c : Ctx) (a : Dword) (n : Nat) : Bool :=
  decide (0 < n ∧ a.toNat % 4096 + n ≤ 4096) && agreesB s c.space a && (match walked s c.space a with | .ok _ => true | .bad _ => false) &&
  (linePieces a.toNat n).all (fun p => let va := a + BitVec.ofNat 64 p.1
    agreesB s c.space va && (match walked s c.space va with | .ok x => (s.queueRegister x.key).isNone | .bad _ => false))
theorem imageFault_agrees {s : State} {c : Ctx} {a : Dword} {n : Nat} (h : rangeB s c a n = true) : c.imageFault s a n .read = none := by
  simp only [rangeB, Bool.and_eq_true, decide_eq_true_eq] at h
  obtain ⟨⟨⟨⟨hn, hr⟩, ha⟩, hk⟩, hp⟩ := h
  have hc : (a.toNat % 4096 + n + 4095) / 4096 = 1 := by omega
  have ht : translateRange s c.space a n .read = .ok () := by
    unfold translateRange
    simp only [show n ≠ 0 by omega, if_false, hc]
    simp only [List.range_one, List.filterMap_cons, List.filterMap_nil, if_true]
    have := translate_agrees ha
    generalize translate s c.space a .read = x at this ⊢
    cases x with
    | ok x => rfl
    | bad f => split at hk <;> simp_all [sameBut]
  unfold Ctx.imageFault
  rw [ht]
  have hf : (linePieces a.toNat n).find? (fun p => (s.queueRegister (keyOf s c.space (a + BitVec.ofNat 64 p.1) .read)).isSome) = none := by
    rw [List.find?_eq_none]
    intro p hmem
    have := List.all_eq_true.1 hp p hmem
    simp only [Bool.and_eq_true] at this
    obtain ⟨hag, hq⟩ := this
    have he := translate_agrees hag
    unfold keyOf
    generalize translate s c.space (a + BitVec.ofNat 64 p.1) .read = x at he ⊢
    split at hq
    · rename_i y hy
      rw [hy] at he
      cases x with
      | bad f => cases he
      | ok x =>
        have hxy : { x with pointers := [] } = { y with pointers := [] } := he
        have hkey : x.key = y.key := by simpa using congrArg Xlat.key hxy
        simp_all
    · cases hq
  simp only [hf]
/-- Whether an image opens: its header, read with nothing cached, passes, and the range that it gives reads without a fault. -/
def opensB (s : State) (c : Ctx) (a : Dword) (k : Nat) : Bool :=
  let r := s.readImage c a 64
  (c.imageMisaligned a).isNone && (c.imageFault s a 64 .read).isNone && (c.headerBad a k r.2.1).isNone &&
  rangeB r.1 c a (imageField r.2.1 4 4)
theorem openImage_of_checks {s : State} {c : Ctx} {a : Dword} {k : Nat} {r : State × List Byte × List (Nat × Nat × Byte)}
    (h1 : c.imageMisaligned a = none) (h2 : c.imageFault s a 64 .read = none) (h3 : s.readImage c a 64 = r)
    (h4 : c.headerBad a k r.2.1 = none) (h5 : c.imageFault r.1 a (imageField r.2.1 4 4) .read = none) :
    ∃ o, s.openImage c a k = .ok o := by
  have hh : s.readHeader c a k = .ok (r.1, r.2.1) := by
    rw [State.readHeader]
    generalize c.imageFault s a 64 .read = x at h2 ⊢
    generalize s.readImage c a 64 = y at h3 ⊢
    subst h2 h3
    simp only [h4]
  rw [State.openImage]
  generalize s.readHeader c a k = x at hh ⊢
  subst hh
  generalize c.imageMisaligned a = x at h1 ⊢
  subst h1
  simp only [h5]
  exact ⟨_, rfl⟩
theorem openImage_opens {s : State} {c : Ctx} {a : Dword} {k : Nat} (h : opensB s c a k = true) :
    ∃ s1 bs bad, s.openImage c a k = .ok (s1, bs, bad) := by
  unfold opensB at h
  generalize he : s.readImage c a 64 = r at h
  simp only [Bool.and_eq_true, Option.isNone_iff_eq_none] at h
  obtain ⟨⟨⟨h1, h2⟩, h4⟩, h5⟩ := h
  obtain ⟨o, ho⟩ := openImage_of_checks h1 h2 he h4 (imageFault_agrees h5)
  exact ⟨o.1, o.2.1, o.2.2, ho⟩
/-- A kernel-level group whose memory holds an .sregs image at 0x1000 and a .state image at 0x3000: headers of version 1, their kinds and their
sizes, with zeros behind them. -/
def imaged : State :=
  let s := kvecS [(1, 0x1000), (2, 0x5000), (3, 0x3000)]
  let at_ := fun (o : Nat) (b : List Byte) => cellsFrom (memKey (peerOf .h0) (0x40000000 + o)) b
  { s with mem := s.mem.writeCells (at_ 0x1000 [1, 0, 1, 0, 0x80, 3] ++ at_ 0x3000 [1, 0, 3, 0, 0x40, 5]) }
theorem wit_ContextImages :
    (∃ c, Issues { op := 0x38A, inS := false, privileged := true, a := uniformAddress, mOk := true } { mw with a := sr 1, m := 1 } imaged c ∧
      (c.active ≠ 0 ∧ (plainImage c.team c.group 1).length = 896 ∧ c.imageFault imaged 0x1000 896 .write = none ∧
       (imaged.writeImages c [(0x1000, plainImage c.team c.group 1)]).isSome = true)) ∧
    (∃ c, Issues { op := 0x38A, inS := false, privileged := true, a := uniformAddress, b := uniformAddress, mOk := true } { mw with a := sr 1, b := sr 2, m := 3 } imaged c ∧
      (c.active ≠ 0 ∧ c.team.copies = [] ∧ imaged.mails = [] ∧ armedRecords c.group = [] ∧ c.imageFault imaged 0x1000 0x540 .write = none ∧
       (imaged.writeImages c [(0x1000, stateImage c.group 0x5000)]).isSome = true)) ∧
    (∀ r ∈ [(1, 1), (3, 3)], ∃ c, Issues { op := 0x38B, inS := false, privileged := true, a := uniformAddress, mOk := true } { mw with a := sr r.1, m := BitVec.ofNat 4 r.2 } imaged c ∧
      c.active ≠ 0 ∧ ∃ s1 bs bad, imaged.openImage c (BitVec.ofNat 64 (0x1000 * r.1)) r.2 = .ok (s1, bs, bad)) ∧
    (vgroup.regs.vregs.length ≤ 128 ∧ vgroup.regs.sregs.length = 96 ∧ vgroup.regs.preds.length = 7 ∧ vgroup.regs.predPoison.length = 7 ∧ vgroup.regs.pos.length = 64 ∧ vgroup.aside = []) := by
  have h : [(1, 1), (3, 3)].all (fun r => issuesB { op := 0x38B, inS := false, privileged := true, a := uniformAddress, mOk := true } { mw with a := sr r.1, m := BitVec.ofNat 4 r.2 } imaged
      (fun c => decide (c.active ≠ 0 ∧ opensB imaged c (BitVec.ofNat 64 (0x1000 * r.1)) r.2 = true))) = true := by decide +kernel
  refine ⟨issues_of (by decide +kernel), issues_of (by decide +kernel), fun r hr => ?_, by decide +kernel⟩
  obtain ⟨c, hi, ha, ho⟩ := issues_of (List.all_eq_true.1 h r hr)
  exact ⟨c, hi, ha, openImage_opens ho⟩

/-- Whether the engine that moves next passes a test. -/
def engB (s : State) (p : EngAt → Bool) : Bool :=
  match s.engineIssuer with
  | some x => p x
  | none => false
theorem eng_of {s : State} {P : EngAt → Prop} [DecidablePred P] (h : engB s (fun x => decide (P x)) = true) :
    ∃ x, s.engineIssuer = some x ∧ P x := by
  unfold engB at h
  split at h
  · rename_i x hx
    exact ⟨x, hx, of_decide_eq_true h⟩
  · cases h
theorem wit_EngineStack :
    (∀ r ∈ stackRows 5 7 9, (∃ x, (eng r.2.1).engineIssuer = some x ∧ x.engine.stack = r.2.1 ++ [] ∧ x.engine.pc < 2047) ∧
      (∃ x, (engWith .access r.2.1 (fun e => { e with pc := 2047 })).engineIssuer = some x ∧ x.engine.stack = r.2.1 ++ [] ∧ 2047 ≤ x.engine.pc) ∧
      (r.2.1 ≠ [] → ∃ x, (eng []).engineIssuer = some x ∧ x.engine.stack.length < r.2.1.length) ∧
      (r.2.1.length < r.2.2.length → ∃ x, (eng (List.replicate 8 0)).engineIssuer = some x ∧ 8 + r.2.1.length < x.engine.stack.length + r.2.2.length)) := by
  have h : (stackRows 5 7 9).all (fun r => engB (eng r.2.1) (fun x => decide (x.engine.stack = r.2.1 ++ [] ∧ x.engine.pc < 2047)) &&
      engB (engWith .access r.2.1 (fun e => { e with pc := 2047 })) (fun x => decide (x.engine.stack = r.2.1 ++ [] ∧ 2047 ≤ x.engine.pc)) &&
      (decide (r.2.1 = []) || engB (eng []) (fun x => decide (x.engine.stack.length < r.2.1.length))) &&
      (decide (r.2.2.length ≤ r.2.1.length) || engB (eng (List.replicate 8 0)) (fun x => decide (8 + r.2.1.length < x.engine.stack.length + r.2.2.length)))) = true := by
    decide +kernel
  intro r hr
  have hh := List.all_eq_true.1 h r hr
  simp only [Bool.and_eq_true, Bool.or_eq_true, decide_eq_true_eq] at hh
  refine ⟨eng_of hh.1.1.1, eng_of hh.1.1.2, fun hn => ?_, fun hn => ?_⟩
  · exact eng_of (hh.1.2.resolve_left hn)
  · exact eng_of (hh.2.resolve_left (by omega))
/-- An operation that uses the generators 0 and 1. -/
def someOp : EngOp := EngOp.fresh 0 0 0 0 [0, 1, 64, 2, 0] 0 AddrGen.fresh AddrGen.fresh
/-- An engine before a loop whose end stands at 5 of its words, and one near the end of its words without one. -/
def ended : State := engWith .access [0] (fun e => { e with imem := List.replicate 5 0 ++ [0x6101] })
theorem wit_EngineControlWords :
    (∃ x, (eng []).engineIssuer = some x ∧ x.engine.pc < 2047 ∧ x.engine.stack.length < 8 ∧ x.engine.ops = [] ∧ x.engine.cmds = []) ∧
    (∃ x, (eng [2]).engineIssuer = some x ∧ x.engine.stack = 2 :: [] ∧ x.engine.sigs.length < 4) ∧
    (∃ x k reg, ended.engineIssuer = some x ∧ x.engine.stack = 0 :: [] ∧ x.engine.pc < k ∧ k < 2047 ∧ decodeEngine x.kind (x.engine.wordAt k) = .instr (.endl reg) ∧
      ∀ j < 2047, x.engine.pc < j → j < k → decodeEngine x.kind (x.engine.wordAt j) ≠ .instr (.endl reg)) ∧
    (∃ x, (engWith .access [0] (fun e => { e with pc := 2044 })).engineIssuer = some x ∧ x.engine.stack = 0 :: [] ∧
      ∀ k, x.engine.pc < k → k < 2047 → decodeEngine x.kind (x.engine.wordAt k) ≠ .instr (.endl 0)) ∧
    (∃ x, (engWith .access [5000] (fun e => { e with sigs := [1, 2, 3, 4] })).engineIssuer = some x ∧ x.engine.stack = 5000 :: [] ∧ x.engine.sigs.length = 4) ∧
    (∃ x, (looping 2).engineIssuer = some x ∧ 1 < (x.engine.loopReg 1).m.toNat ∧ (x.engine.loopReg 1).start < 2048 ∧ (x.engine.loopReg 0).m.toNat ≤ 1) ∧
    (∀ v ∈ [(0 : Word), 1], ∃ x, (eng [9, v]).engineIssuer = some x ∧ x.engine.stack = 9 :: v :: []) ∧
    (∃ x, (engWith .access [] (fun e => { e with ops := [someOp], cmds := [5] })).engineIssuer = some x ∧ x.engine.ops ≠ [] ∧ x.engine.cmds = 5 :: []) ∧
    (∃ x, (eng (List.replicate 8 0)).engineIssuer = some x ∧ 8 ≤ x.engine.stack.length) := by
  have h7 : [(0 : Word), 1].all (fun v => engB (eng [9, v]) (fun x => decide (x.engine.stack = 9 :: v :: []))) = true := by decide +kernel
  have h3 : engB ended (fun x => decide (x.kind = .access ∧ x.engine.stack = 0 :: [] ∧ x.engine.pc = 3 ∧ decodeEngine .access (x.engine.wordAt 4) ≠ .instr (.endl 1) ∧
      decodeEngine .access (x.engine.wordAt 5) = .instr (.endl 1))) = true := by decide +kernel
  have h4 : engB (engWith .access [0] (fun e => { e with pc := 2044 })) (fun x => decide (x.kind = .access ∧ x.engine.stack = 0 :: [] ∧ x.engine.pc = 2044 ∧
      decodeEngine .access (x.engine.wordAt 2045) ≠ .instr (.endl 0) ∧ decodeEngine .access (x.engine.wordAt 2046) ≠ .instr (.endl 0))) = true := by decide +kernel
  refine ⟨eng_of (by decide +kernel), eng_of (by decide +kernel), ?_, ?_, eng_of (by decide +kernel), eng_of (by decide +kernel),
    fun v hv => eng_of (List.all_eq_true.1 h7 v hv), eng_of (by decide +kernel), eng_of (by decide +kernel)⟩
  · obtain ⟨x, hx, hk, hs, hp, hn, he⟩ := eng_of h3
    refine ⟨x, 5, 1, hx, hs, by omega, by omega, by rw [hk]; exact he, fun j _ hj hj5 => ?_⟩
    have : j = 4 := by omega
    subst this; rw [hk]; exact hn
  · obtain ⟨x, hx, hk, hs, hp, ha, hb⟩ := eng_of h4
    refine ⟨x, hx, hs, fun k hk1 hk2 => ?_⟩
    have : k = 2045 ∨ k = 2046 := by omega
    rcases this with rfl | rfl
    · rw [hk]; exact ha
    · rw [hk]; exact hb
/-- The access engine pops from queue 1 and pushes on queue 2, which hold so many tokens; queue 3 is not in the map. -/
def tokened (stack : List Word) (n1 n2 : Nat) (f : Engine → Engine) : State :=
  ((engWith .access stack f).modTeam 1 (fun t => { t with desc := { t.desc with tokens := 0x41 } })).modCluster 1 (fun c =>
    { c with tokens := (c.tokens.set 1 n1).set 2 n2 })
theorem wit_EngineTokensAndGenerators :
    (∃ x, (tokened [] 1 0 id).engineIssuer = some x ∧ x.engine.pc < 2047 ∧ mayPop x 1 = true ∧ 0 < x.cluster.tokens.getD 1 0 ∧ x.engine.stack.length < 8 ∧
      mayPush x 2 = true ∧ x.cluster.tokens.getD 2 0 < 16 ∧ mayPop x 3 = false ∧ mayPush x 3 = false) ∧
    (∃ x, (tokened (List.replicate 8 0) 0 16 id).engineIssuer = some x ∧ mayPop x 1 = true ∧ x.cluster.tokens.getD 1 0 = 0 ∧ 8 ≤ x.engine.stack.length ∧
      mayPush x 2 = true ∧ 16 ≤ x.cluster.tokens.getD 2 0) ∧
    (∃ x, (engWith .access [1, 2, 3] (fun e => { e with ops := [someOp] })).engineIssuer = some x ∧ x.engine.pc < 2047 ∧ x.engine.stack = 1 :: 2 :: 3 :: [] ∧
      x.engine.genInUse 0 = true ∧ x.engine.genInUse 2 = false) ∧
    (∃ x, (eng [1, 0, 3]).engineIssuer = some x ∧ x.engine.stack = 1 :: 0 :: 3 :: []) :=
  ⟨eng_of (by decide +kernel), eng_of (by decide +kernel), eng_of (by decide +kernel), eng_of (by decide +kernel)⟩
/-- Parameters within their limits for each launch word, top first: banks 0, 1 and 2 hold f32, the kiln's format 0 and a tile format. -/
def goodParams : List (List Word) :=
  [[0, 2, 64, 1, 0], [0, 2, 64, 1, 0], [0, 2, 64, 4096, 1, 0], [0, 2, 64, 4096, 1, 0], [0, 1, 16384, 0, 0], [0, 16, 256, 0x200000], [],
   [0, 0, 4, 0xFFFFFFFF, 1024, 0], [0, 0, 4, 0xFFFFFFFF, 1024, 0], [0, 1024, 0, 4, 0], [4, 10], [0, 0x200002, 16, 4096, 128, 0],
   [0, 0x200002, 16, 0x100000, 16, 4096, 128, 0], [0, 0x200002, 128, 0, 16, 4096, 16, 0x100000]]
def launching (k : EngineKind) (stack : List Word) : State := (engWith k stack id).modCluster 1 (fun c => { c with bfmtl := 0x042800 })
theorem wit_EngineLaunches :
    (∀ r ∈ (launchRows 0 0).zip goodParams, ∃ x, (launching r.1.2.2.1 r.2).engineIssuer = some x ∧ x.kind = r.1.2.2.1 ∧ x.engine.ops = [] ∧ x.engine.pc < 2047 ∧
      r.1.2.2.2.2 ≤ x.engine.stack.length ∧ launchOk x.cluster r.1.2.1 (fun i => (((x.engine.stack.take r.1.2.2.2.2).reverse).getD i 0).toNat) = true) ∧
    (∃ x, (engWith .access [1, 2, 64, 1, 0] id).engineIssuer = some x ∧ x.kind = .access ∧ x.engine.took = false ∧
      launchOk x.cluster .cpyin (fun i => (((x.engine.stack.take 5).reverse).getD i 0).toNat) = false) ∧
    (∃ x, (eng [0]).engineIssuer = some x ∧ x.kind = .access ∧ x.engine.stack.length < 5) ∧
    (∃ x, (tokened [0, 2, 64, 1, 0] 0 0 id).engineIssuer = some x ∧ x.kind = .access ∧ mayPop x 1 = true ∧ mayPush x 2 = true ∧ x.cluster.tokens.getD 1 0 = 0 ∧
      mayPop x 3 = false) ∧
    (∃ x, (tokened [0, 2, 64, 1, 0] 1 0 (fun e => { e with ops := [someOp] })).engineIssuer = some x ∧ x.kind = .access ∧ mayPop x 1 = true ∧
      0 < x.cluster.tokens.getD 1 0 ∧ (∀ o ∈ x.engine.ops, o.stopCause = 0) ∧ x.engine.genInUse 0 = true ∧
      launchOk x.cluster .cpyin (fun i => (((x.engine.stack.take 5).reverse).getD i 0).toNat) = true) := by
  have h : ((launchRows 0 0).zip goodParams).all (fun r => engB (launching r.1.2.2.1 r.2) (fun x => decide (x.kind = r.1.2.2.1 ∧ x.engine.ops = [] ∧ x.engine.pc < 2047 ∧
      r.1.2.2.2.2 ≤ x.engine.stack.length ∧ launchOk x.cluster r.1.2.1 (fun i => (((x.engine.stack.take r.1.2.2.2.2).reverse).getD i 0).toNat) = true))) = true := by
    decide +kernel
  exact ⟨fun r hr => eng_of (List.all_eq_true.1 h r hr), eng_of (by decide +kernel), eng_of (by decide +kernel), eng_of (by decide +kernel), eng_of (by decide +kernel)⟩
theorem wit_EngineFaults : ∃ x, (eng []).engineIssuer = some x ∧ x.cluster.exited = false := eng_of (by decide +kernel)

/-! ## Witnesses: hardware events -/

/-- What a check of a bundle answers, and whether a test of it holds. -/
def bundleB (c : Checked) (good : State → KernelDesc → Nat → Bool) (bad : Nat → Bool) : Bool :=
  match c with
  | .good t d v => good t d v
  | .bad _ r => bad r
/-- A packet for one scalar core: its class, code field, waits, placement and an invalid byte. -/
def packet (code waits placement flag signal value : Byte) : Packet :=
  Packet.accepted 0 ((List.range 128).map (fun i =>
    if i = 0 then 2 else if i = 2 then waits else if i = 3 then flag else if i = 4 then 1 else if i = 8 then code else if i = 0x10 then 1 else if i = 0x21 then 1
    else if i = 0x30 then placement else if i = 0x40 then signal else if i = 0x60 then value else 0)) 0
/-- A bundle at 0x100 of one kernel with an S image (R35 to R39). -/
def bundleCells : List (Nat × Byte) :=
  cellsFrom (memKey (peerOf .h0) 0x40000100)
    ([0x2E, 0x4E, 0x42, 0x4F, 1, 0, 1, 0, 0, 0x10, 0, 0, 0, 0, 0, 0, 1, 0, 0, 0, 0, 0, 0, 0, 0x40, 0, 0, 0, 0, 0, 0, 0, 0x80] ++ List.replicate 31 0 ++
     [1, 2, 0, 0, 0x40, 1, 0, 0, 0x40] ++ List.replicate 55 0 ++ [0xFF, 0xFF, 0, 0, 0xFF, 0xFF, 0xFF, 0xFF, 0xFF, 0xFF, 0xFF, 0xFF, 0xFF, 0xFF])
/-- Hub 0's queue 0 with packets, tables that map its first GiB, and the bundle. -/
def queued (ps : List Packet) : State :=
  { State.reset with mem := Memory.writeCells [] (placedTables .h0 0x1000 0 true ++ bundleCells) }.modQueue .h0 0 (fun q =>
    { q with en := true, root := 0x1000, savs := 0x100000, packets := ps })
def q0 (s : State) : Queue := (s.hub .h0).queue 0
def sp0 (s : State) : Space := queueSpace .h0 (q0 s)
def head0 (s : State) (f : Packet → Bool) : Bool :=
  match (q0 s).head with
  | some p => f p
  | none => false
/-- The packet placed by its validation. -/
def placing : State := next (exec (.bundleValidation .h0 0) (queued [packet 4 0 0 0 0 0]))
/-- A waiting packet whose first signal is at an address with a value to reach. -/
def waiting (signal value : Byte) : State := queued [{ packet 4 1 0 0 signal value with life := .waiting }]
/-- A packet that waits on a signal far beyond the mapped GiB. -/
def waitingFar : State := queued [{ packet 4 1 0 0 0 0 with life := .waiting, raw := (packet 4 1 0 0 0 0).raw.set 0x44 0x40 }]
def stoppedCopy (stopped : Bool) (tag : Option Half) (left : List (Nat × Nat × Nat)) : Copy :=
  { id := 0, ordinal := 0, gid := 0, dir := .inward, rows := 1, rowBytes := 128, globalBase := 0x100, globalPitch := 0, scratchBase := 0, scratchPitch := 0, indexList := none,
    indices := [], hint := 0, barrier := none, pairs := [], left := left, stopped := stopped, cursor := (0, 0, 128), tag := tag, stopCause := 0x20, stopWalk := 0,
    stopVa := 0x100, level := .task, source := none }
/-- A team whose copy has stopped, at a hub whose ring holds n entries and counts so many requests. -/
def asking (t : Word) : State :=
  (vec.modTeam 0 (fun x => { x with copies := [stoppedCopy true none []] })).modHub .h0 (fun h => { h with prqLsz := 3, prqt := t })
/-- A group parked at a barrier, at its patrol limit. -/
def parked (n : Word) : State :=
  vec.modGroup 0 0 (fun g => { g with patrolCount := 0x1000000, waits := [{ entry := { pc := 0x2000, pri := 0, depth := 0 }, kernel := false, kind := .barrier n.toNat 0, fall := 0x2008 }] })
theorem wit_QueueEvents :
    (queued []).hostReaches .h0 = true ∧ (State.reset.modHub .h0 (fun h => { h with recovery := true })).hostReaches .h0 = false ∧
    (((queued []).modQueue .h0 0 (fun q => { q with busy := true })).hub .h0 |>.queue 0).busy = true ∧ (q0 (queued [])).busy = false ∧
    head0 (queued [packet 0x40 0 0 0 0 0]) (fun p => decide (p.life = .queued) && bundleB ((queued [packet 0x40 0 0 0 0 0]).readBundle (sp0 (queued [packet 0x40 0 0 0 0 0])) p)
      (fun _ _ _ => false) (fun r => r == 1)) = true ∧
    head0 (queued [packet 4 0 0 1 0 0]) (fun p => decide (p.life = .queued) && bundleB ((queued [packet 4 0 0 1 0 0]).readBundle (sp0 (queued [packet 4 0 0 1 0 0])) p)
      (fun _ d v => p.bad (q0 (queued [])) d v) (fun _ => false)) = true ∧
    head0 (queued [packet 4 0 1 0 0 0]) (fun p => decide (p.life = .queued) && bundleB ((queued [packet 4 0 1 0 0 0]).readBundle (sp0 (queued [packet 4 0 1 0 0 0])) p)
      (fun t d v => !p.bad (q0 (queued [])) d v && (t.readMap (sp0 (queued [])) .h0 p d).2.isNone) (fun _ => false)) = true ∧
    head0 (queued [packet 4 0 0 0 0 0]) (fun p => decide (p.life = .queued) && bundleB ((queued [packet 4 0 0 0 0 0]).readBundle (sp0 (queued [packet 4 0 0 0 0 0])) p)
      (fun t d v => !p.bad (q0 (queued [])) d v && (t.readMap (sp0 (queued [])) .h0 p d).2.isSome) (fun _ => false)) = true ∧
    head0 waitingFar (fun p => decide (p.life = .waiting ∧ 0 < p.field 2 1) && !p.satisfied.contains 0 && (match translate waitingFar (sp0 waitingFar) (p.signalAddress 0) .read with
      | .bad _ => true
      | .ok _ => false)) = true ∧
    [(0 : Byte), 5].all (fun v => head0 (waiting 0x80 v) (fun p => decide (p.life = .waiting ∧ 0 < p.field 2 1) && !p.satisfied.contains 0 &&
      (match translate (waiting 0x80 v) (sp0 (waiting 0x80 v)) (p.signalAddress 0) .read with
       | .bad _ => false
       | .ok x => let a := (waiting 0x80 v).hubAsks .h0 (lineOfKey x.key)
         let r := a.1.hubLine (sp0 (waiting 0x80 v)) (p.signalAddress 0) 8 x
         let t := r.1.hubAcquire .h0 (lineOfKey x.key)
         ((waiting 0x80 v).linkError .h0 x.home).isNone && a.2 && decide (t.poisonIn x.key 8 = 0) && decide (p.field 0x60 8 = v.toNat ∧ ofBytes r.2 = 0)))) = true := by decide +kernel
/-- Whether the first candidate of hub 0 is an iteration of a packet that finds its cores, whichever the hub's choice begins with. -/
def placesB (s : State) : Bool :=
  match s.candidatesOf .h0 with
  | .packet k qi seq :: _ =>
    let q := (s.hub k).queue qi
    match q.packet? seq with
    | none => false
    | some p => match p.desc, p.map with
      | some d, some m => match (s.unplaced k q p).filter (fun ix => !((m.entryFor ix).unitsFor .h0 p.cls).isEmpty) with
        | ix :: _ =>
          let w := p.wanted .h0 q d m ix
          let free := fun (lists : List (List CoreUnit)) => lists.filter (fun us => !s.reservingOn (!q.hcls) us)
          decide (s.teamsOf k q.index + (if p.mode = .paired then 2 else 1) ≤ 1024) &&
            (s.coresFor { w with lists := free w.lists, twinLists := free w.twinLists } [] [] none).isSome
        | [] => false
      | _, _ => false
  | _ => false
theorem placesB_places {s : State} (hb : placesB s = true) :
    ∃ c cs t us, s.candidatesOf .h0 = c :: cs ∧ s.consider .h0 [] c = (t, true, us) := by
  unfold placesB at hb
  split at hb
  · rename_i k qi seq cs hc
    simp only at hb
    split at hb
    · cases hb
    · rename_i p hp
      split at hb
      · rename_i d m hd hm
        split at hb
        · rename_i ix rest hix
          obtain ⟨hn, hs⟩ := Bool.and_eq_true_iff.1 hb
          have hn := of_decide_eq_true hn
          have hq : ((s.coresNow (p.wanted .h0 ((s.hub k).queue qi) d m ix) (!((s.hub k).queue qi).hcls) [])).isSome = true := by
            unfold State.coresNow
            rw [Option.isSome_or, hs, Bool.or_true]
          obtain ⟨a, ha⟩ := Option.isSome_iff_exists.1 hq
          have hpl : ∃ s1, s.placeIteration .h0 k ((s.hub k).queue qi) p d m [] ix = some s1 := by
            unfold State.placeIteration
            rw [ha]
            simp only [Nat.not_lt.2 hn, if_false, Option.map_some, Option.some.injEq, exists_eq']
          obtain ⟨s1, hs1⟩ := hpl
          refine ⟨_, cs, s1, [], hc, ?_⟩
          simp only [State.consider, hp, State.considerPacket, hd, hm, hix, hs1]
        · cases hb
      · cases hb
  · cases hb
theorem wit_QueueEvents_placing : ∃ c cs t us, (placing.emitAll .h0).candidatesOf .h0 = c :: cs ∧ (placing.emitAll .h0).consider .h0 [] c = (t, true, us) :=
  placesB_places (by decide +kernel)
theorem wit_QueueEvents_scheduling :
    (State.reset.emitAll .h0).candidatesOf .h0 = [] ∧
    (let s := (queued [{ packet 4 0 0 0 0 0 with life := .placing }]).modQueue .h0 0 (fun q => { q with patrolCount := 0x10000000 }); (s.packetsOver .h0 (q0 s)).length = 1) ∧
    ((State.reset.modHub .h0 (fun h => { h with evtEn := true, events := [{ cause := 0x75, val := 0, val2 := 0 }] })).eventReady .h0).isSome = true := by decide +kernel
theorem wit_QueueEvents_requests :
    ((asking 0).pageAsk (.copy 0 0)).isSome = true ∧ ((asking 0).hub .h0).ringFull = false ∧
    ((asking 8).pageAsk (.copy 0 0)).isSome = true ∧ ((asking 8).hub .h0).ringFull = true ∧
    (((asking 0).modHub .h0 (fun h => { h with requests := [{ tag := 1, source := .copy 0 0, slot := 0 }] })).hub .h0).requests.find? (fun y => y.tag == 1) =
      some { tag := 1, source := .copy 0 0, slot := 0 } ∧
    (((asking 0).modHub .h0 (fun h => { h with requests := [{ tag := 1, source := .engine 1, slot := 0 }] })).hub .h0).requests.find? (fun y => y.tag == 1) =
      some { tag := 1, source := .engine 1, slot := 0 } ∧
    ((match (parked 3).team? 0, (parked 3).group? 0 0 with
      | some t, some g => (parked 3).groupOver t g && decide (g.patrolWait.map (fun w => w.kind) = some (.barrier 3 0))
      | _, _ => false) = true) ∧
    [true, false].all (fun e => let s := (eng []).modTeam 1 (fun t => { t with patrolCount := 0x4000000, cluster := t.cluster.map (fun c => { c with exited := e }) })
      match s.team? 1 with
      | some t => s.teamOver t && t.twin.isNone && t.cluster.any (fun c => c.exited == e)
      | none => false) = true := by decide +kernel
/-- The machine with one more team on it. -/
def withTeam (t : Team) : State := { State.reset with teams := State.reset.teams ++ [{ t with id := 1 }], nextTeam := 2 }
/-- A scalar team that reserves its cores. -/
def reserving (us : List CoreUnit) : State :=
  withTeam { Team.boot Flash.factory with id := 1, cls := .scalar, source := .launch, life := .reserving 0, wantCores := us, cores := [], groups := [] }
def team1 (s : State) (f : Team → Bool) : Bool :=
  match s.team? 1 with
  | some t => f t
  | none => false
def lifeIs (s : State) (l : TeamLife) : Bool := team1 s (fun t => decide (t.life = l))
/-- A team in a state of its life. -/
def living (l : TeamLife) (src : TeamSource) : State := withTeam { Team.boot Flash.factory with id := 1, life := l, source := src, cores := [] }
/-- A group with one more change. -/
def grpWith (f : Group → Group) : State := vec.modGroup 0 0 f
def group0 (s : State) (f : Team → Group → Bool) : Bool :=
  match s.team? 0, s.group? 0 0 with
  | some t, some g => f t g
  | _, _ => false
theorem wit_TeamEvents :
    lifeIs (reserving []) (.reserving 0) = true ∧
    team1 (reserving [.scalar .h0 40]) (fun t => !(reserving [.scalar .h0 40]).reservedBefore t (.scalar .h0 40) && !(reserving [.scalar .h0 40]).usable (.scalar .h0 40)) = true ∧
    team1 (reserving [.scalar .h0 0]) (fun t => !(reserving [.scalar .h0 0]).reservedBefore t (.scalar .h0 0) && (reserving [.scalar .h0 0]).usable (.scalar .h0 0) &&
      ((reserving [.scalar .h0 0]).shareOf t.needNow [t.id] (t.wantParts.getD 0 0) (.scalar .h0 0)).isNone) = true ∧
    team1 (reserving [.scalar .h0 5]) (fun t => !(reserving [.scalar .h0 5]).reservedBefore t (.scalar .h0 5) && (reserving [.scalar .h0 5]).usable (.scalar .h0 5) &&
      ((reserving [.scalar .h0 5]).shareOf t.needNow [t.id] (t.wantParts.getD 0 0) (.scalar .h0 5)).isSome) = true ∧
    (let s := (reserving [.scalar .h0 5]).modTeam 0 (fun t => { t with life := .reserving 0, wantCores := [.scalar .h0 6] })
     team1 s (fun t => decide (t.wantCores[0]? = some (.scalar .h0 5)) && s.reservedBefore t (.scalar .h0 5))) = true ∧
    team1 (reserving [.scalar .h0 5]) (fun t => decide (t.source = .launch ∧ t.twin = none)) = true ∧
    (let s := (reserving [.scalar .h0 5]).modTeam 1 (fun t => { t with twin := some 0 })
     team1 s (fun t => decide (t.source = .launch) && (t.twin.bind s.team?).any (fun w => !w.reserved))) = true ∧
    [TeamSource.launch, .saved, .parked].all (fun x => team1 (living (.clearing true) x) (fun t => decide (t.life = .clearing true ∧ t.source = x))) = true ∧
    team1 (living (.clearing false) .parked) (fun t => (living (.clearing false) .parked).teamQuiet t) = true ∧
    [TeamSource.launch, .saved, .parked].all (fun x => team1 (living (.clearing false) x) (fun t => decide (t.life = .clearing false ∧ t.source = x))) = true ∧
    team1 (living .withdrawing .launch) (fun t => decide (t.life = .withdrawing ∧ t.twin = none)) = true ∧
    [([] : List HeldFailure), [{ copy := false, place := 0, cause := 0x60, val := 0, val2 := 0 }]].all (fun fs =>
      let s := grpWith (fun g => { g with retired := true, failures := fs })
      group0 s (fun t g => s.slotReady t g && (firstFailure g.failures).isNone == fs.isEmpty)) = true ∧
    [AsyncCause.preemption false, .harvestRevoke, .mail 1 2 3].all (fun c => group0 (grpWith (fun g => { g with async := [c] })) (fun _ g =>
      decide (firstCause g.takable = some c) && !g.retired && !g.saved)) = true ∧
    group0 { grpWith (fun g => { g with preemptedAt := some 0 }) with cycle := 0x4000 } (fun t g => { grpWith (fun g => { g with preemptedAt := some 0 }) with cycle := 0x4000 }.overBudget t g) = true ∧
    group0 vec (fun t g => !vec.overBudget t g) = true ∧
    group0 (parked 3) (fun _ g => decide (g.waits.length = 1)) = true ∧
    group0 (grpWith (fun g => { g with waits := [{ entry := { pc := 0x2000, pri := 0, depth := 0 }, kernel := false, kind := .memoryWord 0x100 0 0, fall := 0x2008 }] })) (fun _ g =>
      g.waits.any (fun w => decide (w.kind = .memoryWord 0x100 0 0))) = true ∧
    group0 ((grpWith (fun g => { g with saved := true })).modTeam 0 (fun t => { t with preempting := true })) (fun t _ => t.allSaved) = true ∧
    team1 (living .restoring .saved) (fun t => decide (t.life = .restoring) && (living .restoring .saved).teamQuiet t) = true ∧
    lifeIs (living .rollingBack .launch) .rollingBack = true ∧
    [(100 : Dword), 400].all (fun n => let s := { State.reset with cycle := n, revocations := [{ core := { hub := .h0, chiplet := 0, core := 0 }, teams := [], start := 0 }] }
      s.revocations.any (fun r => decide (r.core = { hub := .h0, chiplet := 0, core := 0 }) && (decide ((s.cycle - r.start).toNat < 384) == (n == 100)))) = true := by decide +kernel
/-- Line 0x40000000 / 128 of hub 0's memory. -/
def line0 : Nat := lineOfKey (memKey (peerOf .h0) 0x40000000)
/-- A transaction of hub 1 to it. -/
def txn (k : TxnKind) : Txn := { id := 0, team := 0, gid := 0, hub := .h1, line := line0, kind := k, plane := 0, answer := none, error := none, issued := 0, asker := none }
def answer0 : TxnAnswer := { data := [], origins := [], wts := 0, lease := 0, failed := 0 }
def txns (x : Txn) : State := { State.reset with txns := [x] }
/-- A directory with an entry for the line and a copy of it at a peer. -/
def dirWith (d : DirEntry) (ps : List PeerLine) : State := State.reset.modHub .h0 (fun h => { h with dir := [d], peers := ps })
def entryI : DirEntry := { line := line0, state := .I, owner := 0, sharers := [], pending := none }
def mail1 (outcome : Option Nat) (forward : Bool) : State :=
  { vec with mails := [{ id := 0, team := 0, gid := 0, hub := .h0, name := 1, reg := 4, key := 0, words := [], scope := 2, clock := 0, plane := heldPlane, outcome := outcome, forward := forward, issued := 0 }] }
/-- A relaxed store of the line, made at task level. -/
def maker : MadeBy := { source := .store, va := 0, kernel := false }
def combined : State :=
  vec.modCore vcore (fun c => { c with combining := [{ team := 0, gid := 0, line := line0, bytes := [(line0 * 128, 1)], durable := false, made := maker }] })
/-- Stores held while the home's table has come to admit nothing. -/
def barred : State := { combined with access := [(.home .h0, 0, { openEntry with rights := 0 })] }
/-- A reservation of 5,000 cycles ago. -/
def aged : State :=
  { State.reset.modHub .h0 (fun h => { h with reservations := [{ team := 0, gid := 0, lane := 0, address := 0, width := 8, cycle := 0 }] }) with cycle := 5000 }
theorem wit_MemoryEvents :
    (State.reset.modHub .h0 (fun h => { h with recovery := true })).hub0.recovery = true ∧
    (match vec.fetcher vcore 0 with
      | some (t, g) => (match translate vec (fetchSpace t g vcore) 0x2000 .fetch with
        | .ok _ => true
        | .bad _ => false)
      | none => false) = true ∧
    (match (vecWith id (Group.fresh 0 0 0 0 .V 64 (BitVec.allOnes 64) 0x2002 .task)).issuer with
      | some (_, _, _, p) => decide (bits p.pc 1 0 ≠ 0)
      | none => false) = true ∧
    (aged.hub .h0).reservations.any (fun r => Nat.ble 4096 (aged.cycle - r.cycle).toNat) = true ∧
    ((combined.core vcore).combining[0]?.map (fun e => combined.mayDrain vcore e)) = some true ∧
    (let e : Combining := { team := 0, gid := 0, line := line0, bytes := [(line0 * 128, 1)], durable := false, made := maker }
     combined.refusedLate .h0 e.team e.gid e.line 1 e.made.kernel = none ∧ (barred.refusedLate .h0 e.team e.gid e.line 1 e.made.kernel).isSome = true) ∧
    (let x := txn (.write [(line0 * 128, 1)] { durable := false, release := none, published := true, holder := none, made := maker })
     (txns x).refusedLate .h1 0 0 line0 1 false = none ∧ ({ barred with txns := [x] }.txn? 0 = some x) ∧
     ({ barred with txns := [x] }.refusedLate .h1 0 0 line0 1 false).isSome = true ∧ { barred with txns := [x] }.txnBehind x = false) ∧
    [TxnKind.read false, .read true, .write [(line0 * 128, 1)] { durable := false, release := none, published := true, holder := none, made := maker }].all (fun k => (txns (txn k)).txn? 0 == some (txn k) && !(txns (txn k)).txnBehind (txn k)) = true ∧
    ({ txns (txn (.read false)) with tbase := 0x10000 }.txnOver (txn (.read false)) = true) ∧
    ((txns { txn (.read false) with error := some 0x60 }).txn? 0).map (fun x => x.error) = some (some 0x60) ∧
    ((txns { txn (.read false) with answer := some answer0 }).txn? 0).map (fun x => (x.error, x.answer)) = some (none, some answer0) ∧
    (homed .h0 line0 = true ∧ ((dirWith entryI []).hub .h0).entry line0 = entryI ∧ ((dirWith entryI []).hub .h0).copyOf 3 line0 = none ∧ (dirWith entryI []).durableLine line0 = false ∧
      ((dirWith entryI []).hub .h0).peers = []) := by decide +kernel
theorem wit_MemoryEvents_lines :
    (let s := (dirWith entryI []).modHub .h0 (fun h => { h with durBase := 0x40000000, durSize := 0x1000 })
     s.durableLine line0 = true ∧ (s.hub .h0).entry line0 = entryI ∧ s.roomForKeys [line0 * 128 + 1] = true) ∧
    (((dirWith { entryI with pending := some (3, [5]) } []).hub .h0).entry line0).pending = some (3, [5]) ∧
    (((dirWith { entryI with pending := some (3, [5, 6]) } []).hub .h0).entry line0).pending = some (3, [5, 6]) ∧
    (let s := dirWith { entryI with state := .M, owner := 3 } [{ peer := 3, line := line0, state := .M, data := [] }]
     ((s.hub .h0).entry line0).owner = 3 ∧ ((s.hub .h0).entry line0).state = .M ∧ ((s.hub .h0).copyOf 3 line0).map (fun p => p.dirty) = some true) ∧
    (State.reset.referencePackage = State.reset.flash.package) ∧
    (let s := { State.reset.modHub .h0 (fun h => { h with plst := 1 }) with packages := [{ package := 0, state := PeerState.up, lastBeat := 0, recoveringSince := 0, rejoins := 0 }], tbase := 0x200000, flash := { Flash.factory with package := 1 } }
     s.referencePackage ≠ s.flash.package ∧ (s.hub .h0).fenced = false ∧ s.unreferenced .h0 = true) ∧
    ({ State.reset.modHub .h0 (fun h => { h with fenced := true }) with tbase := 0x200000 }.cutOff .h0 = true) := by decide +kernel
theorem wit_MemoryEvents_mail :
    (((State.reset.modHub .h0 (fun h => { h with notes := [{ line := line0, team := 0, gid := 0, scope := 4, published := false, core := none, hub := .h0, clock := 0 }] })).hub .h0).notes =
      [{ line := line0, team := 0, gid := 0, scope := 4, published := false, core := none, hub := .h0, clock := 0 }]) ∧
    (((State.reset.modHub .h0 (fun h => { h with persist := [{ granule := 0, data := zeros 64, origins := List.replicate 16 0 }] })).hub .h0).persist[0]?).isSome = true ∧
    [false, true].all (fun f => (mail1 none f).mails.any (fun m => m.id == 0 && m.outcome.isNone && m.forward == f && !(mail1 none f).mailHeld m &&
      (match (mail1 none f).direct m f with
       | .answer _ _ => true
       | _ => false))) = true ∧
    (let s := (mail1 none false).modHub .h0 (fun h => { h with names := [{ name := 1, team := 1, gid := 0, redirected := false, ended := false }] })
     let t := { s with teams := s.teams ++ [{ Team.boot Flash.factory with id := 1, groups := (Team.boot Flash.factory).groups, cores := [CoreShare.bare (.scalar .h1 0) 0] }] }
     t.mails.any (fun m => match t.direct m false with
       | .forward _ => true
       | _ => false)) = true ∧
    ((mail1 (some 0) false).mails.map (fun m => m.outcome)) = [some 0] := by decide +kernel
/-- A team with one copy. -/
def withCopy (c : Copy) : State := vec.modTeam 0 (fun x => { x with copies := [c] })
def copy0 (c : Copy) (f : State → CopyAt → Bool) : Bool :=
  match (withCopy c).copyAt 0 0 with
  | some x => f (withCopy c) x
  | none => false
/-- The scratchpad of the group poisoned in its first words. -/
def spoilt : State :=
  (withCopy { stoppedCopy false none [(0, 0, 128)] with dir := .outward }).modTeam 0 (fun t => { t with cores := t.cores.map (fun c =>
    { c with scratch := { c.scratch with poison := [0, 1], origins := [(0, 0x60)] } }) })
/-- The access engine with one operation, and with its scratchpad poisoned at 0. -/
def working (o : EngOp) (sick : Bool) : State :=
  (engWith .access [] (fun e => { e with ops := [o] })).modCluster 1 (fun c => if sick then { c with scratch := { c.scratch with poison := [0], origins := [(0, 0x60)] } } else c)
def eng1 (s : State) (f : EngAt → Bool) : Bool :=
  match s.engineAt 1 .access with
  | some x => f x
  | none => false
def begun (code row : Nat) : EngOp := { someOp with code := code, started := true, row := row }
/-- One whose row goes on at an address that nothing maps. -/
def astray : EngOp := { begun 0 0 with inRow := true, gaddr := 0x8000000000 }
/-- The array team's cluster frozen for a pre-emption, its control core gone or not. -/
def frozen (gone : Bool) : State := ((eng []).modTeam 1 (fun t => { t with preempting := true })).modCluster 1 (fun c => { c with frozen := true, exited := gone })
theorem wit_CopyAndEngineEvents :
    [CopyDir.inward, .outward].all (fun d => copy0 { stoppedCopy false none [(0, 0, 128)] with dir := d } (fun s x =>
      decide (x.copy.dir = d) && (x.pick (s.piecesWith x (fun f => decide (f = .lands ∨ f = .mismatch)))).isSome)) = true ∧
    ((spoilt.copyAt 0 0).bind (fun x => x.pick (spoilt.piecesWith x (fun f => decide (f = .fails))))).isSome = true ∧
    copy0 { stoppedCopy false none [(0, 0, 128)] with globalBase := 0x8000000000 } (fun s x => (s.stoppingPiece x).isSome) = true ∧
    [none, some 3].all (fun b => copy0 { stoppedCopy false none [] with barrier := b } (fun s x =>
      decide (x.copy.left = [] ∧ x.copy.dir ≠ .outward ∧ x.copy.barrier = b) && x.team.onCores && !x.copy.barrier.any x.team.opening && s.copyReleased x)) = true ∧
    eng1 (working someOp false) (fun x => (pickOp (working someOp false) ((working someOp false).opTurns x)).isSome && !(working someOp false).mayFinish x) = true ∧
    eng1 (working (begun 0 2) false) (fun x => (working (begun 0 2) false).mayFinish x) = true ∧
    eng1 (working astray false) (fun x => match pickOp (working astray false) ((working astray false).opStops x) with
      | some q => (match (working astray false).opFate x q.1 with
        | .stops _ _ => true
        | _ => false)
      | none => false) = true ∧
    eng1 (working (begun 1 0) true) (fun x => (pickOp (working (begun 1 0) true) ((working (begun 1 0) true).opPoisons x)).isSome) = true ∧
    eng1 (engWith .access [] (fun e => { e with halting := true })) (fun x => x.engine.halting && x.engine.ops.isEmpty && decide (x.engine.state = .running) && !x.cluster.frozen) = true ∧
    eng1 (working (begun 1 0) false) (fun x => decide (x.engine.ops.find? (fun o => o.started && !o.abandoned && (engCode .access o.code).outward) = some (begun 1 0))) = true ∧
    (((eng []).modGroup 1 0 (fun g => { g with async := [.engineFault .access 0x40 3 0] })).group? 1 0).any (fun g =>
      decide (firstCause g.takable = some (.engineFault .access 0x40 3 0)) && (AsyncCause.engineFault .access 0x40 3 0).isEngine && !g.retired && !g.saved) = true ∧
    team1 (eng []) (fun t => t.cluster.any (fun c => !c.exited)) = true ∧
    team1 (eng []) (fun t => t.cluster.any (fun c => (bankBytes 0x42800).all bankByteOk && c.formatsFree false 0x42800)) = true ∧
    [false, true].all (fun e => team1 (frozen e) (fun t => (frozen e).freezable t && t.cluster.any (fun c => c.exited == e))) = true ∧
    (((eng []).modGroup 1 0 (fun g => { g with handling := some 0x70 })).group? 1 0).any (fun g => g.handling.isSome) = true := by decide +kernel
def peerIn (st : PeerState) : PeerPackage := { package := 5, state := st, lastBeat := 0, recoveringSince := 0, rejoins := 0 }
def later (ps : List PeerPackage) : State := { State.reset with packages := ps, tbase := 0x200000 }
def linked (l : Link) : State := { State.reset.modHub .h0 (fun h => { h with plst := 0xFF }) with ports := [l] }
/-- A port that its third key has expired on, or that serves. -/
def port3 (trained : Bool) (st : BitVec 2) (n : Dword) (fails : Nat) : Link :=
  { plane := 3, trained := trained, state := st, rekeys := 0, counter := n, received := 0, keyed := 0, authFailures := fails }
theorem wit_PackageEvents :
    (let h := (State.reset.modHub .h0 (fun h => { h with live := 0 })).hub .h0
     h.live.getLsbD 2 = false ∧ h.fit.getLsbD 2 = true ∧ (h.caps.find? (fun x => x.pos == 2)).any (fun c => tableOk 2 c.table) = true ∧ tableOk 2 [] = false) ∧
    (let s := State.reset.modHub .h0 (fun h => { h with dying := [3], plst := 0xF7 })
     s.remapReady .h0 3 = true ∧ s.txns = [] ∧ (s.hub .h0).dying.contains 3 = true ∧ (s.hub .h0).nextLive 3 = some 4 ∧ (s.hub .h0).movingIndices 3 = [3]) ∧
    (5 ≠ State.reset.flash.package ∧ ∀ p ∈ (later [peerIn .up]).packages, p.package = 5 → p.state ≠ .failed) ∧
    ((later [peerIn .up]).silent (peerIn .up) = true ∧ (later [peerIn .recovering]).recoveredTooLong (peerIn .recovering) = true) ∧
    (peerIn .failed ∈ (later [peerIn .failed]).packages ∧ (peerIn .failed).state = .failed) ∧
    [port3 true 0 0 0, port3 true 0 0 2, port3 true 1 0 0, port3 true 2 0 0, port3 false 0 0 0, port3 true 0 (BitVec.twoPow 64 48) 0].all (fun l =>
      (linked l).port? 3 == some l) = true ∧
    (port3 true 0 (BitVec.twoPow 64 48) 0).spent = true ∧ (port3 true 0 0 0).spent = false ∧
    (State.reset.tableAt .h0 2).isSome = true ∧
    ((later []).tbase - (later []).beat).toNat ≥ 10 * 1024 ∧ (linked (port3 true 0 0 0)).livePlanes ≠ [] ∧
    State.reset.powered = true ∧ State.reset.dark.powered = false ∧
    State.reset.planeReached .h0 7 = true ∧ (State.resetAs .f8405).planeReached .h0 3 = true ∧ (State.resetAs .f8405).planeReached .h0 4 = false ∧
    (100 ≤ min State.reset.hub0.pwrLimit.toNat State.reset.hub1.pwrLimit.toNat ∧ ((State.reset.modHub .h0 (fun h => { h with mhz := 2000 })).hub .h0).mhz.toNat + 25 ≤ 2500) := by decide +kernel
theorem wit_StepRunsDecoded :
    (let s := State.reset.withFetchWord 64 0x0000000000000D00
     (match s.next, s.team? 0, s.group? 0 0 with
      | .agent (.group 0 0), some t, some g =>
        (match t.coreOf g, g.issuing with
         | some u, some p => (match translate s (fetchSpace t g u) p.pc .fetch with
           | .ok x =>
             let s1 := s.touch (fetchSpace t g u) p.pc .fetch x
             let r := s1.codeAt t g u (lineOf p.pc) x
             let w := p.pc.toNat % 64 / 4
             decide (firstCause g.takable = none ∧ bits p.pc 1 0 = 0 ∧ (lineMarks r.2)[w]? = some .start ∧ g.fetched = []) &&
               ((s1.core u).codeLine t.asn (lineOf p.pc)).isNone && (match decodeMain (bytesFrom r.2 w) with
                 | .instr _ => true
                 | _ => false)
           | .bad _ => false)
         | _, _ => false)
      | _, _, _ => false) = true) ∧
    (∃ x, (eng []).engineIssuer = some x ∧ (eng []).next = .agent (.engine 1 .access) ∧ x.engine.pc < 2048 ∧
      decodeEngine .access (x.engine.imem.getD x.engine.pc 0) = .instr (.push 0)) ∧
    (∃ x, (engWith .access [] (fun e => { e with pc := 2048 })).engineIssuer = some x ∧ 2048 ≤ x.engine.pc) ∧
    { State.reset with next := .event .membershipBeat }.next = .event .membershipBeat ∧ { State.reset with next := .idle }.next = .idle :=
  ⟨by decide +kernel, eng_of (by decide +kernel), eng_of (by decide +kernel), rfl, rfl⟩
theorem wit_DecodeEncode :
    (Instr.iadd (vw 1)).wf = true ∧ 8 ≤ (encode (.iadd (vw 1))).length ∧ mainOf (.iadd (vw 1)) ≠ none ∧
    (Instr.push 5).wf = true ∧ (encode (.push 5)).length = 2 ∧ mainOf (.push 5) = none ∧ engineWordOf (.push 5) ≠ none := by decide +kernel
theorem wit_MemoryInvariant : ∃ s t, State.memoryOk s = true ∧ step s = .next t :=
  ⟨{ State.reset with next := .idle }, _, by decide +kernel, rfl⟩
theorem wit_MemoryLaws : Memory.wf (Memory.writeCells [] [(3, 7), (1, 9)]) = true ∧ Memory.wf (Memory.writeCells [] [(1, 9), (3, 7)]) = true ∧
    ∀ x, Memory.read (Memory.writeCells [] [(3, 7), (1, 9)]) x = Memory.read (Memory.writeCells [] [(1, 9), (3, 7)]) x := by
  have h : Memory.writeCells [] [(3, 7), (1, 9)] = Memory.writeCells [] [(1, 9), (3, 7)] := by decide +kernel
  exact ⟨by decide +kernel, by decide +kernel, fun x => by rw [h]⟩
/-- A control core at kernel level whose access engine has an operation stopped at a fault. -/
def stopping : State := (kctl [(1, 0), (2, 1)] none).modEngine 1 .access (fun e => { e with ops := [{ begun 0 0 with stopped := true, stopCause := 0x20 }] })
theorem wit_EngineControl_resume : ∃ c, Issues { op := 0x389, privileged := true, d := .dst 64 statusCode, a := uniformSource, b := uniformSource, mOk := true }
    { mw with d := sr 4, a := sr 1, b := sr 2 } stopping c ∧
    (c.active ≠ 0 ∧ (stopping.onClusterNumber 0).map (fun t => t.id) = some 1 ∧ (stopping.stoppedOp 1).isSome = true ∧ readyB (stopping.release c 3 false) = true) :=
  issues_of (by decide +kernel)
/-! ## Witnesses: traps -/

/-- A task's access of its first GiB, by no cached translation. -/
def taskSpace : Space := { queueSpace .h0 (Queue.fresh 0) with ptroot := 0x1000, kernel := false, tlb := none }
/-- The machine with another leaf for that GiB. -/
def leafed (e : Dword) (s : State) : State := { s with mem := s.mem.writeCells (placedWord .h0 0x3000 e) }
def leaf0 : Dword := placedLeaf .h0 false
/-- One whose leaf names package 5, which is present. -/
def abroad (mode : Nat) : State :=
  leafed (leaf0 ||| BitVec.ofNat 64 (5 * 2 ^ 15 + mode * 2 ^ 11)) { vec with packages := [peerIn .up] }
/-- The leaf that an access meets, with no cached translation. -/
def leafB (s : State) (k : AccessKind) (p : Walked → Bool) : Bool :=
  (s.cached taskSpace 0x100 k).isNone && (match walk s taskSpace [] 0x100 k with
    | .ok x => p x
    | .error _ => false)
def present (s : State) (x : Walked) : Bool := s.peerPresent (s.pteHome x.leaf)
def refusal (s : State) (x : Walked) (k : AccessKind) : Bool :=
  (s.refusedBy taskSpace (s.pteHome x.leaf) (ptePpn x.leaf * 4096 + 0x100) (neededRights k)).isSome
def away (s : State) (x : Walked) : Bool := !localHome (s.pteHome x.leaf)
/-- The registers that the leaf maps. -/
def registered : State := leafed ((leaf0 &&& 0x1FFFFFF) ||| BitVec.ofNat 64 (0x400000000 * 2 ^ 25)) vec
/-- The walk's tables go on in package 5. -/
def farTables : State :=
  { vecS [(1, 0x100)] with
    mem := vec.mem.writeCells (placedWord .h0 0x1000 (BitVec.ofNat 64 (1 + 5 * 2 ^ 15 + 2 * 2 ^ 25)))
    packages := [peerIn .up], hub0 := { State.reset.hub0 with plst := 0xFF }, hub1 := { State.reset.hub1 with plst := 0xFF } }
/-- A group whose s2 is poisoned, and one whose p1 is. -/
def tainted : State := vecWith id { vgroup with regs := (vgroup.regs.setS 1 0x100 false).setS 2 7 true }
def guarded : State := vecWith id { vgroup with regs := { vgroup.regs with preds := vgroup.regs.preds.set 0 (BitVec.allOnes 64), predPoison := vgroup.regs.predPoison.set 0 1 } }
/-- What a memory instruction's lanes meet. -/
def meets (w : MainWord) (a : Opnd) (c : Ctx) (s : State) : List LaneFault :=
  (checkLanes s c.space (reading false) (effectiveAddress a w 4) (cleanLanes a (c.accessLanes true))).2
theorem wit_AccessTraps_instructions :
    (∃ c, Issues (loadSig 0x302 memWord true true) memWord (mapped.modTeam 0 (fun t => { t with mode := .checkpointed })) c ∧ c.team.staging = true) ∧
    (∃ c, Issues (loadSig 0x280 memWord false true) memWord (vecS [(1, 0x8000000000)]) c ∧
      (let fs := meets memWord ((loadSig 0x280 memWord false true).opA c memWord) c (vecS [(1, 0x8000000000)])
       fs ≠ [] ∧ fs.all (fun f => f.cause != walkAsks) = true ∧ Fits c true (sr 4) 32 .uniform)) ∧
    (∃ c, Issues (loadSig 0x280 memWord false true) memWord farTables c ∧
      (meets memWord ((loadSig 0x280 memWord false true).opA c memWord) c farTables).any (fun f => f.cause == walkAsks) = true) ∧
    (∃ c, Issues (storeSig 0x281 .bySources .unused (storeWord 0) false 5) (storeWord 0) tainted c ∧
      ((accesses tainted c writing ((storeSig 0x281 .bySources .unused (storeWord 0) false 5).opA c (storeWord 0)) (storeWord 0)).2 = [] ∧
       ∃ k ∈ List.range 64, (laneBit c.active k && (storeData (storeSig 0x281 .bySources .unused (storeWord 0) false 5) c (storeWord 0) 4).opnd.poison k) = true)) :=
  ⟨issues_of (by decide +kernel), issues_of (by decide +kernel), issues_of (by decide +kernel), issues_of (by decide +kernel)⟩
theorem wit_AccessTraps_leaves :
    (0x101 % 4 ≠ 0 ∧ 0x100 % 4 = 0 ∧ canonical 0x0100000000000000 = false) ∧
    leafB (leafed (leaf0 ||| BitVec.ofNat 64 (9 * 2 ^ 15)) vec) .read (fun x => !present (leafed (leaf0 ||| BitVec.ofNat 64 (9 * 2 ^ 15)) vec) x) = true ∧
    leafB (abroad 0) .read (fun x => present (abroad 0) x && pteMode x.leaf == 0 && away (abroad 0) x) = true ∧
    leafB (leafed (leaf0 ||| 0x2000) vec) .read (fun x => present vec x && !away vec x && pteDur x.leaf && !vec.inDurableWindow (vec.pteHome x.leaf) (ptePpn x.leaf * 4096 + 0x100)) = true ∧
    leafB (leafed (leaf0 &&& ~~~2) vec) .read (fun x => !pteRd x.leaf && !pteDur x.leaf) = true ∧
    leafB (leafed (leaf0 &&& ~~~0x10) vec) .read (fun x => pteRd x.leaf && !pteT x.leaf) = true ∧
    leafB (leafed (leaf0 &&& ~~~4) vec) .write (fun x => !pteW x.leaf && pteT x.leaf) = true ∧
    leafB (leafed (leaf0 &&& ~~~0x10) vec) .write (fun x => pteW x.leaf && !pteT x.leaf) = true ∧
    leafB barred .read (fun x => pteRd x.leaf && pteT x.leaf && refusal barred x .read) = true ∧
    (let s := (abroad 1).modHub .h0 (fun h => { h with cut := true })
     leafB s .read (fun x => present s x && pteMode x.leaf == 1 && away s x && !refusal s x .read && (s.hub taskSpace.masterHub).cut)) = true ∧
    leafB (abroad 1) .read (fun x => away (abroad 1) x && !refusal (abroad 1) x .read && !((abroad 1).hub taskSpace.masterHub).cut &&
      ((abroad 1).queueRegister (memKey ((abroad 1).pteHome x.leaf) (ptePpn x.leaf * 4096 + 0x100))).isNone) = true ∧
    leafB registered .read (fun x => !refusal registered x .read && (registered.queueRegister (memKey (registered.pteHome x.leaf) (ptePpn x.leaf * 4096 + 0x100))).isSome) = true ∧
    leafB vec .read (fun x => !refusal vec x .read && (vec.queueRegister (memKey (vec.pteHome x.leaf) (ptePpn x.leaf * 4096 + 0x100))).isNone) = true := by
  decide +kernel
/-- The entry that a walk reads at a level, and what it is. -/
def entryB (s : State) (table : Nat) (p : Dword → Bool) : Bool :=
  s.peerPresent (peerOf .h0) && (s.linkError .h0 (lineOfKey (memKey (peerOf .h0) table))).isNone &&
  p (BitVec.ofNat 64 (ofBytes (((s.homeLine (lineOfKey (memKey (peerOf .h0) table))).drop (memKey (peerOf .h0) table % 128)).take 8)))
theorem wit_AccessTraps_walks :
    vec.peerPresent 18 = false ∧ localHome (peerOf .h0) = true ∧
    entryB vec 0x1000 (fun e => pteV e && isPointer e) = true ∧ entryB vec 0x9000 (fun e => !pteV e) = true ∧
    entryB vec 0x3000 (fun e => pteV e && !isPointer e && ptePpn e % 2 ^ 18 == 0) = true ∧
    entryB (leafed (leaf0 ||| BitVec.ofNat 64 (2 ^ 25)) vec) 0x3000 (fun e => pteV e && !isPointer e && ptePpn e % 2 ^ 18 != 0) = true := by decide +kernel
/-- A word of a control instruction under the guard p1. -/
def ctlWord : MainWord := { mw with pred := 1, a := 0xE0, c := 0xE0 }
theorem wit_ControlTraps :
    (∀ r ∈ controlRows, ∃ w ∈ [{ mw with pred := 1 }, { ctlWord with c := 0 }, ctlWord], ∃ c, Issues (r.sig w) w (guarded.modGroup 0 0 (fun g => { g with regs := { g.regs with pos := g.regs.pos.map (fun p => { p with depth := 2 }) } })) c ∧
      r.ready (r.sig w) c w = true ∧ laneBit c.guardPoison 0 = true) := by
  have h : controlRows.all (fun r => [{ mw with pred := 1 }, { ctlWord with c := 0 }, ctlWord].any (fun w =>
      issuesB (r.sig w) w (guarded.modGroup 0 0 (fun g => { g with regs := { g.regs with pos := g.regs.pos.map (fun p => { p with depth := 2 }) } })) (fun c =>
        decide (r.ready (r.sig w) c w = true ∧ laneBit c.guardPoison 0 = true)))) = true := by decide +kernel
  intro r hr
  obtain ⟨w, hw, h⟩ := List.any_eq_true.1 (List.all_eq_true.1 h r hr)
  exact ⟨w, hw, issues_of h⟩
/-- A group whose lanes stand at a depth. -/
def deep (d : Byte) : State := vec.modGroup 0 0 (fun g => { g with regs := { g.regs with pos := g.regs.pos.map (fun p => { p with depth := d }) } })
/-- The boot work item with open levels, at task level. -/
def levelled (n : Nat) (taint : Dword) : State := (scal .task []).modGroup 0 0 (fun g => { g with ldep := n, regs := { g.regs with predPoison := g.regs.predPoison.set 0 taint } })
theorem wit_ControlTraps_depths :
    (∃ c, Issues { op := 0x343, d := .form 0xFF, a := .dstAny 64, b := .form 0xFF, mOk := true, branch := true } { mw with a := zr } (deep 255) c ∧ (c.active ≠ 0 ∧ c.pos.depth = 255)) ∧
    (∃ c, Issues { op := 0x344, d := .form 0xFF, a := .src tN64 isAddress, b := .form 0xFF, c := .dstAny 64, mOk := true } { mw with a := zr, c := zr } (deep 255) c ∧ (c.active ≠ 0 ∧ c.pos.depth = 255)) ∧
    (∃ c, Issues { op := 0x345, a := .s tN64, b := .form 0xFF, mOk := true, imm := true } { mw with a := sr 2 } (deep 0) c ∧ (c.active ≠ 0 ∧ c.pos.depth = 0)) ∧
    (∃ c, Issues { op := 0x348, inV := false, a := .src tN32 loopCount, mOk := true, branch := true } { mw with a := sr 1, c := 4 } (levelled 3 0) c ∧ (c.active ≠ 0 ∧ c.group.ldep = 3)) ∧
    (∃ c, Issues { op := 0x348, inV := false, a := .src tN32 loopCount, mOk := true, branch := true } { mw with pred := 1, a := sr 1, c := 4 } (levelled 0 1) c ∧
      (loopBad c.group (fallPc c { mw with pred := 1, a := sr 1, c := 4 }) (branchTarget c { mw with pred := 1, a := sr 1, c := 4 }) = false ∧ laneBit c.guardPoison 0 = true)) :=
  ⟨issues_of (by decide +kernel), issues_of (by decide +kernel), issues_of (by decide +kernel), issues_of (by decide +kernel), issues_of (by decide +kernel)⟩
/-- A launch to the other hub over a failed bridge. -/
theorem wit_LaunchInstruction_bridge :
    ∃ c, Issues { op := 0x387, d := .dst 64 statusCode, a := uniformAddress, b := uniformSource, mOk := true } { mw with d := sr 4, a := sr 1, b := sr 2 } { vecG [] [(1, 0x100), (2, 0x40)] with bridgeUp := false } c ∧
      (c.active ≠ 0 ∧ c.team.staging = false ∧ c.hub = .h0 ∧ readyB ({ vecG [] [(1, 0x100), (2, 0x40)] with bridgeUp := false }.release c 3 false) = true) :=
  issues_of (by decide +kernel)
theorem wit_EngineControl_limits : ∀ r ∈ [(24, 0), (23, 2), (24, 2)], ∃ c, Issues { op := 0x389, privileged := true, d := .dst 64 statusCode, a := uniformSource, b := uniformSource, mOk := true }
    { mw with d := sr 4, a := sr 1, b := sr 2 } (kctl [(1, BitVec.ofNat 64 r.1), (2, BitVec.ofNat 64 r.2)] none) c ∧
    (c.active ≠ 0 ∧ (c.group.regs.s 1).value = BitVec.ofNat 64 r.1 ∧ (c.group.regs.s 2).value = BitVec.ofNat 64 r.2) := by
  have h : ([(24, 0), (23, 2), (24, 2)] : List (Nat × Nat)).all (fun r => issuesB { op := 0x389, privileged := true, d := .dst 64 statusCode, a := uniformSource, b := uniformSource, mOk := true }
    { mw with d := sr 4, a := sr 1, b := sr 2 } (kctl [(1, BitVec.ofNat 64 r.1), (2, BitVec.ofNat 64 r.2)] none) (fun c => decide
    (c.active ≠ 0 ∧ (c.group.regs.s 1).value = BitVec.ofNat 64 r.1 ∧ (c.group.regs.s 2).value = BitVec.ofNat 64 r.2))) = true := by decide +kernel
  exact fun r hr => issues_of (List.all_eq_true.1 h r hr)
/-- Mail for a held register that is being forwarded, and none. -/
theorem wit_NamesAndMail_closing : ∀ f ∈ [true, false], ∃ c,
    Issues { op := 0x38D, inS := false, d := .code, b := uniformSource, mOk := true, xMask := 0x007, fieldsOk := true, operandsBad := holdBad (named true false) { mw with d := 4, b := zr, m := 1 } }
      { mw with d := 4, b := zr, m := 1 } { named true false with mails := (mail1 none f).mails } c ∧
    (c.active ≠ 0 ∧ { named true false with mails := (mail1 none f).mails }.mailComing c.group 4 = f ∧ (c.group.mailboxes.filter (fun m => m.armed)).any (fun m => m.reg == 4) = true) := by
  have h : [true, false].all (fun f => issuesB { op := 0x38D, inS := false, d := .code, b := uniformSource, mOk := true, xMask := 0x007, fieldsOk := true, operandsBad := holdBad (named true false) { mw with d := 4, b := zr, m := 1 } }
      { mw with d := 4, b := zr, m := 1 } { named true false with mails := (mail1 none f).mails } (fun c => decide
    (c.active ≠ 0 ∧ { named true false with mails := (mail1 none f).mails }.mailComing c.group 4 = f ∧ (c.group.mailboxes.filter (fun m => m.armed)).any (fun m => m.reg == 4) = true))) = true := by decide +kernel
  exact fun f hf => issues_of (List.all_eq_true.1 h f hf)
/-- A checkpointed team's store and RMW. -/
def staging : State := mapped.modTeam 0 (fun t => { t with mode := .checkpointed })
theorem wit_staged :
    (∃ c, Issues (storeSig 0x281 .bySources .unused (storeWord 0) false 5) (storeWord 0) staging c ∧ (c.stages = true ∧ c.active ≠ 0 ∧ c.awaitsCommit = false ∧ readyB (staging.before c 0 0) = true)) ∧
    (∀ r ∈ atomRows, ∃ k ∈ [0, 1], ∃ d ∈ [zr, sr 4], ∃ c, Issues (r.sig { atomWord k 0 with d := d } false) { atomWord k 0 with d := d } staging c ∧ c.team.staging = true) := by
  have h : atomRows.all (fun r => [0, 1].any (fun k => [zr, sr 4].any (fun d => issuesB (r.sig { atomWord k 0 with d := d } false) { atomWord k 0 with d := d } staging (fun c => decide (c.team.staging = true))))) = true := by
    decide +kernel
  refine ⟨issues_of (by decide +kernel), fun r hr => ?_⟩
  obtain ⟨k, hk, h⟩ := List.any_eq_true.1 (List.all_eq_true.1 h r hr)
  obtain ⟨d, hd, h⟩ := List.any_eq_true.1 h
  exact ⟨k, hk, d, hd, issues_of h⟩

end Sys2Proof.Tests
end

/-! # Memory: reads after writes, and extensionality of the canonical form -/

namespace Sys2Proof.Machine

/-! ## One byte -/

/-- Below every listed address a memory reads as unlisted. -/
theorem Memory.read_of_lt {lo : Nat} {m : Memory} (hw : Memory.wfFrom lo m = true) {x : Nat} (hx : x < lo) :
    m.read x = unlisted := by
  cases m with
  | nil => rfl
  | cons c m =>
    obtain ⟨a, b⟩ := c
    simp only [Memory.wfFrom, Bool.and_eq_true, decide_eq_true_eq] at hw
    rw [Memory.read, if_neg (by omega), if_pos (by omega)]

theorem Memory.read_cons (a x : Nat) (b : Byte) (m : Memory) :
    Memory.read ((a, b) :: m) x = if a = x then b else if x < a then unlisted else m.read x := rfl

/-- A byte reads as it was written, and a write changes no other byte. -/
theorem Memory.read_write_from (a : Nat) (v : Byte) (x : Nat) (m : Memory) :
    ∀ lo, Memory.wfFrom lo m = true → (m.write a v).read x = if x = a then v else m.read x := by
  induction m with
  | nil => intro lo _; simp only [Memory.write]; grind [Memory.read]
  | cons c m ih =>
    obtain ⟨k, b⟩ := c
    intro lo hw
    simp only [Memory.wfFrom, Bool.and_eq_true, decide_eq_true_eq] at hw
    have hlow : x ≤ k → Memory.read m x = unlisted := fun h => Memory.read_of_lt hw.2 (Nat.lt_succ_of_le h)
    have htail := ih (k + 1) hw.2
    rcases Nat.lt_trichotomy a k with hak | rfl | hak
    · rw [Memory.write, if_pos hak]
      split <;> grind [Memory.read_cons]
    · rw [Memory.write, if_neg (Nat.lt_irrefl a), if_pos rfl]
      split <;> grind [Memory.read_cons]
    · rw [Memory.write, if_neg (by omega), if_neg (by omega), Memory.read_cons, htail, Memory.read_cons]
      grind

@[simp] theorem Memory.read_write {m : Memory} (hm : m.wf = true) (a : Nat) (v : Byte) (x : Nat) :
    (m.write a v).read x = if x = a then v else m.read x :=
  Memory.read_write_from a v x m 0 hm

/-! ## Ranges and lists of cells -/

/-- A write of a range changes no byte outside it. -/
theorem Memory.read_writeBytes_outside (bs : List Byte) :
    ∀ {m : Memory} (a x : Nat), m.wf = true → (x < a ∨ a + bs.length ≤ x) → (m.writeBytes a bs).read x = m.read x := by
  induction bs with
  | nil => intros; rfl
  | cons b bs ih =>
    intro m a x hm hx
    rw [List.length_cons] at hx
    rw [Memory.writeBytes, ih (a + 1) x (Memory.write_wf a b hm) (by omega), Memory.read_write hm, if_neg (by omega)]

/-- A range reads as it was written. -/
theorem Memory.readBytes_writeBytes (bs : List Byte) :
    ∀ {m : Memory} (a : Nat), m.wf = true → (m.writeBytes a bs).readBytes a bs.length = bs := by
  induction bs with
  | nil => intros; rfl
  | cons b bs ih =>
    intro m a hm
    have hw := Memory.write_wf a b hm
    have hfirst : ((m.write a b).writeBytes (a + 1) bs).read a = b := by
      rw [Memory.read_writeBytes_outside bs (a + 1) a hw (by omega), Memory.read_write hm, if_pos rfl]
    rw [Memory.writeBytes, List.length_cons, Memory.readBytes, hfirst, ih (a + 1) hw]

/-- After a list of cells a byte reads as the last of them that names it. -/
theorem Memory.read_writeCells (cs : List (Nat × Byte)) (x : Nat) :
    ∀ {m : Memory}, m.wf = true → (m.writeCells cs).read x =
      ((cs.reverse.find? (fun c => c.1 == x)).map (fun c => c.2)).getD (m.read x) := by
  induction cs with
  | nil => intros; rfl
  | cons c cs ih =>
    intro m hm
    have htail : (m.writeCells (c :: cs)) = (m.write c.1 c.2).writeCells cs := rfl
    rw [htail, ih (Memory.write_wf c.1 c.2 hm), Memory.read_write hm, List.reverse_cons, List.find?_append]
    cases hfind : cs.reverse.find? (fun c => c.1 == x) with
    | some d => rfl
    | none =>
      by_cases hx : x = c.1
      · simp [hx]
      · simp [hx, Ne.symm hx]

/-! ## Extensionality -/

/-- Canonical memories that read alike are equal lists. -/
theorem Memory.eq_of_read_eq (m : Memory) :
    ∀ (n : Memory) (lo : Nat), Memory.wfFrom lo m = true → Memory.wfFrom lo n = true →
      (∀ x, m.read x = n.read x) → m = n := by
  induction m with
  | nil =>
    intro n lo _ hn h
    cases n with
    | nil => rfl
    | cons d n =>
      obtain ⟨k, b⟩ := d
      simp only [Memory.wfFrom, Bool.and_eq_true, decide_eq_true_eq] at hn
      exact absurd (by simpa [Memory.read] using (h k).symm) hn.1.2
  | cons c m ih =>
    intro n lo hm hn h
    obtain ⟨a, b⟩ := c
    simp only [Memory.wfFrom, Bool.and_eq_true, decide_eq_true_eq] at hm
    obtain ⟨⟨_, hb⟩, hm⟩ := hm
    cases n with
    | nil => exact absurd (by simpa [Memory.read] using h a) hb
    | cons d n =>
      obtain ⟨k, e⟩ := d
      simp only [Memory.wfFrom, Bool.and_eq_true, decide_eq_true_eq] at hn
      obtain ⟨⟨_, he⟩, hn⟩ := hn
      have hak : a = k := by
        rcases Nat.lt_trichotomy a k with hlt | heq | hlt
        · exact absurd (by simpa [Memory.read_cons, hlt, Nat.ne_of_gt hlt] using h a) hb
        · exact heq
        · exact absurd (by simpa [Memory.read_cons, hlt, Nat.ne_of_gt hlt] using (h k).symm) he
      subst hak
      have hbe : b = e := by simpa [Memory.read_cons] using h a
      have htail : m = n := ih n (a + 1) hm hn fun x => by
        by_cases hx : x ≤ a
        · rw [Memory.read_of_lt hm (by omega), Memory.read_of_lt hn (by omega)]
        · simpa [Memory.read_cons, show a ≠ x by omega, show ¬ x < a by omega] using h x
      rw [hbe, htail]

/-- Settles O59: the laws of one byte, of ranges and of cell lists, and extensionality, each by induction on the list. -/
theorem memoryLaws : Obligations.MemoryLaws := by
  unfold Obligations.MemoryLaws
  intro m n hm
  exact ⟨fun a v x => Memory.read_write hm a v x,
    fun a bs => ⟨Memory.readBytes_writeBytes bs a hm, fun x hx => Memory.read_writeBytes_outside bs a x hm hx⟩,
    fun cs x => Memory.read_writeCells cs x hm,
    fun hn h => Memory.eq_of_read_eq m n 0 hm hn h⟩

end Sys2Proof.Machine

/-! # Every step keeps the memories in canonical form

One lemma for each state operation that a step can run, named `<operation>_memoryOk`, in the order of the model's definitions. It comes in
two forms. An operation that writes no memory leaves the form as it is: an equation, which holds in every state. One that writes a memory,
or runs an operation that does, keeps the form: an implication from `s.memoryOk = true`. Where an operation may answer without a state, or
with one inside another answer, the answers' predicates below say that every state in it is canonical.
The laws of `Memory` are used in the few operations that change a memory itself. -/

namespace Sys2Proof.Machine

/-! ## The invariant on what operations answer -/

/-- Every state that a body's answer carries is canonical. -/
def Res.memoryOk : Res → Bool
  | .done s | .moved s _ _ _ | .fails s _ | .wait s _ | .gone s => s.memoryOk
  | .trap _ | .call _ _ => true

@[simp] theorem Res.memoryOk_done (s : State) : (Res.done s).memoryOk = s.memoryOk := rfl
@[simp] theorem Res.memoryOk_moved (s : State) (pos taken target) : (Res.moved s pos taken target).memoryOk = s.memoryOk := rfl
@[simp] theorem Res.memoryOk_wait (s : State) (k) : (Res.wait s k).memoryOk = s.memoryOk := rfl
@[simp] theorem Res.memoryOk_gone (s : State) : (Res.gone s).memoryOk = s.memoryOk := rfl
@[simp] theorem Res.memoryOk_trap (t) : (Res.trap t).memoryOk = true := rfl
@[simp] theorem Res.memoryOk_call (m t) : (Res.call m t).memoryOk = true := rfl

/-- The state of a synchronisation is canonical. -/
def Sync.memoryOk : Sync → Bool
  | .ready s | .wait s _ | .fails s _ => s.memoryOk

@[simp] theorem Sync.memoryOk_ready (s : State) : (Sync.ready s).memoryOk = s.memoryOk := rfl
@[simp] theorem Sync.memoryOk_wait (s : State) (k) : (Sync.wait s k).memoryOk = s.memoryOk := rfl
@[simp] theorem Sync.memoryOk_fails (s : State) (t) : (Sync.fails s t).memoryOk = s.memoryOk := rfl

/-- The state of a read is canonical. -/
def ReadRes.memoryOk : ReadRes → Bool
  | .ok s _ => s.memoryOk
  | .later | .mismatch => true

@[simp] theorem ReadRes.memoryOk_ok (s : State) (vals) : (ReadRes.ok s vals).memoryOk = s.memoryOk := rfl
@[simp] theorem ReadRes.memoryOk_later : (ReadRes.later).memoryOk = true := rfl
@[simp] theorem ReadRes.memoryOk_mismatch : (ReadRes.mismatch).memoryOk = true := rfl

/-- The state of a read that has been matched. -/
theorem ReadRes.memoryOk_of_eq {r : ReadRes} {s : State} {vals} (hr : r.memoryOk = true) (h : r = .ok s vals) : s.memoryOk = true := by
  subst h
  exact hr

/-- The state after a reordering is canonical. -/
def ReordOutcome.memoryOk : ReordOutcome → Bool
  | .moved s => s.memoryOk
  | .pending | .diverged => true

@[simp] theorem ReordOutcome.memoryOk_moved (s : State) : (ReordOutcome.moved s).memoryOk = s.memoryOk := rfl
@[simp] theorem ReordOutcome.memoryOk_pending : (ReordOutcome.pending).memoryOk = true := rfl
@[simp] theorem ReordOutcome.memoryOk_diverged : (ReordOutcome.diverged).memoryOk = true := rfl

/-- The state of a fetch is canonical. -/
def Fetched.memoryOk : Fetched → Bool
  | .instr s _ | .taken s => s.memoryOk
  | .missing => true

@[simp] theorem Fetched.memoryOk_instr (s : State) (i) : (Fetched.instr s i).memoryOk = s.memoryOk := rfl
@[simp] theorem Fetched.memoryOk_taken (s : State) : (Fetched.taken s).memoryOk = s.memoryOk := rfl
@[simp] theorem Fetched.memoryOk_missing : (Fetched.missing).memoryOk = true := rfl

/-- Every state that an engine word's answer carries is canonical. -/
def EngRes.memoryOk : EngRes → Bool
  | .next s _ | .jump s _ _ | .stay s _ | .wait s => s.memoryOk
  | .fault _ _ => true

@[simp] theorem EngRes.memoryOk_next (s : State) (e) : (EngRes.next s e).memoryOk = s.memoryOk := rfl
@[simp] theorem EngRes.memoryOk_jump (s : State) (e target) : (EngRes.jump s e target).memoryOk = s.memoryOk := rfl
@[simp] theorem EngRes.memoryOk_stay (s : State) (e) : (EngRes.stay s e).memoryOk = s.memoryOk := rfl
@[simp] theorem EngRes.memoryOk_wait (s : State) : (EngRes.wait s).memoryOk = s.memoryOk := rfl
@[simp] theorem EngRes.memoryOk_fault (cause word) : (EngRes.fault cause word).memoryOk = true := rfl

/-- The state of a directory's answer is canonical. -/
def Directed.memoryOk : Directed → Bool
  | .answer s _ | .forward s => s.memoryOk
  | .wait => true

@[simp] theorem Directed.memoryOk_answer (s : State) (reason) : (Directed.answer s reason).memoryOk = s.memoryOk := rfl
@[simp] theorem Directed.memoryOk_forward (s : State) : (Directed.forward s).memoryOk = s.memoryOk := rfl
@[simp] theorem Directed.memoryOk_wait : (Directed.wait).memoryOk = true := rfl

/-- The state after the checks of a packet is canonical. -/
def Checked.memoryOk : Checked → Bool
  | .good s _ _ | .bad s _ => s.memoryOk



/-- A step that ends in a next state ends in a canonical one. -/
def outcomeOk : Host.Outcome State Fault Refusal → Bool
  | .next s => s.memoryOk
  | .fault _ | .refused _ => true

@[simp] theorem outcomeOk_next (s : State) : outcomeOk (.next s) = s.memoryOk := rfl
@[simp] theorem outcomeOk_refused (r : Refusal) : outcomeOk (.refused r) = true := rfl

/-! ## Updates, branches and folds -/

@[simp] theorem State.mem_wf {s : State} (h : s.memoryOk = true) : s.mem.wf = true := ((State.memoryOk_iff s).1 h).1

@[simp] theorem State.memPoison_wf {s : State} (h : s.memoryOk = true) : Memory.wf s.memPoison = true := ((State.memoryOk_iff s).1 h).2.1

@[simp] theorem State.tier_wf {s : State} (h : s.memoryOk = true) : s.tier.wf = true := ((State.memoryOk_iff s).1 h).2.2.1

@[simp] theorem State.tierPoison_wf {s : State} (h : s.memoryOk = true) : Memory.wf s.tierPoison = true :=
  ((State.memoryOk_iff s).1 h).2.2.2

/-- A new coherent memory that is canonical. -/
theorem State.withMem_memoryOk {s : State} {m : Memory} (hs : s.memoryOk = true) (hm : m.wf = true) :
    State.memoryOk { s with mem := m } = true :=
  (State.memoryOk_iff _).2 ⟨hm, s.memPoison_wf hs, s.tier_wf hs, s.tierPoison_wf hs⟩

/-- New marks of poison that are canonical. -/
theorem State.withMemPoison_memoryOk {s : State} {m : Marks} (hs : s.memoryOk = true) (hm : Memory.wf m = true) :
    State.memoryOk { s with memPoison := m } = true :=
  (State.memoryOk_iff _).2 ⟨s.mem_wf hs, hm, s.tier_wf hs, s.tierPoison_wf hs⟩

/-- A new durable tier, with its marks, that is canonical. -/
theorem State.withTier_memoryOk {s : State} {m : Memory} {p : Marks} (hs : s.memoryOk = true) (hm : m.wf = true)
    (hp : Memory.wf p = true) : State.memoryOk { s with tier := m, tierPoison := p } = true :=
  (State.memoryOk_iff _).2 ⟨s.mem_wf hs, s.memPoison_wf hs, hm, hp⟩

/-- A range of bytes written to the coherent memory. -/
@[simp] theorem State.writeBytes_memoryOk {s : State} {a : Nat} {bs : List Byte} (hs : s.memoryOk = true) :
    State.memoryOk { s with mem := s.mem.writeBytes a bs } = true :=
  State.withMem_memoryOk hs (Memory.writeBytes_wf bs a (s.mem_wf hs))

/-- Words of the coherent memory poisoned. -/
@[simp] theorem State.poisonWords_memoryOk {s : State} {k n : Nat} {o : Byte} (hs : s.memoryOk = true) :
    State.memoryOk { s with memPoison := poisonWords s.memPoison k n o } = true :=
  State.withMemPoison_memoryOk hs (poisonWords_wf k n o (s.memPoison_wf hs))

/-- An update of other fields than the memories. -/
@[simp] theorem State.memoryOk_update (s : State) (form tick next agenda inputs cycle tbase badGranules hub0 hub1 teams nextTeam commits
    cores readOnly txns nextTxn asked arrived mails ports beat packages revocations retiring access bridgeUp powered tables
    configured reports flash) :
    State.memoryOk { s with
      form := form, tick := tick, next := next, agenda := agenda, inputs := inputs, cycle := cycle, tbase := tbase
      badGranules := badGranules, hub0 := hub0, hub1 := hub1, teams := teams, nextTeam := nextTeam, commits := commits
      cores := cores, readOnly := readOnly, txns := txns, nextTxn := nextTxn, asked := asked, arrived := arrived, mails := mails
      ports := ports, beat := beat, packages := packages, revocations := revocations, retiring := retiring, access := access
      bridgeUp := bridgeUp, powered := powered, tables := tables, configured := configured, reports := reports
      flash := flash } = s.memoryOk := rfl

@[simp] theorem State.memoryOk_ite (c : Prop) [Decidable c] (s t : State) :
    (if c then s else t).memoryOk = if c then s.memoryOk else t.memoryOk := apply_ite _ _ _ _

@[simp] theorem Res.memoryOk_ite (c : Prop) [Decidable c] (r x : Res) :
    (if c then r else x).memoryOk = if c then r.memoryOk else x.memoryOk := apply_ite _ _ _ _

@[simp] theorem Sync.memoryOk_ite (c : Prop) [Decidable c] (x y : Sync) :
    (if c then x else y).memoryOk = if c then x.memoryOk else y.memoryOk := apply_ite _ _ _ _

@[simp] theorem EngRes.memoryOk_ite (c : Prop) [Decidable c] (r x : EngRes) :
    (if c then r else x).memoryOk = if c then r.memoryOk else x.memoryOk := apply_ite _ _ _ _

/-- A fold of steps that leave the form of the memories as it is. -/
@[simp] theorem foldl_memoryOk_eq {α : Type} (f : State → α → State) (hf : ∀ s x, (f s x).memoryOk = s.memoryOk) (xs : List α) :
    ∀ s : State, (xs.foldl f s).memoryOk = s.memoryOk := by
  induction xs with
  | nil => exact fun _ => rfl
  | cons x xs ih => exact fun s => (ih (f s x)).trans (hf s x)

/-- A fold of steps that keep the canonical form. -/
@[simp] theorem foldl_memoryOk {α : Type} (f : State → α → State) (hf : ∀ s x, s.memoryOk = true → (f s x).memoryOk = true) (xs : List α) :
    ∀ {s : State}, s.memoryOk = true → (xs.foldl f s).memoryOk = true := by
  induction xs with
  | nil => exact id
  | cons x xs ih => exact fun h => ih (hf _ x h)

@[simp] theorem foldl_fst_memoryOk {α β : Type} (f : State × β → α → State × β)
    (hf : ∀ acc x, acc.1.memoryOk = true → (f acc x).1.memoryOk = true) (xs : List α) :
    ∀ {acc : State × β}, acc.1.memoryOk = true → (xs.foldl f acc).1.memoryOk = true := by
  induction xs with
  | nil => exact id
  | cons x xs ih => exact fun h => ih (hf _ x h)

/-- The state of a pair that is matched. -/
theorem fst_memoryOk_of_eq {β : Type} {p : State × β} {s : State} {b : β} (hp : p.1.memoryOk = true) (h : p = (s, b)) :
    s.memoryOk = true := by
  subst h
  exact hp

@[simp] theorem getD_map_memoryOk {α : Type} {s : State} {f : α → State} {o : Option α} (h : s.memoryOk = true)
    (hf : ∀ a, (f a).memoryOk = true) : ((o.map f).getD s).memoryOk = true := by
  cases o with
  | none => exact h
  | some a => exact hf a

/-- A fold of steps that may fail: what it ends with is canonical when every step that goes on keeps the form. -/
theorem foldl_bind_memoryOk {α β : Type} (state : β → State) (f : β → α → Option β)
    (hf : ∀ b x c, (state b).memoryOk = true → f b x = some c → (state c).memoryOk = true) (xs : List α) :
    ∀ {acc : Option β} {c : β}, (∀ b, acc = some b → (state b).memoryOk = true) →
      xs.foldl (fun acc x => acc.bind (fun b => f b x)) acc = some c → (state c).memoryOk = true := by
  induction xs with
  | nil => exact fun h hc => h _ hc
  | cons x xs ih =>
    refine fun h hc => ih (fun b hb => ?_) hc
    obtain ⟨a, ha, hb⟩ := Option.bind_eq_some_iff.1 hb
    exact hf a x b (h a ha) hb

theorem except_map_eq_ok {ε α β : Type} {f : α → β} {x : Except ε α} {b : β} (h : x.map f = .ok b) : ∃ a, x = .ok a ∧ f a = b := by
  cases x with
  | error e => cases h
  | ok a => exact ⟨a, rfl, by cases h; rfl⟩

theorem except_bind_eq_ok {ε α β : Type} {f : α → Except ε β} {x : Except ε α} {b : β} (h : x.bind f = .ok b) :
    ∃ a, x = .ok a ∧ f a = .ok b := by
  cases x with
  | error e => cases h
  | ok a => exact ⟨a, rfl, h⟩

theorem readThen_eq_ok {α : Type} {r : Except Nat (State × List Byte)} {k : State → List Byte → Except Nat α} {b : α}
    (h : readThen r k = .ok b) : ∃ x, r = .ok x ∧ k x.1 x.2 = .ok b := except_bind_eq_ok h

theorem foldl_except_bind_memoryOk {α β ε : Type} (state : β → State) (f : β → α → Except ε β)
    (hf : ∀ b x c, (state b).memoryOk = true → f b x = .ok c → (state c).memoryOk = true) (xs : List α) :
    ∀ {acc : Except ε β} {c : β}, (∀ b, acc = .ok b → (state b).memoryOk = true) →
      xs.foldl (fun acc x => acc.bind (fun b => f b x)) acc = .ok c → (state c).memoryOk = true := by
  induction xs with
  | nil => exact fun h hc => h _ hc
  | cons x xs ih =>
    intro acc c h hc
    refine ih (fun b hb => ?_) hc
    cases acc with
    | error e => cases hb
    | ok a => exact hf a x b (h a rfl) hb

/-! ## Machine/Access -/

@[simp] theorem State.setHub_memoryOk (s : State) (h : HubId) (x : Hub) : (s.setHub h x).memoryOk = s.memoryOk := by
  unfold State.setHub
  split <;> simp

@[simp] theorem State.modHub_memoryOk (s : State) (h : HubId) (f : Hub → Hub) : (s.modHub h f).memoryOk = s.memoryOk := by
  unfold State.modHub
  simp

@[simp] theorem State.setTeam_memoryOk (s : State) (t : Team) : (s.setTeam t).memoryOk = s.memoryOk := by rfl

@[simp] theorem State.modTeam_memoryOk (s : State) (id : Nat) (f : Team → Team) : (s.modTeam id f).memoryOk = s.memoryOk := by rfl

@[simp] theorem State.dropTeam_memoryOk (s : State) (id : Nat) : (s.dropTeam id).memoryOk = s.memoryOk := by rfl

@[simp] theorem State.setGroup_memoryOk (s : State) (tid : Nat) (g : Group) : (s.setGroup tid g).memoryOk = s.memoryOk := by rfl

@[simp] theorem State.modGroup_memoryOk (s : State) (tid gid : Nat) (f : Group → Group) :
    (s.modGroup tid gid f).memoryOk = s.memoryOk := by rfl

@[simp] theorem State.setCore_memoryOk (s : State) (c : Core) : (s.setCore c).memoryOk = s.memoryOk := by
  unfold State.setCore
  simp

@[simp] theorem State.modCore_memoryOk (s : State) (u : CoreUnit) (f : Core → Core) : (s.modCore u f).memoryOk = s.memoryOk := by
  unfold State.modCore
  simp

@[simp] theorem State.due_memoryOk (s : State) (i : Instr) : (s.due i).memoryOk = s.memoryOk := by rfl

@[simp] theorem State.undue_memoryOk (s : State) (i : Instr) : (s.undue i).memoryOk = s.memoryOk := by rfl

/-! ## Machine/Home -/

@[simp] theorem State.overwrite_memoryOk {s : State} {cells : List (Nat × Byte)} (hs : s.memoryOk = true) :
    (s.overwrite cells).memoryOk = true :=
  (State.memoryOk_iff _).2 ⟨s.mem_wf hs,
    Memory.foldl_wf _ (fun _ (g : BadGranule) hm => poisonWords_wf (g.granule * 64) 64 0 hm) _ _ (clearPoison_wf _ (s.memPoison_wf hs)),
    s.tier_wf hs, s.tierPoison_wf hs⟩

@[simp] theorem State.loseGranule_memoryOk {s : State} {granule : Nat} (hs : s.memoryOk = true) :
    (s.loseGranule granule).memoryOk = true := by
  have hp := State.poisonWords_memoryOk (k := granule * 64) (n := 64) (o := 0x50) hs
  unfold State.loseGranule
  exact hp

@[simp] theorem State.invalidatePeers_memoryOk {s : State} {line : Nat} (hs : s.memoryOk = true) :
    (s.invalidatePeers line).memoryOk = true := by
  unfold State.invalidatePeers
  cases s.dirtyCopy line <;> simp [hs]

@[simp] theorem State.evictLine_memoryOk {s : State} {line : Nat} (hs : s.memoryOk = true) : (s.evictLine line).memoryOk = true := by
  unfold State.evictLine
  simp [hs]

@[simp] theorem State.sharedBy_memoryOk (s : State) (h : HubId) (peer line : Nat) (durable : Bool) :
    (s.sharedBy h peer line durable).memoryOk = s.memoryOk := by
  unfold State.sharedBy
  dsimp only
  repeat' split
  all_goals simp

@[simp] theorem State.invalidateOthers_memoryOk {s : State} {h : HubId} {peer line : Nat} (hs : s.memoryOk = true) :
    (s.invalidateOthers h peer line).memoryOk = true := by
  unfold State.invalidateOthers
  cases s.dirtyCopy line with
  | none => simp [hs]
  | some p => by_cases hp : p.peer = peer <;> simp [hs, hp]

@[simp] theorem State.grantM_memoryOk (s : State) (h : HubId) (peer line : Nat) : (s.grantM h peer line).memoryOk = s.memoryOk := by
  unfold State.grantM
  simp

@[simp] theorem State.ioRead_memoryOk (s : State) (line : Nat) : (s.ioRead line).memoryOk = s.memoryOk := by
  unfold State.ioRead
  dsimp only
  repeat' split
  all_goals simp

@[simp] theorem State.stampWrite_memoryOk (s : State) (line : Nat) (w : Writer) : (s.stampWrite line w).memoryOk = s.memoryOk := by
  unfold State.stampWrite
  simp

@[simp] theorem State.enterPersist_memoryOk (s : State) (line : Nat) (cells : List (Nat × Byte)) (durable : Bool) :
    (s.enterPersist line cells durable).memoryOk = s.memoryOk := by
  unfold State.enterPersist
  simp

@[simp] theorem State.homeWriteLine_memoryOk {s : State} {line : Nat} {cells : List (Nat × Byte)} {w : Writer} (hs : s.memoryOk = true) :
    (s.homeWriteLine line cells w).memoryOk = true := by
  have h1 := State.invalidatePeers_memoryOk (line := line) hs
  have h2 := State.withMem_memoryOk (State.overwrite_memoryOk (cells := cells) h1) (Memory.writeCells_wf cells (State.mem_wf h1))
  unfold State.homeWriteLine
  simp [h2]

@[simp] theorem State.peerWrite_memoryOk {s : State} {h : HubId} {peer line : Nat} {cells : List (Nat × Byte)} {w : Writer}
    (hs : s.memoryOk = true) : (s.peerWrite h peer line cells w).memoryOk = true := by
  unfold State.peerWrite
  simp [hs]

@[simp] theorem State.homeWrite_memoryOk {s : State} {k : Nat} {bytes : List Byte} {w : Writer} (hs : s.memoryOk = true) :
    (s.homeWrite k bytes w).memoryOk = true := by
  unfold State.homeWrite
  simp [hs]

@[simp] theorem State.homeWriteRange_memoryOk {s : State} {k : Nat} {bytes : List Byte} {w : Writer} (hs : s.memoryOk = true) :
    (s.homeWriteRange k bytes w).memoryOk = true := by
  unfold State.homeWriteRange
  simp +contextual [hs]

@[simp] theorem State.toTier_memoryOk {s : State} {e : PersistEntry} (hs : s.memoryOk = true) : (s.toTier e).memoryOk = true :=
  State.withTier_memoryOk hs (Memory.writeBytes_wf _ _ (s.tier_wf hs))
    (Memory.foldl_wf _ (fun _ (x : Byte × Nat) hm => Memory.write_wf (e.granule * 16 + x.2) x.1 hm) _ _ (s.tierPoison_wf hs))

@[simp] theorem State.drainPersist_memoryOk {s : State} {h : HubId} {index : Nat} (hs : s.memoryOk = true) :
    (s.drainPersist h index).memoryOk = true := by
  unfold State.drainPersist
  split <;> simp [hs]

@[simp] theorem State.makeRoom_memoryOk {s : State} {ks : List Nat} {n : Nat} (hs : s.memoryOk = true) :
    (State.makeRoom ks n s).memoryOk = true := by
  induction n generalizing s with
  | zero => exact hs
  | succ n ih =>
    unfold State.makeRoom
    split
    · exact hs
    · exact ih (by simp +contextual [hs])

/-! ## Machine/Requests -/

@[simp] theorem State.modPort_memoryOk (s : State) (plane : Nat) (f : Link → Link) : (s.modPort plane f).memoryOk = s.memoryOk := by rfl

@[simp] theorem State.sent_memoryOk (s : State) (plane : Nat) : (s.sent plane).memoryOk = s.memoryOk := by rfl

@[simp] theorem State.heard_memoryOk (s : State) (plane : Nat) : (s.heard plane).memoryOk = s.memoryOk := by rfl

@[simp] theorem State.modTxn_memoryOk (s : State) (id : Nat) (f : Txn → Txn) : (s.modTxn id f).memoryOk = s.memoryOk := by rfl

@[simp] theorem State.request_memoryOk (s : State) (asker : Option Turn) (tid gid : Nat) (h : HubId) (line : Nat) (k : TxnKind) :
    (s.request asker tid gid h line k).memoryOk = s.memoryOk := by
  unfold State.request
  simp

@[simp] theorem State.txnError_memoryOk (s : State) (id : Nat) (cause : Byte) : (s.txnError id cause).memoryOk = s.memoryOk := by rfl

@[simp] theorem State.newTxn_memoryOk (s : State) (tid gid : Nat) (h : HubId) (line : Nat) (k : TxnKind) :
    (s.newTxn tid gid h line k).memoryOk = s.memoryOk := by
  unfold State.newTxn
  simp

@[simp] theorem State.rmwAtHome_memoryOk {s : State} {r : RmwWord} {w : Writer} (hs : s.memoryOk = true) :
    (s.rmwAtHome r w).memoryOk = true := by
  unfold State.rmwAtHome
  dsimp only
  split
  · simp [hs]
  · split <;> simp [hs]

@[simp] theorem State.ask_memoryOk (s : State) (h : HubId) (line : Nat) (k : TxnKind) : (s.ask h line k).1.memoryOk = s.memoryOk := by
  unfold State.ask
  split <;> simp

@[simp] theorem State.postAsks_memoryOk (s : State) (asks : List Ask) : (s.postAsks asks).memoryOk = s.memoryOk := by
  unfold State.postAsks
  simp

@[simp] theorem State.answersUsed_memoryOk (s : State) : s.answersUsed.memoryOk = s.memoryOk := by rfl

@[simp] theorem State.closeEvent_memoryOk {s s1 : State} {i : Instr} (hs : s.memoryOk = true) (hs1 : s1.memoryOk = true) :
    (s.closeEvent i s1).memoryOk = true := by
  unfold State.closeEvent
  simp [hs, hs1]

@[simp] theorem State.dropAsks_memoryOk (s : State) (t : Turn) : (s.dropAsks t).memoryOk = s.memoryOk := by rfl

/-! ## Machine/Translate -/

@[simp] theorem State.touch_memoryOk {s : State} {sp : Space} {va : Dword} {k : AccessKind} {x : Xlat} (hs : s.memoryOk = true) :
    (s.touch sp va k x).memoryOk = true := by
  unfold State.touch
  repeat' split
  all_goals simp [hs]

@[simp] theorem State.countMigration_memoryOk {s : State} {h : HubId} {asn : Half} {va : Dword} {x : Xlat} (hs : s.memoryOk = true) :
    (s.countMigration h asn va x).memoryOk = true := by
  unfold State.countMigration
  simp [hs]

/-! ## Machine/HubRegs -/

@[simp] theorem State.modQueue_memoryOk (s : State) (h : HubId) (q : Nat) (f : Queue → Queue) :
    (s.modQueue h q f).memoryOk = s.memoryOk := by
  unfold State.modQueue
  simp

@[simp] theorem State.modPacket_memoryOk (s : State) (h : HubId) (q seq : Nat) (f : Packet → Packet) :
    (s.modPacket h q seq f).memoryOk = s.memoryOk := by
  unfold State.modPacket
  simp

@[simp] theorem State.queueProgress_memoryOk (s : State) (t : Team) : (s.queueProgress t).memoryOk = s.memoryOk := by
  unfold State.queueProgress
  split <;> simp

@[simp] theorem State.writePowerLimit_memoryOk (s : State) (h : HubId) (v : Dword) : (s.writePowerLimit h v).memoryOk = s.memoryOk := by
  unfold State.writePowerLimit
  simp

@[simp] theorem State.writeChctl_memoryOk (s : State) (h : HubId) (kernel : Bool) (v : Dword) :
    (s.writeChctl h kernel v).memoryOk = s.memoryOk := by
  unfold State.writeChctl
  simp

@[simp] theorem State.writeQueueSpace_memoryOk (s : State) (h : HubId) (kernel : Bool) (off : Nat) (v : Dword) :
    (s.writeQueueSpace h kernel off v).memoryOk = s.memoryOk := by
  unfold State.writeQueueSpace
  simp

/-! ## Machine/Retire -/

@[simp] theorem State.recordFails_memoryOk (s : State) (h : HubId) (va : Dword) (status : Byte) (cause : Nat) :
    (s.recordFails h va status cause).memoryOk = s.memoryOk := by rfl

@[simp] theorem State.addOne_memoryOk {s : State} {h : HubId} {q : Nat} {va : Dword} {status : Byte} (hs : s.memoryOk = true) :
    (s.addOne h q va status).memoryOk = true := by
  unfold State.addOne
  split <;> simp [hs]

@[simp] theorem State.writeCompletion_memoryOk {s : State} {h : HubId} {q : Queue} {va : Dword} {status cause : Byte}
    (hs : s.memoryOk = true) : (s.writeCompletion h q va status cause).memoryOk = true := by
  unfold State.writeCompletion
  split
  · exact hs
  · extract_lets +onlyGivenNames sp w1
    split
    · simp [hs]
    · simp [hs]
    next x _ _ _ =>
      extract_lets s1
      have h1 : s1.memoryOk = true := State.countMigration_memoryOk (State.touch_memoryOk hs)
      split
      · simp [h1]
      · simp [h1]
      · split <;> simp [h1]

@[simp] theorem State.releaseTeam_memoryOk (s : State) (t : Team) : (s.releaseTeam t).memoryOk = s.memoryOk := by rfl

@[simp] theorem State.completePacket_memoryOk {s : State} {h : HubId} {q seq : Nat} {status cause : Byte} (hs : s.memoryOk = true) :
    (s.completePacket h q seq status cause).memoryOk = true := by
  unfold State.completePacket
  dsimp only
  repeat' split
  all_goals simp [hs]

@[simp] theorem State.retirePacket_memoryOk {s : State} {h : HubId} {q seq : Nat} {status cause : Byte} {teams : List Nat}
    (hs : s.memoryOk = true) : (s.retirePacket h q seq status cause teams).memoryOk = true := by
  unfold State.retirePacket
  simp [hs]

@[simp] theorem State.settleRetiring_memoryOk {s : State} (hs : s.memoryOk = true) : s.settleRetiring.memoryOk = true := by
  unfold State.settleRetiring
  simp +contextual [hs]

@[simp] theorem State.revoke_memoryOk (s : State) (c : CoreId) (teams : List Nat) : (s.revoke c teams).memoryOk = s.memoryOk := by
  unfold State.revoke
  simp

@[simp] theorem State.revokeFor_memoryOk (s : State) (t : Team) : (s.revokeFor t).memoryOk = s.memoryOk := by
  unfold State.revokeFor
  split
  · rfl
  · refine foldl_memoryOk_eq _ (fun s c => ?_) _ _
    split <;> simp

@[simp] theorem State.killPacket_memoryOk {s : State} {h : HubId} {q seq : Nat} {cause : Byte} (hs : s.memoryOk = true) :
    (s.killPacket h q seq cause).memoryOk = true := by
  unfold State.killPacket
  simp [hs]

@[simp] theorem State.killTeam_memoryOk {s : State} {tid : Nat} {cause : Byte} (hs : s.memoryOk = true) :
    (s.killTeam tid cause).memoryOk = true := by
  unfold State.killTeam
  repeat' split
  all_goals simp [hs]

@[simp] theorem State.retireTeam_memoryOk {s : State} {tid : Nat} (hs : s.memoryOk = true) : (s.retireTeam tid).memoryOk = true := by
  unfold State.retireTeam
  dsimp only
  repeat' split
  all_goals simp [hs]

/-! ## Machine/Ops -/

@[simp] theorem State.loseReservations_memoryOk (s : State) (tid gid : Nat) : (s.loseReservations tid gid).memoryOk = s.memoryOk := by rfl

@[simp] theorem State.takeTrap_memoryOk (s : State) (tid gid : Nat) (m : Dword) (t : TrapInfo) :
    (s.takeTrap tid gid m t).memoryOk = s.memoryOk := by
  unfold State.takeTrap
  split <;> simp

@[simp] theorem State.takeAsync_memoryOk (s : State) (tid gid cause : Nat) (val val2 : Dword) :
    (s.takeAsync tid gid cause val val2).memoryOk = s.memoryOk := by
  unfold State.takeAsync
  split <;> simp

@[simp] theorem State.rollBackTeam_memoryOk (s : State) (tid : Nat) (mismatch : Bool) :
    (s.rollBackTeam tid mismatch).memoryOk = s.memoryOk := by
  unfold State.rollBackTeam
  repeat' split
  all_goals simp

@[simp] theorem State.dataFailure_memoryOk {s : State} {tid : Nat} (hs : s.memoryOk = true) : (s.dataFailure tid).memoryOk = true := by
  unfold State.dataFailure
  repeat' split
  all_goals simp [hs]

@[simp] theorem State.stateLost_memoryOk {s : State} {tid : Nat} (hs : s.memoryOk = true) : (s.stateLost tid).memoryOk = true := by
  unfold State.stateLost
  split <;> simp [hs]

@[simp] theorem State.meetTrap_memoryOk {s : State} {c : Ctx} {m : Dword} {t : TrapInfo} (hs : s.memoryOk = true) :
    (s.meetTrap c m t).memoryOk = true := by
  unfold State.meetTrap
  simp [hs]

@[simp] theorem State.raiseTrap_memoryOk {s : State} {c : Ctx} {m : Dword} {t : TrapInfo} (hs : s.memoryOk = true) :
    (s.raiseTrap c m t).memoryOk = true := by
  unfold State.raiseTrap
  simp [hs]

@[simp] theorem State.post_memoryOk (s : State) (tid gid : Nat) (c : AsyncCause) : (s.post tid gid c).memoryOk = s.memoryOk := by rfl

@[simp] theorem State.takeCause_memoryOk (s : State) (tid gid : Nat) (c : AsyncCause) : (s.takeCause tid gid c).memoryOk = s.memoryOk := by
  unfold State.takeCause
  repeat' split
  all_goals simp

@[simp] theorem State.takeNow_memoryOk (s : State) (tid gid : Nat) (f : AsyncCause → Bool) :
    (s.takeNow tid gid f).memoryOk = s.memoryOk := by
  unfold State.takeNow
  repeat' split
  all_goals simp

@[simp] theorem State.fetchFault_memoryOk {s : State} {tid gid : Nat} {m : Dword} {t : TrapInfo} (hs : s.memoryOk = true) :
    (s.fetchFault tid gid m t).memoryOk = true := by
  unfold State.fetchFault
  split <;> simp [hs]

/-! ## Machine/Cache -/

@[simp] theorem State.holdFailure_memoryOk {s : State} {tid gid : Nat} {f : HeldFailure} (hs : s.memoryOk = true) :
    (s.holdFailure tid gid f).memoryOk = true := by
  unfold State.holdFailure
  split <;> simp [hs]

@[simp] theorem State.performEntry_memoryOk {s : State} {h : HubId} {e : Combining} (hs : s.memoryOk = true) :
    (s.performEntry h e).memoryOk = true := by
  unfold State.performEntry
  simp [hs]

@[simp] theorem State.drainEntry_memoryOk {s : State} {u : CoreUnit} {e : Combining} (hs : s.memoryOk = true) :
    (s.drainEntry u e).memoryOk = true := by
  unfold State.drainEntry
  split <;> simp [hs]

@[simp] theorem State.drainWhere_memoryOk {s : State} {u : CoreUnit} {named : Combining → Bool} {n : Nat} (hs : s.memoryOk = true) :
    (State.drainWhere u named n s).memoryOk = true := by
  induction n generalizing s with
  | zero => exact hs
  | succ n ih =>
    unfold State.drainWhere
    split
    · exact hs
    · exact ih (State.drainEntry_memoryOk hs)

@[simp] theorem State.drain_memoryOk {s : State} {u : CoreUnit} {tid gid : Nat} (hs : s.memoryOk = true) :
    (s.drain u tid gid).memoryOk = true := by
  unfold State.drain
  simp [hs]

@[simp] theorem State.drainCore_memoryOk {s : State} {u : CoreUnit} (hs : s.memoryOk = true) : (s.drainCore u).memoryOk = true := by
  unfold State.drainCore
  simp [hs]

@[simp] theorem State.drainLine_memoryOk {s : State} {u : CoreUnit} {line : Nat} (hs : s.memoryOk = true) :
    (s.drainLine u line).memoryOk = true := by
  unfold State.drainLine
  split <;> simp [hs]

@[simp] theorem State.addEntry_memoryOk {s : State} {u : CoreUnit} {e : Combining} (hs : s.memoryOk = true) :
    (s.addEntry u e).memoryOk = true := by
  unfold State.addEntry
  split <;> simp [hs]

@[simp] theorem State.combine_memoryOk {s : State} {u : CoreUnit} {new : Combining} (hs : s.memoryOk = true) :
    (s.combine u new).memoryOk = true := by
  unfold State.combine
  split <;> simp [hs]

theorem State.pathFor_memoryOk {s : State} {u : CoreUnit} {tid gid : Nat} {lines durable : List Nat} (hs : s.memoryOk = true) {s1 : State}
    (hs1 : s.pathFor u tid gid lines durable = some s1) : s1.memoryOk = true := by
  unfold State.pathFor at hs1
  split at hs1
  · cases hs1; exact hs
  · dsimp only at hs1
    split at hs1 <;> cases hs1
    exact State.drainCore_memoryOk hs

@[simp] theorem State.modL1_memoryOk (s : State) (tid ix : Nat) (f : L1 → L1) : (s.modL1 tid ix f).memoryOk = s.memoryOk := by rfl

@[simp] theorem State.grantLease_memoryOk (s : State) (h : HubId) (line : Nat) : (s.grantLease h line).1.memoryOk = s.memoryOk := by
  unfold State.grantLease
  dsimp only
  repeat' split
  all_goals simp

@[simp] theorem State.leaseLine_memoryOk (s : State) (h : HubId) (line : Nat) : (s.leaseLine h line).1.memoryOk = s.memoryOk := by
  unfold State.leaseLine
  simp

@[simp] theorem State.performTxn_memoryOk {s : State} {x : Txn} (hs : s.memoryOk = true) : (s.performTxn x).memoryOk = true := by
  unfold State.performTxn
  repeat' split
  all_goals simp [hs]

@[simp] theorem State.readHome_memoryOk {s : State} {h : HubId} {mode policy line : Nat} (hs : s.memoryOk = true) :
    (s.readHome h mode policy line).1.memoryOk = true := by
  unfold State.readHome
  dsimp only
  repeat' split
  all_goals simp [hs]

@[simp] theorem State.readBeyond_memoryOk {s : State} {h : HubId} {mode policy line : Nat} (hs : s.memoryOk = true) :
    (s.readBeyond h mode policy line).1.memoryOk = true := by
  unfold State.readBeyond
  dsimp only
  repeat' split
  all_goals simp [hs]

@[simp] theorem State.setRoPath_memoryOk (s : State) (p : ReadOnlyPath) : (s.setRoPath p).memoryOk = s.memoryOk := by rfl

@[simp] theorem State.readFor_memoryOk {s : State} {h : HubId} {how : LoadHow} {line : Nat} (hs : s.memoryOk = true) :
    (s.readFor h how line).1.memoryOk = true := by
  unfold State.readFor
  repeat' split
  all_goals simp [hs]

@[simp] theorem State.vectorLine_keep_memoryOk (s : State) (tid ix : Nat) (u : CoreUnit) (line : Nat) (fill : Bool) (data : List Byte) :
    (State.vectorLine.keep tid ix u line s fill data).1.memoryOk = s.memoryOk := by rfl

@[simp] theorem State.vectorLine_beyond_memoryOk {s : State} {tid gid ix : Nat} {u : CoreUnit} {line : Nat} {how : LoadHow}
    {fill readOnly : Bool} (hs : s.memoryOk = true) :
    (State.vectorLine.beyond tid gid ix u line how s fill readOnly).1.memoryOk = true := by
  unfold State.vectorLine.beyond
  dsimp only
  repeat' split
  all_goals simp [hs]

@[simp] theorem State.vectorLine_memoryOk {s : State} {tid gid ix : Nat} {u : CoreUnit} {line : Nat} {how : LoadHow}
    (hs : s.memoryOk = true) : (s.vectorLine tid gid ix u line how).1.memoryOk = true := by
  unfold State.vectorLine
  dsimp only
  repeat' split
  all_goals simp [hs]

@[simp] theorem State.peerLine_memoryOk {s : State} {tid gid : Nat} {h : HubId} {peer line : Nat} {how : LoadHow} (hs : s.memoryOk = true) :
    (s.peerLine tid gid h peer line how).1.memoryOk = true := by
  unfold State.peerLine
  dsimp only
  repeat' split
  all_goals simp [hs]

@[simp] theorem State.loadPiece_memoryOk {s : State} {tid gid ix : Nat} {u : CoreUnit} {k n : Nat} {how : LoadHow} (hs : s.memoryOk = true) :
    (s.loadPiece tid gid ix u k n how).1.memoryOk = true := by
  unfold State.loadPiece
  split <;> simp [hs]

@[simp] theorem State.hubLine_memoryOk {s : State} {sp : Space} {va : Dword} {n : Nat} {x : Xlat} (hs : s.memoryOk = true) :
    (s.hubLine sp va n x).1.memoryOk = true := by
  unfold State.hubLine
  dsimp only
  split
  · simp [hs]
  · have h1 := State.readBeyond_memoryOk (h := sp.masterHub) (mode := x.mode) (policy := x.pol) (line := lineOfKey x.key)
      (State.countMigration_memoryOk (h := sp.masterHub) (asn := sp.asn) (va := va) (x := x)
        (State.touch_memoryOk (sp := sp) (va := va) (k := .read) (x := x) hs))
    simp [h1]

@[simp] theorem State.hubFetch_memoryOk {s : State} {sp : Space} {va : Dword} {n : Nat} {x : Xlat} (hs : s.memoryOk = true) :
    (s.hubFetch sp va n x).1.memoryOk = true := by
  unfold State.hubFetch
  simp [hs]

@[simp] theorem State.hubStore_memoryOk {s : State} {sp : Space} {va : Dword} {x : Xlat} {bytes : List Byte} (hs : s.memoryOk = true) :
    (s.hubStore sp va x bytes).memoryOk = true := by
  unfold State.hubStore
  split <;> simp [hs]

@[simp] theorem State.groupLoad_memoryOk {s : State} {tid gid ix : Nat} {u : CoreUnit} {k n : Nat} {how : LoadHow} (hs : s.memoryOk = true) :
    (s.groupLoad tid gid ix u k n how).1.memoryOk = true := by
  unfold State.groupLoad
  simp [hs]

@[simp] theorem State.groupStore_memoryOk {s : State} {tid gid ix : Nat} {u : CoreUnit} {line : Nat} {cells : List (Nat × Byte)}
    {how : StoreHow} (hs : s.memoryOk = true) : (s.groupStore tid gid ix u line cells how).memoryOk = true := by
  unfold State.groupStore
  split <;> simp [hs]

@[simp] theorem State.acquire_memoryOk (s : State) (tid gid ix scope : Nat) (u : CoreUnit) (promoted : Bool) :
    (s.acquire tid gid ix scope u promoted).memoryOk = s.memoryOk := by
  unfold State.acquire
  split <;> simp

@[simp] theorem State.publish_memoryOk {s : State} {n : Note} (hs : s.memoryOk = true) : (s.publish n).memoryOk = true := by
  unfold State.publish
  split <;> simp [hs]

@[simp] theorem State.publishFor_memoryOk {s : State} {a : AgentAt} {scope : Nat} {lines : List Nat} (hs : s.memoryOk = true) :
    (s.publishFor a scope lines).memoryOk = true := by
  unfold State.publishFor
  simp +contextual [hs]

@[simp] theorem State.acquireLines_memoryOk (s : State) (tid gid ix scope : Nat) (u : CoreUnit) (lines : List Nat) :
    (s.acquireLines tid gid ix scope u lines).memoryOk = s.memoryOk := by
  unfold State.acquireLines
  simp

@[simp] theorem State.releaseDrain_memoryOk {s : State} {t : Team} {gid scope : Nat} {u : CoreUnit} (hs : s.memoryOk = true) :
    (s.releaseDrain t gid scope u).memoryOk = true := by
  unfold State.releaseDrain
  simp [hs]

/-! ## Machine/Issue -/

@[simp] theorem State.readMail_memoryOk (s : State) (c : Ctx) (regs : List Nat) : (s.readMail c regs).memoryOk = s.memoryOk := by
  unfold State.readMail
  simp

@[simp] theorem State.progress_memoryOk (s : State) (tid gid : Nat) (kernel : Bool) :
    (s.progress tid gid kernel).memoryOk = s.memoryOk := by
  unfold State.progress
  repeat' split
  all_goals simp

@[simp] theorem State.advance_memoryOk (s : State) (c : Ctx) (pos : Nat → Option LanePos) (taken : Dword) (target : Option Dword) :
    (s.advance c pos taken target).memoryOk = s.memoryOk := by
  unfold State.advance
  simp

@[simp] theorem settle_memoryOk {s : State} {c : Ctx} {w : MainWord} {r : Res} (hs : s.memoryOk = true) (hr : r.memoryOk = true) :
    (settle s c w r).memoryOk = true := by
  cases r with
  | call m t => simp [settle, hs]
  | trap t => simp [settle, hs]
  | done s1 | moved s1 _ _ _ | fails s1 _ | wait s1 _ | gone s1 =>
    rw [Res.memoryOk] at hr
    simp [settle, hr]

@[simp] theorem State.underWay_memoryOk {s : State} {tid gid : Nat} {u : CoreUnit} {p : LanePos} {asks : List Ask} (hs : s.memoryOk = true) :
    (s.underWay tid gid u p asks).memoryOk = true := by
  unfold State.underWay
  simp +contextual [hs]

@[simp] theorem closeMain_memoryOk {s : State} {c : Ctx} {w : MainWord} {r : Res} (hs : s.memoryOk = true) (hr : r.memoryOk = true) :
    (closeMain s c w r).memoryOk = true := by
  have hsettle : (settle s c w r).answersUsed.memoryOk = true := (State.answersUsed_memoryOk _).trans (settle_memoryOk hs hr)
  unfold closeMain
  split
  · split
    · split
      · exact State.underWay_memoryOk hr
      · exact hsettle
    · exact hsettle
  · exact State.underWay_memoryOk hs

@[simp] theorem runMain_memoryOk {s : State} {g : Sig} {w : MainWord} {body : State → Ctx → Res} (hs : s.memoryOk = true)
    (hbody : ∀ s c, s.memoryOk = true → (body s c).memoryOk = true) : outcomeOk (runMain s g w body) = true := by
  unfold runMain
  split
  · rfl
  next c _ =>
    split
    · exact (State.answersUsed_memoryOk _).trans (settle_memoryOk hs rfl)
    · dsimp only
      split
      · exact (State.answersUsed_memoryOk _).trans (settle_memoryOk hs hs)
      · split
        · exact (State.answersUsed_memoryOk _).trans (settle_memoryOk hs hs)
        · split
          · have h1 : (s.readMail c (g.vregs w).1).memoryOk = true := (State.readMail_memoryOk _ _ _).trans hs
            split
            · exact closeMain_memoryOk h1 (hbody _ _ h1)
            · exact h1
          · exact closeMain_memoryOk hs (hbody _ _ hs)

@[simp] theorem Ctx.put_memoryOk (s : State) (c : Ctx) (g : Group) : (c.put s g).memoryOk = s.memoryOk := by rfl

@[simp] theorem State.illegalWord_memoryOk {s : State} {w : MainWord} {word : Dword} (hs : s.memoryOk = true) :
    (s.illegalWord w word).memoryOk = true := by
  unfold State.illegalWord
  split <;> simp [hs]

@[simp] theorem State.reservedWord_memoryOk {s : State} {w : MainWord} {op : BitVec 10} (hs : s.memoryOk = true) :
    (s.reservedWord w op).memoryOk = true := by
  unfold State.reservedWord
  repeat' split
  all_goals simp [hs]

/-! ## Machine/Results -/

@[simp] theorem deliver_memoryOk {s : State} {c : Ctx} {g : Sig} {w : MainWord} {width : Nat} {r : RVal} (hs : s.memoryOk = true) :
    (deliver s c g w width r).memoryOk = true := by
  unfold deliver
  dsimp only
  repeat' split
  all_goals simp [hs]

@[simp] theorem elementwise_memoryOk {s : State} {g : Sig} {w : MainWord} {ty : OTy} {srcs : Ctx → List Opnd}
    {affine : Ctx → Option (Word × Word)} {f : Ctx → Nat → Dword} {c : Ctx} (hs : s.memoryOk = true) :
    (elementwise g w ty srcs affine f s c).memoryOk = true := by
  unfold elementwise
  simp [hs]

@[simp] theorem deliverPred_memoryOk {s : State} {c : Ctx} {pd : Nat} {val poison : Nat → Bool} (hs : s.memoryOk = true) :
    (deliverPred s c pd val poison).memoryOk = true := by
  unfold deliverPred
  simp [hs]

/-! ## Machine/Staging -/

@[simp] theorem State.enterMail_memoryOk (s : State) (m : Mail) : (s.enterMail m).memoryOk = s.memoryOk := by
  unfold State.enterMail
  simp

@[simp] theorem State.postMail_memoryOk (s : State) (tid gid : Nat) (h : HubId) (name : Dword) (reg : Nat) (key : Half) (words : List Word)
    (scope : Nat) : (s.postMail tid gid h name reg key words scope).memoryOk = s.memoryOk := by
  unfold State.postMail
  simp

@[simp] theorem State.stage_memoryOk {s : State} {tid : Nat} {e : Staged} (hs : s.memoryOk = true) : (s.stage tid e).memoryOk = true := by
  unfold State.stage
  split <;> simp [hs]

@[simp] theorem State.pairMismatch_memoryOk {s : State} {tid : Nat} (hs : s.memoryOk = true) : (s.pairMismatch tid).memoryOk = true := by
  unfold State.pairMismatch
  repeat' split
  all_goals simp [hs]

theorem State.performStaged_memoryOk {s : State} {t : Team} {e : Staged} {others : List Staged} (hs : s.memoryOk = true) {s1 : State}
    (hs1 : s.performStaged t e others = some s1) : s1.memoryOk = true := by
  unfold State.performStaged at hs1
  dsimp only at hs1
  split at hs1
  · cases hs1
  · split at hs1 <;> (try split at hs1) <;> cases hs1
    all_goals simp [hs]

@[simp] theorem State.performAll_memoryOk {s : State} {t : Team} {n : Nat} {es : List Staged} (hs : s.memoryOk = true) :
    (s.performAll t n es).1.memoryOk = true := by
  induction n generalizing s es with
  | zero => cases es <;> exact hs
  | succ n ih =>
    cases es with
    | nil => exact hs
    | cons e es =>
      unfold State.performAll
      split
      · exact hs
      next s1 hs1 => exact ih (State.performStaged_memoryOk hs hs1)

@[simp] theorem State.finishCommit_memoryOk (s : State) (tid : Nat) : (s.finishCommit tid).memoryOk = s.memoryOk := by
  unfold State.finishCommit
  repeat' split
  all_goals simp

@[simp] theorem State.beginCommit_memoryOk (s : State) (tid n : Nat) : (s.beginCommit tid n).memoryOk = s.memoryOk := by rfl

@[simp] theorem State.goOnCommit_memoryOk {s : State} {t : Team} (hs : s.memoryOk = true) : (s.goOnCommit t).memoryOk = true := by
  unfold State.goOnCommit
  repeat' split
  all_goals simp [hs]

@[simp] theorem State.settleCommit_memoryOk {s : State} {tid : Nat} (hs : s.memoryOk = true) : (s.settleCommit tid).memoryOk = true := by
  have hgo : ∀ {s1 : State} {o : Option Team}, s1.memoryOk = true → ((o.map s1.goOnCommit).getD s1).memoryOk = true :=
    fun h => getD_map_memoryOk h (fun _ => State.goOnCommit_memoryOk h)
  unfold State.settleCommit
  repeat' split
  case h_2.isFalse => exact hgo (hgo (by simp [hs]))
  all_goals simp [hs]

@[simp] theorem State.settleCommits_memoryOk {s : State} (hs : s.memoryOk = true) : s.settleCommits.memoryOk = true := by
  unfold State.settleCommits
  simp +contextual [hs]

@[simp] theorem State.queueCommit_memoryOk {s : State} {tid n : Nat} (hs : s.memoryOk = true) : (s.queueCommit tid n).memoryOk = true := by
  unfold State.queueCommit
  simp [hs]

/-! ## Machine/Lanes -/

@[simp] theorem State.touchLanes_memoryOk {s : State} {c : Ctx} {k : AccessKind} {hint : Nat} {as : List LaneAccess}
    (hs : s.memoryOk = true) : (s.touchLanes c k hint as).memoryOk = true := by
  have h1 := foldl_memoryOk (fun s (a : LaneAccess) => s.touch c.space a.va k a.x) (fun _ _ h => State.touch_memoryOk h) as hs
  exact foldl_memoryOk _ (fun _ _ h => State.countMigration_memoryOk h) _ h1

@[simp] theorem State.readAccess_memoryOk {s : State} {c : Ctx} {how : LaneAccess → LoadHow} {n : Nat} {a : LaneAccess}
    (hs : s.memoryOk = true) : (s.readAccess c how n a).1.memoryOk = true := by
  unfold State.readAccess
  split <;> simp [hs]

@[simp] theorem takeFed_memoryOk {s : State} {c : Ctx} {n : Nat} {as : List LaneAccess} (hs : s.memoryOk = true) :
    (takeFed s c n as).memoryOk = true := by
  unfold takeFed
  dsimp only
  repeat' split
  all_goals simp [hs]

@[simp] theorem State.readLanes_memoryOk {s : State} {c : Ctx} {how : LaneAccess → LoadHow} {n : Nat} {as : List LaneAccess}
    (hs : s.memoryOk = true) : (s.readLanes c how n as).memoryOk = true := by
  unfold State.readLanes
  repeat' split
  all_goals simp +contextual [hs]

@[simp] theorem State.reportFailures_memoryOk {s : State} {c : Ctx} {stores : Bool} (hs : s.memoryOk = true) :
    (s.reportFailures c stores).memoryOk = true := by
  unfold State.reportFailures
  dsimp only
  repeat' split
  all_goals simp [hs]

@[simp] theorem State.settleStores_memoryOk {s : State} {c : Ctx} {scope : Nat} {fence : Bool} (hs : s.memoryOk = true) :
    (s.settleStores c scope fence).1.memoryOk = true := by
  unfold State.settleStores
  dsimp only
  repeat' split
  all_goals simp [hs]

@[simp] theorem State.release_memoryOk {s : State} {c : Ctx} {scope : Nat} {fence : Bool} (hs : s.memoryOk = true) :
    (s.release c scope fence).memoryOk = true := by
  unfold State.release
  split
  next s1 k h => exact fst_memoryOk_of_eq (State.settleStores_memoryOk hs) h
  next s1 h => exact State.reportFailures_memoryOk (fst_memoryOk_of_eq (State.settleStores_memoryOk hs) h)

@[simp] theorem Sync.bind_memoryOk {x : Sync} {k : State → Sync} (hx : x.memoryOk = true)
    (hk : ∀ s, s.memoryOk = true → (k s).memoryOk = true) : (x.bind k).memoryOk = true := by
  cases x with
  | ready s => exact hk s hx
  | wait s w => exact hx
  | fails s t => exact hx

@[simp] theorem State.acquireReady_memoryOk {s : State} {c : Ctx} {scope : Nat} {keys : List Nat} (hs : s.memoryOk = true) :
    (s.acquireReady c scope keys).memoryOk = true := by
  unfold State.acquireReady
  simp [hs]

@[simp] theorem State.acquirePart_memoryOk (s : State) (c : Ctx) (scope : Nat) (keys : List Nat) :
    (s.acquirePart c scope keys).memoryOk = s.memoryOk := by
  unfold State.acquirePart
  simp

@[simp] theorem State.before_memoryOk {s : State} {c : Ctx} {order scope : Nat} (hs : s.memoryOk = true) :
    (s.before c order scope).memoryOk = true := by
  unfold State.before
  split <;> simp [hs]

@[simp] theorem Sync.andThen_memoryOk {x : Sync} {k : State → Res} (hx : x.memoryOk = true)
    (hk : ∀ s, s.memoryOk = true → (k s).memoryOk = true) : (x.andThen k).memoryOk = true := by
  cases x with
  | ready s => exact hk s hx
  | wait s w => exact hx
  | fails s t => exact hx

@[simp] theorem State.after_memoryOk {s : State} {c : Ctx} {order scope : Nat} (hs : s.memoryOk = true) :
    (s.after c order scope).memoryOk = true := by
  unfold State.after
  split
  · split
    next s1 h =>
      have h1 := State.reportFailures_memoryOk (c := c) (stores := true) (fst_memoryOk_of_eq (State.settleStores_memoryOk hs) h)
      exact Sync.andThen_memoryOk h1 fun s hs => by simp [hs]
    next s1 k h => exact fst_memoryOk_of_eq (State.settleStores_memoryOk hs) h
  · exact hs

/-! ## Machine/Global -/

@[simp] theorem finishLoad_memoryOk {s : State} {c : Ctx} {g : Sig} {w : MainWord} {shape : Shape} {va : Nat → Dword} {as : List LaneAccess}
    {atHome : Bool} {extra : State → State} (hs : s.memoryOk = true) (hextra : ∀ s, s.memoryOk = true → (extra s).memoryOk = true) :
    (finishLoad s c g w shape va as atHome extra).memoryOk = true := by
  unfold finishLoad
  split
  · exact hs
  · refine Sync.andThen_memoryOk ?_ fun s1 h1 => ?_
    · split
      · exact hs
      · exact State.acquireReady_memoryOk hs
    · split
      · exact hs
      · exact State.pairMismatch_memoryOk hs
      next s2 vs h2 =>
        have h3 : s2.memoryOk = true := ReadRes.memoryOk_of_eq (State.readLanes_memoryOk (State.touchLanes_memoryOk h1)) h2
        simp only [Res.memoryOk_done, State.modGroup_memoryOk]
        refine hextra _ ?_
        split <;> simp [h3]

@[simp] theorem execLd_memoryOk {s : State} {w : MainWord} (hs : s.memoryOk = true) : outcomeOk (execLd w s) = true := by
  unfold execLd
  refine runMain_memoryOk hs fun s c hs => ?_
  dsimp only
  repeat' split
  all_goals simp +contextual [hs]

@[simp] theorem State.lineStore_memoryOk {s : State} {c : Ctx} {hint : Nat} {as : List (LaneAccess × List Byte)} {line : Nat}
    (hs : s.memoryOk = true) : (s.lineStore c hint as line).memoryOk = true := by
  unfold State.lineStore
  split <;> simp [hs]

@[simp] theorem State.releaseStore_memoryOk {s : State} {c : Ctx} {scope : Nat} {as : List (LaneAccess × List Byte)} {line : Nat}
    (hs : s.memoryOk = true) : (s.releaseStore c scope as line).memoryOk = true := by
  unfold State.releaseStore
  repeat' split
  all_goals simp [hs]

@[simp] theorem State.storeRegisters_memoryOk (s : State) (c : Ctx) (as : List (LaneAccess × List Byte)) :
    (s.storeRegisters c as).memoryOk = s.memoryOk := by
  refine foldl_memoryOk_eq _ (fun s p => ?_) _ _
  split
  · split <;> simp
  · rfl

@[simp] theorem State.stageStores_memoryOk {s : State} {c : Ctx} {order scope : Nat} {as : List (LaneAccess × List Byte)}
    (hs : s.memoryOk = true) : (s.stageStores c order scope as).memoryOk = true := by
  unfold State.stageStores
  simp +contextual [hs]

theorem State.relaxedStores_memoryOk {s : State} {c : Ctx} {hint : Nat} {p : StoreParts} (hs : s.memoryOk = true) {s1 : State}
    (hs1 : s.relaxedStores c hint p = some s1) : s1.memoryOk = true := by
  unfold State.relaxedStores at hs1
  extract_lets +onlyGivenNames ready at hs1
  have hready : ∀ s1, ready = some s1 → s1.memoryOk = true := by
    intro s1 h1
    simp only [ready] at h1
    split at h1
    · obtain ⟨s2, hs2, rfl⟩ := Option.map_eq_some_iff.1 h1
      exact foldl_memoryOk _ (fun _ _ h => State.drainLine_memoryOk h) _ (State.pathFor_memoryOk hs hs2)
    · split at h1 <;> cases h1
      exact hs
  clear_value ready
  split at hs1
  · cases hs1
  next s2 =>
    split at hs1 <;> cases hs1
    simp only [State.storeRegisters_memoryOk]
    refine foldl_memoryOk _ (fun _ _ h => State.lineStore_memoryOk h) _ ?_
    exact foldl_memoryOk _ (fun _ _ h => State.lineStore_memoryOk h) _ (hready s2 rfl)

@[simp] theorem State.releaseStores_memoryOk {s : State} {c : Ctx} {scope : Nat} {p : StoreParts} (hs : s.memoryOk = true) :
    (s.releaseStores c scope p).memoryOk = true := by
  have h1 := foldl_memoryOk (fun s l => s.releaseStore c scope p.rest l) (fun _ _ h => State.releaseStore_memoryOk h) (storeLines p.rest) hs
  unfold State.releaseStores
  simp only [State.storeRegisters_memoryOk]
  exact foldl_memoryOk _ (fun _ _ h => State.releaseStore_memoryOk h) _ h1

@[simp] theorem finishStore_memoryOk {s : State} {c : Ctx} {order scope hint : Nat} {as : List (LaneAccess × List Byte)}
    (hs : s.memoryOk = true) : (finishStore s c order scope hint as).memoryOk = true := by
  unfold finishStore
  extract_lets +onlyGivenNames touched p
  have htouched : ∀ s : State, s.memoryOk = true → (touched s).memoryOk = true := fun s hs => State.touchLanes_memoryOk hs
  split
  · simp [htouched s hs]
  · split
    · split
      · exact State.drainCore_memoryOk hs
      next s1 h => exact State.relaxedStores_memoryOk (htouched s hs) h
    · extract_lets lines s1
      have h1 : s1.memoryOk = true := foldl_memoryOk _ (fun _ _ h => State.drainLine_memoryOk h) _ hs
      split
      · exact h1
      · exact State.after_memoryOk (State.releaseStores_memoryOk (htouched s1 h1))

@[simp] theorem execSt_memoryOk {s : State} {w : MainWord} (hs : s.memoryOk = true) : outcomeOk (execSt w s) = true := by
  unfold execSt
  refine runMain_memoryOk hs fun s c hs => ?_
  dsimp only
  repeat' split
  all_goals simp +contextual [hs]

@[simp] theorem State.prefetch_memoryOk {s : State} {c : Ctx} {hint : Nat} {va : Nat → Dword} {l : Nat} (hs : s.memoryOk = true) :
    (s.prefetch c hint va l).memoryOk = true := by
  unfold State.prefetch
  split <;> simp [hs]

@[simp] theorem execPref_memoryOk {s : State} {w : MainWord} (hs : s.memoryOk = true) : outcomeOk (execPref w s) = true := by
  unfold execPref
  refine runMain_memoryOk hs fun s c hs => ?_
  simp +contextual [hs]

@[simp] theorem State.writeBackPeers_memoryOk {s : State} {h : HubId} {named : PeerLine → Bool} (hs : s.memoryOk = true) :
    (s.writeBackPeers h named).memoryOk = true := by
  unfold State.writeBackPeers
  simp +contextual [hs]

@[simp] theorem execWb_memoryOk {s : State} {w : MainWord} (hs : s.memoryOk = true) : outcomeOk (execWb w s) = true := by
  unfold execWb
  refine runMain_memoryOk hs fun s c hs => ?_
  split
  · exact hs
  · split
    · rfl
    · refine State.writeBackPeers_memoryOk (State.writeBackPeers_memoryOk ?_)
      split <;> simp [hs]

@[simp] theorem State.dropPeers_memoryOk {s : State} {h : HubId} {named : PeerLine → Bool} (hs : s.memoryOk = true) :
    (s.dropPeers h named).memoryOk = true := by
  unfold State.dropPeers
  simp [hs]

@[simp] theorem execInv_memoryOk {s : State} {w : MainWord} (hs : s.memoryOk = true) : outcomeOk (execInv w s) = true := by
  unfold execInv
  refine runMain_memoryOk hs fun s c hs => ?_
  repeat' split
  all_goals simp [hs]

@[simp] theorem execIinv_memoryOk {s : State} {w : MainWord} (hs : s.memoryOk = true) : outcomeOk (execIinv w s) = true := by
  unfold execIinv
  refine runMain_memoryOk hs fun s c hs => ?_
  dsimp only
  repeat' split
  all_goals simp [hs]

@[simp] theorem execIfence_memoryOk {s : State} {w : MainWord} (hs : s.memoryOk = true) : outcomeOk (execIfence w s) = true := by
  unfold execIfence
  simp +contextual [hs]

/-! ## Machine/ScratchOps -/

@[simp] theorem State.modScratch_memoryOk (s : State) (tid ix : Nat) (f : Scratchpad → Scratchpad) :
    (s.modScratch tid ix f).memoryOk = s.memoryOk := by rfl

@[simp] theorem Ctx.present_memoryOk {s : State} {c : Ctx} {addrs : List Nat} {n : Nat} {k : Res} (hs : s.memoryOk = true)
    (hk : k.memoryOk = true) : (c.present s addrs n k).memoryOk = true := by
  unfold Ctx.present
  split <;> simp [hs, hk]

/-! ## Machine/Scratch -/

@[simp] theorem execLds_memoryOk {s : State} {w : MainWord} (hs : s.memoryOk = true) : outcomeOk (execLds w s) = true := by
  unfold execLds
  refine runMain_memoryOk hs fun s c hs => ?_
  dsimp only
  split
  · rfl
  · split
    · rfl
    · split
      · exact hs
      · refine Ctx.present_memoryOk hs (Sync.andThen_memoryOk (State.before_memoryOk hs) fun s1 h1 => ?_)
        split <;> simp [h1]

@[simp] theorem execSts_memoryOk {s : State} {w : MainWord} (hs : s.memoryOk = true) : outcomeOk (execSts w s) = true := by
  unfold execSts
  refine runMain_memoryOk hs fun s c hs => ?_
  dsimp only
  split
  · rfl
  · split
    · rfl
    · split
      · exact hs
      · split
        · exact hs
        · exact Ctx.present_memoryOk hs (Sync.andThen_memoryOk (State.before_memoryOk hs) fun s1 h1 =>
            State.after_memoryOk (by simp [h1]))

@[simp] theorem execLdk_memoryOk {s : State} {w : MainWord} (hs : s.memoryOk = true) : outcomeOk (execLdk w s) = true := by
  unfold execLdk
  refine runMain_memoryOk hs fun s c hs => ?_
  dsimp only
  repeat' split
  all_goals simp [hs]

/-! ## Machine/Atomic -/

@[simp] theorem State.dropL1_memoryOk (s : State) (c : Ctx) (line : Nat) : (s.dropL1 c line).memoryOk = s.memoryOk := by
  unfold State.dropL1
  split <;> simp

@[simp] theorem State.rmwLane_memoryOk {s : State} {c : Ctx} {order scope n : Nat} {st : AtomStep} {a : LaneAccess} (hs : s.memoryOk = true) :
    (s.rmwLane c order scope n st a).1.memoryOk = true := by
  unfold State.rmwLane
  repeat' split
  all_goals simp [hs]

@[simp] theorem State.linesReady_memoryOk {s : State} {c : Ctx} {lines : List Nat} (hs : s.memoryOk = true) :
    (s.linesReady c lines).memoryOk = true := by
  unfold State.linesReady
  simp +contextual [hs]

@[simp] theorem finishAtomic_memoryOk {s : State} {c : Ctx} {w : MainWord} {f : AtomForm} {st : AtomStep} {as : List LaneAccess}
    (hs : s.memoryOk = true) : (finishAtomic s c w f st as).memoryOk = true := by
  unfold finishAtomic
  extract_lets +onlyGivenNames n lines s1
  have h1 : s1.memoryOk = true := State.linesReady_memoryOk hs
  split
  · exact h1
  · refine Sync.andThen_memoryOk ?_ fun s2 h2 => ?_
    · split
      · exact State.acquireReady_memoryOk h1
      · exact h1
    · extract_lets r s3 scalar s4
      have hr : r.1.memoryOk = true := by
        refine foldl_fst_memoryOk _ (fun acc a h => ?_) _ (State.touchLanes_memoryOk h2)
        exact State.rmwLane_memoryOk ((State.dropL1_memoryOk _ _ _).trans h)
      have h3 : s3.memoryOk = true := by
        simp only [s3]
        split <;> simp [hr]
      exact State.after_memoryOk (by simp [s4, h3])

@[simp] theorem State.lineCopy_memoryOk (s : State) (c : Ctx) (line : Nat) : (s.lineCopy c line).1.memoryOk = s.memoryOk := by
  unfold State.lineCopy
  repeat' split
  all_goals simp

@[simp] theorem stageAtomic_memoryOk {s : State} {c : Ctx} {w : MainWord} {f : AtomForm} {st : AtomStep} {as : List LaneAccess}
    (hs : s.memoryOk = true) : (stageAtomic s c w f st as).memoryOk = true := by
  unfold stageAtomic
  simp +contextual [hs]

@[simp] theorem finishScratchAtomic_memoryOk {s : State} {c : Ctx} {w : MainWord} {f : AtomForm} {st : AtomStep} {lanes : List Nat}
    {addr : Nat → Nat} (hs : s.memoryOk = true) : (finishScratchAtomic s c w f st lanes addr).memoryOk = true := by
  unfold finishScratchAtomic
  simp [hs]

@[simp] theorem atomBody_memoryOk {s : State} {w : MainWord} {f : AtomForm} {c : Ctx} (hs : s.memoryOk = true) :
    (atomBody w f s c).memoryOk = true := by
  have hbefore := State.before_memoryOk (c := c) (order := xOrder w) (scope := xScope w) hs
  unfold atomBody
  extract_lets +onlyGivenNames scalar n a lanes clean spad va
  split
  · rfl
  · split
    · rfl
    · extract_lets +onlyGivenNames r
      split
      · rfl
      · split
        · rfl
        · split
          · exact hs
          · split
            · exact hs
            · extract_lets st
              split
              · exact Ctx.present_memoryOk hs (Sync.andThen_memoryOk hbefore fun s1 h1 => finishScratchAtomic_memoryOk h1)
              · refine Sync.andThen_memoryOk hbefore fun s1 h1 => ?_
                split
                · exact stageAtomic_memoryOk h1
                · exact finishAtomic_memoryOk h1

@[simp] theorem execAtom_memoryOk {s : State} {w : MainWord} (hs : s.memoryOk = true) : outcomeOk (execAtom w s) = true := by
  unfold execAtom
  simp +contextual [hs]

@[simp] theorem execCas_memoryOk {s : State} {w : MainWord} (hs : s.memoryOk = true) : outcomeOk (execCas w s) = true := by
  unfold execCas
  simp +contextual [hs]

@[simp] theorem State.reserve_memoryOk (s : State) (c : Ctx) (n : Nat) (a : LaneAccess) : (s.reserve c n a).memoryOk = s.memoryOk := by
  unfold State.reserve
  simp

@[simp] theorem execLdr_memoryOk {s : State} {w : MainWord} (hs : s.memoryOk = true) : outcomeOk (execLdr w s) = true := by
  unfold execLdr
  refine runMain_memoryOk hs fun s c hs => ?_
  dsimp only
  split
  · rfl
  · split
    · rfl
    · split
      · rfl
      · split
        · exact hs
        · refine Sync.andThen_memoryOk (State.before_memoryOk hs) fun s1 h1 => ?_
          split
          · exact State.linesReady_memoryOk h1
          · refine finishLoad_memoryOk (State.linesReady_memoryOk h1) fun s hs => foldl_memoryOk _ (fun s x h => ?_) _ hs
            exact (State.reserve_memoryOk s c _ x).trans h

@[simp] theorem State.storeConditional_memoryOk {s : State} {c : Ctx} {scope order n : Nat} {p : LaneAccess × List Byte}
    (hs : s.memoryOk = true) : (s.storeConditional c scope order n p).1.memoryOk = true := by
  unfold State.storeConditional
  dsimp only
  repeat' split
  all_goals simp [hs]

@[simp] theorem execStc_memoryOk {s : State} {w : MainWord} (hs : s.memoryOk = true) : outcomeOk (execStc w s) = true := by
  unfold execStc
  refine runMain_memoryOk hs fun s c hs => ?_
  dsimp only
  split
  · rfl
  · split
    · rfl
    · split
      · rfl
      · split
        · rfl
        · split
          · exact hs
          · refine Sync.andThen_memoryOk (State.before_memoryOk hs) fun s1 h1 => ?_
            split
            · exact State.linesReady_memoryOk h1
            · generalize hq : List.foldl _ _ _ = q
              have h2 : q.1.memoryOk = true := by
                subst hq
                refine foldl_fst_memoryOk _ (fun acc p h => ?_) _ (State.touchLanes_memoryOk (State.linesReady_memoryOk h1))
                exact State.storeConditional_memoryOk h
              split
              · exact State.after_memoryOk ((State.modGroup_memoryOk _ _ _ _).trans h2)
              · exact (State.modGroup_memoryOk _ _ _ _).trans h2

/-! ## Machine/BarrierOps -/

@[simp] theorem State.completeBarrier_memoryOk {s : State} {tid n : Nat} (hs : s.memoryOk = true) :
    (s.completeBarrier tid n).memoryOk = true := by
  unfold State.completeBarrier
  split <;> simp [hs]

@[simp] theorem State.failReord_memoryOk (s : State) (tid n : Nat) : (s.failReord tid n).memoryOk = s.memoryOk := by
  unfold State.failReord
  split
  · rfl
  · refine (foldl_memoryOk_eq _ (fun s g => ?_) _ _).trans (State.modTeam_memoryOk _ _ _)
    dsimp only
    split <;> simp

@[simp] theorem State.reordOutcome_memoryOk {s : State} {t : Team} {n : Nat} {issuer : Option Nat} {fall : Nat → Option LanePos}
    (hs : s.memoryOk = true) : (s.reordOutcome t n issuer fall).memoryOk = true := by
  unfold State.reordOutcome
  dsimp only
  repeat' split
  all_goals simp [hs]

@[simp] theorem State.countComplete_memoryOk {s : State} {tid n : Nat} (hs : s.memoryOk = true) :
    (s.countComplete tid n).memoryOk = true := by
  unfold State.countComplete
  split
  · exact hs
  next t _ =>
    split
    · exact State.completeBarrier_memoryOk hs
    · have h1 := State.reordOutcome_memoryOk (t := t) (n := n) (issuer := none) (fall := fun _ => none) hs
      generalize s.reordOutcome t n none (fun _ => none) = o at h1 ⊢
      cases o with
      | pending => exact hs
      | diverged => exact (State.failReord_memoryOk _ _ _).trans hs
      | moved s1 => exact h1

@[simp] theorem State.arriveAt_memoryOk {s : State} {tid n : Nat} {gid : Option Nat} {regs : Option GroupRegs} (hs : s.memoryOk = true) :
    (s.arriveAt tid n gid regs).memoryOk = true := by
  unfold State.arriveAt
  split <;> simp [hs]

/-! ## Machine/Barriers -/

@[simp] theorem Ctx.misuse_memoryOk {c : Ctx} {n : Nat} : (c.misuse n).memoryOk = true := by
  unfold Ctx.misuse
  simp []

@[simp] theorem execBari_memoryOk {s : State} {w : MainWord} (hs : s.memoryOk = true) : outcomeOk (execBari w s) = true := by
  unfold execBari
  simp +contextual [hs]

@[simp] theorem barArrive_memoryOk {s : State} {c : Ctx} {w : MainWord} {k : State → Res} (hs : s.memoryOk = true)
    (hk : ∀ s, s.memoryOk = true → (k s).memoryOk = true) : (barArrive s c w k).memoryOk = true := by
  unfold barArrive
  dsimp only
  split
  · exact hs
  · refine Sync.andThen_memoryOk (State.release_memoryOk hs) fun s1 h1 => ?_
    split
    · exact hk _ (State.arriveAt_memoryOk h1)
    · exact (State.failReord_memoryOk _ _ _).trans h1

@[simp] theorem execBara_memoryOk {s : State} {w : MainWord} (hs : s.memoryOk = true) : outcomeOk (execBara w s) = true := by
  unfold execBara
  simp +contextual [hs]

@[simp] theorem barWait_memoryOk {s : State} {c : Ctx} {n : Nat} (hs : s.memoryOk = true) : (barWait s c n).memoryOk = true := by
  unfold barWait
  repeat' split
  all_goals simp [hs]

@[simp] theorem execBarw_memoryOk {s : State} {w : MainWord} (hs : s.memoryOk = true) : outcomeOk (execBarw w s) = true := by
  unfold execBarw
  simp +contextual [hs]

@[simp] theorem execBars_memoryOk {s : State} {w : MainWord} (hs : s.memoryOk = true) : outcomeOk (execBars w s) = true := by
  unfold execBars
  refine runMain_memoryOk hs fun s c hs => ?_
  split
  · exact hs
  · split
    · exact Ctx.misuse_memoryOk
    · exact barArrive_memoryOk hs fun s1 h1 => barWait_memoryOk h1

@[simp] theorem execBarq_memoryOk {s : State} {w : MainWord} (hs : s.memoryOk = true) : outcomeOk (execBarq w s) = true := by
  unfold execBarq
  simp +contextual [hs]

/-! ## Machine/CopyOps -/

theorem State.pieceRoom_memoryOk {s : State} {x : CopyAt} {parts : List (Nat × Nat × XRes)} (hs : s.memoryOk = true) {s1 : State}
    (hs1 : s.pieceRoom x parts = some s1) : s1.memoryOk = true := by
  unfold State.pieceRoom at hs1
  dsimp only at hs1
  split at hs1
  · cases hs1
    exact hs
  · split at hs1
    · cases hs1
    · exact State.pathFor_memoryOk hs hs1

@[simp] theorem State.readPart_memoryOk {s : State} {x : CopyAt} {va : Dword} {row off : Nat} {q : Nat × Nat × XRes}
    (hs : s.memoryOk = true) : (s.readPart x va row off q).1.memoryOk = true := by
  unfold State.readPart
  extract_lets +onlyGivenNames a
  split
  · exact hs
  next y _ =>
    split
    · exact (State.modTeam_memoryOk _ _ _).trans hs
    · extract_lets +onlyGivenNames h s1
      have h1 : s1.memoryOk = true := State.countMigration_memoryOk (State.touch_memoryOk hs)
      split
      · exact h1
      · extract_lets r origin s2
        have hr : r.1.memoryOk = true := State.groupLoad_memoryOk h1
        show s2.memoryOk = true
        simp only [s2]
        repeat' split
        all_goals simp [hr]

@[simp] theorem State.pieceDone_memoryOk (s : State) (x : CopyAt) (p : Nat × Nat × Nat) : (s.pieceDone x p).memoryOk = s.memoryOk := by rfl

@[simp] theorem State.landPiece_memoryOk {s : State} {x : CopyAt} {p : Nat × Nat × Nat} (hs : s.memoryOk = true) :
    (s.landPiece x p).memoryOk = true := by
  unfold State.landPiece
  dsimp only
  repeat' split
  all_goals simp +contextual [hs]

@[simp] theorem State.writePart_memoryOk {s : State} {x : CopyAt} {va : Dword} {y : Xlat} {place : Nat} {chunks : List (Nat × List Byte)}
    (hs : s.memoryOk = true) : (s.writePart x va y place chunks).memoryOk = true := by
  unfold State.writePart
  simp +contextual [hs]

@[simp] theorem State.outPart_memoryOk {s : State} {x : CopyAt} {p : Nat × Nat × Nat} {va : Dword} {q : Nat × Nat × XRes}
    (hs : s.memoryOk = true) : (s.outPart x p va q).1.memoryOk = true := by
  unfold State.outPart
  dsimp only
  split
  · exact hs
  · split
    · exact hs
    · exact State.writePart_memoryOk (State.countMigration_memoryOk (State.touch_memoryOk hs))

@[simp] theorem State.writePiece_memoryOk {s : State} {x : CopyAt} {p : Nat × Nat × Nat} (hs : s.memoryOk = true) :
    (s.writePiece x p).memoryOk = true := by
  unfold State.writePiece
  extract_lets +onlyGivenNames c
  split
  · exact hs
  · exact State.holdFailure_memoryOk ((State.pieceDone_memoryOk _ _ _).trans hs)
  · extract_lets +onlyGivenNames va parts r
    have h1 : ((s.pieceRoom x parts).getD s).memoryOk = true := by
      cases h : s.pieceRoom x parts with
      | none => exact hs
      | some s1 => exact State.pieceRoom_memoryOk hs h
    have hr : r.1.memoryOk = true := by
      refine foldl_fst_memoryOk _ (fun acc q h => ?_) _ h1
      exact State.outPart_memoryOk h
    clear_value r
    refine foldl_memoryOk _ (fun s f h => State.holdFailure_memoryOk h) _ ?_
    exact (State.pieceDone_memoryOk _ _ _).trans hr

@[simp] theorem State.declineCopy_memoryOk (s : State) (x : CopyAt) : (s.declineCopy x).memoryOk = s.memoryOk := by
  unfold State.declineCopy
  simp

@[simp] theorem State.startCopy_memoryOk (s : State) (c : Ctx) (x : Copy) : (s.startCopy c x).memoryOk = s.memoryOk := by rfl

/-! ## Machine/Copy -/

@[simp] theorem issueCopy_memoryOk {s : State} {c : Ctx} {w : MainWord} {x : Copy} (hs : s.memoryOk = true) :
    (issueCopy s c w x).memoryOk = true := by
  unfold issueCopy
  repeat' split
  all_goals simp [hs]

@[simp] theorem execCpy_memoryOk {s : State} {w : MainWord} (hs : s.memoryOk = true) : outcomeOk (execCpy w s) = true := by
  unfold execCpy
  refine runMain_memoryOk hs fun s c hs => ?_
  dsimp only
  repeat' split
  all_goals simp [hs]

@[simp] theorem execCpyw_memoryOk {s : State} {w : MainWord} (hs : s.memoryOk = true) : outcomeOk (execCpyw w s) = true := by
  unfold execCpyw
  refine runMain_memoryOk hs fun s c hs => ?_
  dsimp only
  repeat' split
  all_goals simp [hs]

@[simp] theorem execPublDecl_memoryOk {s : State} {w : MainWord} (hs : s.memoryOk = true) : outcomeOk (execPublDecl w s) = true := by
  unfold execPublDecl
  simp +contextual [hs]

@[simp] theorem execPublSwap_memoryOk {s : State} {w : MainWord} (hs : s.memoryOk = true) : outcomeOk (execPublSwap w s) = true := by
  unfold execPublSwap
  refine runMain_memoryOk hs fun s c hs => ?_
  dsimp only
  repeat' split
  all_goals simp [hs]

@[simp] theorem execPublFree_memoryOk {s : State} {w : MainWord} (hs : s.memoryOk = true) : outcomeOk (execPublFree w s) = true := by
  unfold execPublFree
  refine runMain_memoryOk hs fun s c hs => ?_
  dsimp only
  repeat' split
  all_goals simp [hs]

@[simp] theorem execCopyLineLanded_memoryOk {s : State} {team copy : Nat} (hs : s.memoryOk = true) :
    outcomeOk (execCopyLineLanded team copy s) = true := by
  unfold execCopyLineLanded
  repeat' split
  all_goals simp [hs]

@[simp] theorem execCopyWriteFailure_memoryOk {s : State} {team copy : Nat} (hs : s.memoryOk = true) :
    outcomeOk (execCopyWriteFailure team copy s) = true := by
  unfold execCopyWriteFailure
  repeat' split
  all_goals simp [hs]

@[simp] theorem execCopyTranslationFault_memoryOk {s : State} {team copy : Nat} (hs : s.memoryOk = true) :
    outcomeOk (execCopyTranslationFault team copy s) = true := by
  unfold execCopyTranslationFault
  repeat' split
  all_goals simp [hs]

@[simp] theorem execCopyCompletion_memoryOk {s : State} {team copy : Nat} (hs : s.memoryOk = true) :
    outcomeOk (execCopyCompletion team copy s) = true := by
  unfold execCopyCompletion
  dsimp only
  repeat' split
  all_goals simp [hs]

/-! ## Machine/Control -/

@[simp] theorem execNop_memoryOk {s : State} {w : MainWord} (hs : s.memoryOk = true) : outcomeOk (execNop w s) = true := by
  unfold execNop
  refine runMain_memoryOk hs fun s c hs => ?_
  split
  · rfl
  · exact hs

@[simp] theorem transfer_memoryOk {s : State} {c : Ctx} {w : MainWord} {target : Nat → LanePos} (hs : s.memoryOk = true) :
    (transfer s c w target).memoryOk = true := by
  unfold transfer
  simp [hs]

@[simp] theorem transferUnless_memoryOk {s : State} {c : Ctx} {ops : List (Byte × Nat × Opnd)} {k : Res} (hk : k.memoryOk = true) :
    (transferUnless s c ops k).memoryOk = true := by
  unfold transferUnless
  split
  · rfl
  · exact hk

@[simp] theorem execBra_memoryOk {s : State} {w : MainWord} (hs : s.memoryOk = true) : outcomeOk (execBra w s) = true := by
  unfold execBra
  refine runMain_memoryOk hs fun s c hs => ?_
  simp [hs]

@[simp] theorem execBrx_memoryOk {s : State} {w : MainWord} (hs : s.memoryOk = true) : outcomeOk (execBrx w s) = true := by
  unfold execBrx
  refine runMain_memoryOk hs fun s c hs => ?_
  simp [hs]

@[simp] theorem callTo_memoryOk {s : State} {c : Ctx} {w : MainWord} {link : Byte} {ops : List (Byte × Nat × Opnd)} {target : Nat → Dword}
    (hs : s.memoryOk = true) : (callTo s c w link ops target).memoryOk = true := by
  unfold callTo
  dsimp only
  repeat' split
  all_goals simp [hs]

@[simp] theorem execCall_memoryOk {s : State} {w : MainWord} (hs : s.memoryOk = true) : outcomeOk (execCall w s) = true := by
  unfold execCall
  simp +contextual [hs]

@[simp] theorem execCallx_memoryOk {s : State} {w : MainWord} (hs : s.memoryOk = true) : outcomeOk (execCallx w s) = true := by
  unfold execCallx
  simp +contextual [hs]

@[simp] theorem execRet_memoryOk {s : State} {w : MainWord} (hs : s.memoryOk = true) : outcomeOk (execRet w s) = true := by
  unfold execRet
  refine runMain_memoryOk hs fun s c hs => ?_
  simp [hs]

@[simp] theorem State.retireGroup_memoryOk (s : State) (tid gid : Nat) : (s.retireGroup tid gid).memoryOk = s.memoryOk := by
  unfold State.retireGroup
  simp

@[simp] theorem State.settleLive_memoryOk (s : State) (tid gid : Nat) : (s.settleLive tid gid).memoryOk = s.memoryOk := by
  unfold State.settleLive
  split <;> simp

@[simp] theorem State.endResidence_memoryOk (s : State) (tid gid : Nat) : (s.endResidence tid gid).memoryOk = s.memoryOk := by
  unfold State.endResidence
  dsimp only
  repeat' split
  all_goals simp

@[simp] theorem execExit_memoryOk {s : State} {w : MainWord} (hs : s.memoryOk = true) : outcomeOk (execExit w s) = true := by
  unfold execExit
  refine runMain_memoryOk hs fun s c hs => ?_
  split <;> simp [hs]

@[simp] theorem execYield_memoryOk {s : State} {w : MainWord} (hs : s.memoryOk = true) : outcomeOk (execYield w s) = true := by
  unfold execYield
  refine runMain_memoryOk hs fun s c hs => ?_
  split <;> simp [hs]

@[simp] theorem execLoop_memoryOk {s : State} {w : MainWord} (hs : s.memoryOk = true) : outcomeOk (execLoop w s) = true := by
  unfold execLoop
  refine runMain_memoryOk hs fun s c hs => ?_
  split <;> simp [hs]

/-! ## Machine/System -/

@[simp] theorem trapCall_memoryOk {s : State} {cause : Nat} {a : Opnd} {w : MainWord} {c : Ctx} (hs : s.memoryOk = true) :
    (trapCall cause a w s c).memoryOk = true := by
  unfold trapCall
  simp [hs]

@[simp] theorem execTrap_memoryOk {s : State} {w : MainWord} (hs : s.memoryOk = true) : outcomeOk (execTrap w s) = true := by
  unfold execTrap
  simp +contextual [hs]

@[simp] theorem execSysc_memoryOk {s : State} {w : MainWord} (hs : s.memoryOk = true) : outcomeOk (execSysc w s) = true := by
  unfold execSysc
  simp +contextual [hs]

@[simp] theorem execEret_memoryOk {s : State} {w : MainWord} (hs : s.memoryOk = true) : outcomeOk (execEret w s) = true := by
  unfold execEret
  simp +contextual [hs]

@[simp] theorem State.removeTlb_memoryOk (s : State) (c : Ctx) (scope kind : Nat) (asn : Half) (va : Dword) :
    (s.removeTlb c scope kind asn va).memoryOk = s.memoryOk := by rfl

@[simp] theorem execTlbi_memoryOk {s : State} {w : MainWord} (hs : s.memoryOk = true) : outcomeOk (execTlbi w s) = true := by
  unfold execTlbi
  refine runMain_memoryOk hs fun s c hs => ?_
  dsimp only
  split
  · exact hs
  · split
    next s1 k h => exact fst_memoryOk_of_eq (State.settleStores_memoryOk hs) h
    next s1 h =>
      have h1 := fst_memoryOk_of_eq (State.settleStores_memoryOk hs) h
      have h2 := foldl_memoryOk (fun s (x : Core) => s.drainCore x.unit) (fun _ _ h => State.drainCore_memoryOk h)
        (s1.cores.filter (fun x => c.tlbReaches (xScope w) x.unit)) h1
      split
      · exact h2
      · split
        · exact (State.removeTlb_memoryOk _ _ _ _ _ _).trans h2
        · exact (State.removeTlb_memoryOk _ _ _ _ _ _).trans h2
        · exact Sync.andThen_memoryOk (State.reportFailures_memoryOk ((State.removeTlb_memoryOk _ _ _ _ _ _).trans h2)) fun _ h => h

@[simp] theorem waiteDone_memoryOk {s : State} {c : Ctx} {w : MainWord} {v : Dword} {poison : Bool} (hs : s.memoryOk = true) :
    (waiteDone s c w v poison).memoryOk = true := by
  unfold waiteDone
  simp [hs]

@[simp] theorem waiteDecide_memoryOk {s : State} {c : Ctx} {w : MainWord} {a b t : Opnd} {v : LaneValue} {key : Nat}
    (hs : s.memoryOk = true) : (waiteDecide s c w a b t v key).memoryOk = true := by
  unfold waiteDecide
  extract_lets l start poison s1 parked
  have h1 : s1.memoryOk = true := by
    simp only [s1]
    split <;> simp [hs]
  have hparked : ∀ s : State, s.memoryOk = true → (parked s).memoryOk = true := fun s hs => (State.modGroup_memoryOk _ _ _ _).trans hs
  split
  · split
    · have h2 := State.acquireReady_memoryOk (c := c) (scope := xScope w) (keys := [key]) h1
      generalize s1.acquireReady c (xScope w) [key] = r at h2 ⊢
      cases r with
      | ready s2 => exact waiteDone_memoryOk ((State.acquirePart_memoryOk _ _ _ _).trans h2)
      | wait s2 k => exact hparked s2 h2
      | fails s2 t => exact h2
    · exact waiteDone_memoryOk h1
  · split
    · exact waiteDone_memoryOk h1
    · exact hparked s hs

@[simp] theorem execWaite_memoryOk {s : State} {w : MainWord} (hs : s.memoryOk = true) : outcomeOk (execWaite w s) = true := by
  unfold execWaite
  refine runMain_memoryOk hs fun s c hs => ?_
  dsimp only
  split
  · exact hs
  · split
    · exact waiteDone_memoryOk hs
    · split
      · rfl
      · exact hs
      · split
        · exact hs
        · exact State.pairMismatch_memoryOk hs
        · exact hs
        next s2 v _ h =>
          exact waiteDecide_memoryOk (ReadRes.memoryOk_of_eq (State.readLanes_memoryOk (State.touchLanes_memoryOk hs)) h)

/-! ## Machine/Integer -/

@[simp] theorem intBinary_memoryOk {s : State} {g : Sig} {w : MainWord} {affine : Opnd → Opnd → Option (Word × Word)}
    {f : Dword → Dword → Dword} {c : Ctx} (hs : s.memoryOk = true) : (intBinary g w affine f s c).memoryOk = true := by
  unfold intBinary
  simp [hs]

@[simp] theorem intUnary_memoryOk {s : State} {g : Sig} {w : MainWord} {f : Dword → Dword} {c : Ctx} (hs : s.memoryOk = true) :
    (intUnary g w f s c).memoryOk = true := by
  unfold intUnary
  simp [hs]

@[simp] theorem intTernary_memoryOk {s : State} {g : Sig} {w : MainWord} {f : Dword → Dword → Dword → Dword} {c : Ctx}
    (hs : s.memoryOk = true) : (intTernary g w f s c).memoryOk = true := by
  unfold intTernary
  simp [hs]

@[simp] theorem execIadd_memoryOk {s : State} {w : MainWord} (hs : s.memoryOk = true) : outcomeOk (execIadd w s) = true := by
  unfold execIadd
  simp +contextual [hs]

@[simp] theorem execIsub_memoryOk {s : State} {w : MainWord} (hs : s.memoryOk = true) : outcomeOk (execIsub w s) = true := by
  unfold execIsub
  simp +contextual [hs]

@[simp] theorem execImul_memoryOk {s : State} {w : MainWord} (hs : s.memoryOk = true) : outcomeOk (execImul w s) = true := by
  unfold execImul
  simp +contextual [hs]

@[simp] theorem execImulh_memoryOk {s : State} {w : MainWord} (hs : s.memoryOk = true) : outcomeOk (execImulh w s) = true := by
  unfold execImulh
  simp +contextual [hs]

@[simp] theorem execImad_memoryOk {s : State} {w : MainWord} (hs : s.memoryOk = true) : outcomeOk (execImad w s) = true := by
  unfold execImad
  simp +contextual [hs]

@[simp] theorem execIdiv_memoryOk {s : State} {w : MainWord} (hs : s.memoryOk = true) : outcomeOk (execIdiv w s) = true := by
  unfold execIdiv
  simp +contextual [hs]

@[simp] theorem execIrem_memoryOk {s : State} {w : MainWord} (hs : s.memoryOk = true) : outcomeOk (execIrem w s) = true := by
  unfold execIrem
  simp +contextual [hs]

@[simp] theorem execImin_memoryOk {s : State} {w : MainWord} (hs : s.memoryOk = true) : outcomeOk (execImin w s) = true := by
  unfold execImin
  simp +contextual [hs]

@[simp] theorem execImax_memoryOk {s : State} {w : MainWord} (hs : s.memoryOk = true) : outcomeOk (execImax w s) = true := by
  unfold execImax
  simp +contextual [hs]

@[simp] theorem execIabs_memoryOk {s : State} {w : MainWord} (hs : s.memoryOk = true) : outcomeOk (execIabs w s) = true := by
  unfold execIabs
  simp +contextual [hs]

@[simp] theorem execAnd_memoryOk {s : State} {w : MainWord} (hs : s.memoryOk = true) : outcomeOk (execAnd w s) = true := by
  unfold execAnd
  simp +contextual [hs]

@[simp] theorem execOr_memoryOk {s : State} {w : MainWord} (hs : s.memoryOk = true) : outcomeOk (execOr w s) = true := by
  unfold execOr
  simp +contextual [hs]

@[simp] theorem execXor_memoryOk {s : State} {w : MainWord} (hs : s.memoryOk = true) : outcomeOk (execXor w s) = true := by
  unfold execXor
  simp +contextual [hs]

@[simp] theorem execAndn_memoryOk {s : State} {w : MainWord} (hs : s.memoryOk = true) : outcomeOk (execAndn w s) = true := by
  unfold execAndn
  simp +contextual [hs]

@[simp] theorem execBmix_memoryOk {s : State} {w : MainWord} (hs : s.memoryOk = true) : outcomeOk (execBmix w s) = true := by
  unfold execBmix
  simp +contextual [hs]

@[simp] theorem execShl_memoryOk {s : State} {w : MainWord} (hs : s.memoryOk = true) : outcomeOk (execShl w s) = true := by
  unfold execShl
  simp +contextual [hs]

@[simp] theorem execShr_memoryOk {s : State} {w : MainWord} (hs : s.memoryOk = true) : outcomeOk (execShr w s) = true := by
  unfold execShr
  simp +contextual [hs]

@[simp] theorem execSar_memoryOk {s : State} {w : MainWord} (hs : s.memoryOk = true) : outcomeOk (execSar w s) = true := by
  unfold execSar
  simp +contextual [hs]

@[simp] theorem execRotl_memoryOk {s : State} {w : MainWord} (hs : s.memoryOk = true) : outcomeOk (execRotl w s) = true := by
  unfold execRotl
  simp +contextual [hs]

@[simp] theorem execPopc_memoryOk {s : State} {w : MainWord} (hs : s.memoryOk = true) : outcomeOk (execPopc w s) = true := by
  unfold execPopc
  simp +contextual [hs]

@[simp] theorem execClz_memoryOk {s : State} {w : MainWord} (hs : s.memoryOk = true) : outcomeOk (execClz w s) = true := by
  unfold execClz
  simp +contextual [hs]

@[simp] theorem execCtz_memoryOk {s : State} {w : MainWord} (hs : s.memoryOk = true) : outcomeOk (execCtz w s) = true := by
  unfold execCtz
  simp +contextual [hs]

@[simp] theorem execBrev_memoryOk {s : State} {w : MainWord} (hs : s.memoryOk = true) : outcomeOk (execBrev w s) = true := by
  unfold execBrev
  simp +contextual [hs]

@[simp] theorem execBfx_memoryOk {s : State} {w : MainWord} (hs : s.memoryOk = true) : outcomeOk (execBfx w s) = true := by
  unfold execBfx
  simp +contextual [hs]

@[simp] theorem execBfi_memoryOk {s : State} {w : MainWord} (hs : s.memoryOk = true) : outcomeOk (execBfi w s) = true := by
  unfold execBfi
  simp +contextual [hs]

@[simp] theorem comparePred_memoryOk {s : State} {c : Ctx} {w : MainWord} {t poison : Nat → Bool} (hs : s.memoryOk = true) :
    (comparePred s c w t poison).memoryOk = true := by
  unfold comparePred
  simp [hs]

@[simp] theorem execIcmp_memoryOk {s : State} {w : MainWord} (hs : s.memoryOk = true) : outcomeOk (execIcmp w s) = true := by
  unfold execIcmp
  simp +contextual [hs]

@[simp] theorem execPlog_memoryOk {s : State} {w : MainWord} (hs : s.memoryOk = true) : outcomeOk (execPlog w s) = true := by
  unfold execPlog
  simp +contextual [hs]

@[simp] theorem execSel_memoryOk {s : State} {w : MainWord} (hs : s.memoryOk = true) : outcomeOk (execSel w s) = true := by
  unfold execSel
  simp +contextual [hs]

@[simp] theorem execMov_memoryOk {s : State} {w : MainWord} (hs : s.memoryOk = true) : outcomeOk (execMov w s) = true := by
  unfold execMov
  simp +contextual [hs]

@[simp] theorem execPmovFromPred_memoryOk {s : State} {w : MainWord} (hs : s.memoryOk = true) :
    outcomeOk (execPmovFromPred w s) = true := by
  unfold execPmovFromPred
  simp +contextual [hs]

@[simp] theorem execPmovToPred_memoryOk {s : State} {w : MainWord} (hs : s.memoryOk = true) : outcomeOk (execPmovToPred w s) = true := by
  unfold execPmovToPred
  simp +contextual [hs]

@[simp] theorem execPmovGet_memoryOk {s : State} {w : MainWord} (hs : s.memoryOk = true) : outcomeOk (execPmovGet w s) = true := by
  unfold execPmovGet
  simp +contextual [hs]

@[simp] theorem execPmovSet_memoryOk {s : State} {w : MainWord} (hs : s.memoryOk = true) : outcomeOk (execPmovSet w s) = true := by
  unfold execPmovSet
  simp [hs]

@[simp] theorem execLea_memoryOk {s : State} {w : MainWord} (hs : s.memoryOk = true) : outcomeOk (execLea w s) = true := by
  unfold execLea
  simp +contextual [hs]

/-! ## Machine/FloatOps -/

@[simp] theorem deliverFloat_memoryOk {s : State} {c : Ctx} {g : Sig} {w : MainWord} {ty : OTy} {srcs : List Opnd} {res : Nat → FRes}
    (hs : s.memoryOk = true) : (deliverFloat s c g w ty srcs res).memoryOk = true := by
  unfold deliverFloat
  dsimp only
  repeat' split
  all_goals simp [hs]

@[simp] theorem floatBinary_memoryOk {s : State} {op : BitVec 10} {w : MainWord} {f : Fmt → Rnd → FVal → FVal → FRes}
    (hs : s.memoryOk = true) : outcomeOk (floatBinary op w f s) = true := by
  unfold floatBinary
  simp +contextual [hs]

@[simp] theorem execFadd_memoryOk {s : State} {w : MainWord} (hs : s.memoryOk = true) : outcomeOk (execFadd w s) = true := by
  unfold execFadd
  simp [hs]

@[simp] theorem execFsub_memoryOk {s : State} {w : MainWord} (hs : s.memoryOk = true) : outcomeOk (execFsub w s) = true := by
  unfold execFsub
  simp [hs]

@[simp] theorem execFmul_memoryOk {s : State} {w : MainWord} (hs : s.memoryOk = true) : outcomeOk (execFmul w s) = true := by
  unfold execFmul
  simp [hs]

@[simp] theorem execFdiv_memoryOk {s : State} {w : MainWord} (hs : s.memoryOk = true) : outcomeOk (execFdiv w s) = true := by
  unfold execFdiv
  simp [hs]

@[simp] theorem execFfma_memoryOk {s : State} {w : MainWord} (hs : s.memoryOk = true) : outcomeOk (execFfma w s) = true := by
  unfold execFfma
  simp +contextual [hs]

@[simp] theorem execFsqrt_memoryOk {s : State} {w : MainWord} (hs : s.memoryOk = true) : outcomeOk (execFsqrt w s) = true := by
  unfold execFsqrt
  simp +contextual [hs]

@[simp] theorem floatMinMax_memoryOk {s : State} {op : BitVec 10} {isMax : Bool} {w : MainWord} (hs : s.memoryOk = true) :
    outcomeOk (floatMinMax op isMax w s) = true := by
  unfold floatMinMax
  simp +contextual [hs]

@[simp] theorem execFmin_memoryOk {s : State} {w : MainWord} (hs : s.memoryOk = true) : outcomeOk (execFmin w s) = true := by
  unfold execFmin
  simp [hs]

@[simp] theorem execFmax_memoryOk {s : State} {w : MainWord} (hs : s.memoryOk = true) : outcomeOk (execFmax w s) = true := by
  unfold execFmax
  simp [hs]

@[simp] theorem floatSign_memoryOk {s : State} {op : BitVec 10} {w : MainWord} {f : Dword → Dword → Dword} (hs : s.memoryOk = true) :
    outcomeOk (floatSign op w f s) = true := by
  unfold floatSign
  simp +contextual [hs]

@[simp] theorem execFabs_memoryOk {s : State} {w : MainWord} (hs : s.memoryOk = true) : outcomeOk (execFabs w s) = true := by
  unfold execFabs
  simp [hs]

@[simp] theorem execFneg_memoryOk {s : State} {w : MainWord} (hs : s.memoryOk = true) : outcomeOk (execFneg w s) = true := by
  unfold execFneg
  simp [hs]

@[simp] theorem execFcmp_memoryOk {s : State} {w : MainWord} (hs : s.memoryOk = true) : outcomeOk (execFcmp w s) = true := by
  unfold execFcmp
  simp +contextual [hs]

@[simp] theorem execFclass_memoryOk {s : State} {w : MainWord} (hs : s.memoryOk = true) : outcomeOk (execFclass w s) = true := by
  unfold execFclass
  simp +contextual [hs]

@[simp] theorem execFdot2_memoryOk {s : State} {w : MainWord} (hs : s.memoryOk = true) : outcomeOk (execFdot2 w s) = true := by
  unfold execFdot2
  simp +contextual [hs]

@[simp] theorem execFdot4_memoryOk {s : State} {w : MainWord} (hs : s.memoryOk = true) : outcomeOk (execFdot4 w s) = true := by
  unfold execFdot4
  simp +contextual [hs]

@[simp] theorem deliverElement_memoryOk {s : State} {c : Ctx} {g : Sig} {w : MainWord} {dst : ElemFmt} {srcs : List Opnd} {res : Nat → FRes}
    (hs : s.memoryOk = true) : (deliverElement s c g w dst srcs res).memoryOk = true := by
  unfold deliverElement
  simp [hs]

@[simp] theorem execCvt_memoryOk {s : State} {w : MainWord} (hs : s.memoryOk = true) : outcomeOk (execCvt w s) = true := by
  unfold execCvt
  simp +contextual [hs]

@[simp] theorem execCvts_memoryOk {s : State} {w : MainWord} (hs : s.memoryOk = true) : outcomeOk (execCvts w s) = true := by
  unfold execCvts
  simp +contextual [hs]

@[simp] theorem execFrnd_memoryOk {s : State} {w : MainWord} (hs : s.memoryOk = true) : outcomeOk (execFrnd w s) = true := by
  unfold execFrnd
  simp +contextual [hs]

@[simp] theorem specialOp_memoryOk {s : State} {op : BitVec 10} {fn : SpecialFn} {w : MainWord} (hs : s.memoryOk = true) :
    outcomeOk (specialOp op fn w s) = true := by
  unfold specialOp
  simp +contextual [hs]

@[simp] theorem execFrcp_memoryOk {s : State} {w : MainWord} (hs : s.memoryOk = true) : outcomeOk (execFrcp w s) = true := by
  unfold execFrcp
  simp [hs]

@[simp] theorem execFrsq_memoryOk {s : State} {w : MainWord} (hs : s.memoryOk = true) : outcomeOk (execFrsq w s) = true := by
  unfold execFrsq
  simp [hs]

@[simp] theorem execFexp2_memoryOk {s : State} {w : MainWord} (hs : s.memoryOk = true) : outcomeOk (execFexp2 w s) = true := by
  unfold execFexp2
  simp [hs]

@[simp] theorem execFlog2_memoryOk {s : State} {w : MainWord} (hs : s.memoryOk = true) : outcomeOk (execFlog2 w s) = true := by
  unfold execFlog2
  simp [hs]

@[simp] theorem execFsin_memoryOk {s : State} {w : MainWord} (hs : s.memoryOk = true) : outcomeOk (execFsin w s) = true := by
  unfold execFsin
  simp [hs]

@[simp] theorem execFcos_memoryOk {s : State} {w : MainWord} (hs : s.memoryOk = true) : outcomeOk (execFcos w s) = true := by
  unfold execFcos
  simp [hs]

@[simp] theorem execFtanh_memoryOk {s : State} {w : MainWord} (hs : s.memoryOk = true) : outcomeOk (execFtanh w s) = true := by
  unfold execFtanh
  simp [hs]

/-! ## Machine/Quant -/

@[simp] theorem deliverGeneral_memoryOk {s : State} {c : Ctx} {g : Sig} {w : MainWord} {raising : List Nat} {res : Nat → FRes}
    {poison : Nat → Bool} (hs : s.memoryOk = true) : (deliverGeneral s c g w raising res poison).memoryOk = true := by
  unfold deliverGeneral
  split <;> simp [hs]

@[simp] theorem execQscl_memoryOk {s : State} {w : MainWord} (hs : s.memoryOk = true) : outcomeOk (execQscl w s) = true := by
  unfold execQscl
  simp +contextual [hs]

@[simp] theorem execQpack_memoryOk {s : State} {w : MainWord} (hs : s.memoryOk = true) : outcomeOk (execQpack w s) = true := by
  unfold execQpack
  simp +contextual [hs]

@[simp] theorem execQunpk_memoryOk {s : State} {w : MainWord} (hs : s.memoryOk = true) : outcomeOk (execQunpk w s) = true := by
  unfold execQunpk
  simp +contextual [hs]

@[simp] theorem execShape_memoryOk {s : State} {w : MainWord} (hs : s.memoryOk = true) : outcomeOk (execShape w s) = true := by
  unfold execShape
  refine runMain_memoryOk hs fun s c hs => ?_
  dsimp only
  split <;> simp [hs]

/-! ## Machine/Collective -/

@[simp] theorem execPart_memoryOk {s : State} {w : MainWord} (hs : s.memoryOk = true) : outcomeOk (execPart w s) = true := by
  unfold execPart
  refine runMain_memoryOk hs fun s c hs => ?_
  dsimp only
  repeat' split
  all_goals simp [hs]

@[simp] theorem execReord_memoryOk {s : State} {w : MainWord} (hs : s.memoryOk = true) : outcomeOk (execReord w s) = true := by
  unfold execReord
  refine runMain_memoryOk hs fun s c hs => ?_
  extract_lets +onlyGivenNames n k arrival regs
  split
  · rfl
  · split
    · exact (State.modGroup_memoryOk _ _ _ _).trans hs
    · split
      · exact Ctx.misuse_memoryOk
      · split
        · rfl
        · split
          · rfl
          · split
            · exact (Ctx.put_memoryOk _ _ _).trans hs
            · split
              · exact hs
              · extract_lets note s1
                have h1 : s1.memoryOk = true := by
                  simp only [s1]
                  split
                  · exact hs
                  · exact (State.setTeam_memoryOk _ _).trans hs
                clear_value s1
                split
                · exact h1
                next t _ =>
                  split
                  · exact h1
                  · have h2 := State.reordOutcome_memoryOk (t := t) (n := n) (issuer := some c.gid) (fall := fallThrough c w) h1
                    generalize s1.reordOutcome t n (some c.gid) (fallThrough c w) = o at h2 ⊢
                    cases o with
                    | pending => exact h1
                    | diverged => exact (State.modGroup_memoryOk _ _ _ _).trans ((State.failReord_memoryOk _ _ _).trans h1)
                    | moved s2 => exact h2

/-! ## Machine/CrossLane -/

@[simp] theorem execPrdx_memoryOk {s : State} {w : MainWord} (hs : s.memoryOk = true) : outcomeOk (execPrdx w s) = true := by
  unfold execPrdx
  simp +contextual [hs]

@[simp] theorem execBallot_memoryOk {s : State} {w : MainWord} (hs : s.memoryOk = true) : outcomeOk (execBallot w s) = true := by
  unfold execBallot
  simp +contextual [hs]

@[simp] theorem execLxch_memoryOk {s : State} {w : MainWord} (hs : s.memoryOk = true) : outcomeOk (execLxch w s) = true := by
  unfold execLxch
  simp +contextual [hs]

@[simp] theorem execLxop_memoryOk {s : State} {w : MainWord} (hs : s.memoryOk = true) : outcomeOk (execLxop w s) = true := by
  unfold execLxop
  simp +contextual [hs]

@[simp] theorem execScan_memoryOk {s : State} {w : MainWord} (hs : s.memoryOk = true) : outcomeOk (execScan w s) = true := by
  unfold execScan
  refine runMain_memoryOk hs fun s c hs => ?_
  split <;> simp [hs]

/-! ## Machine/TileOps -/

@[simp] theorem tileGate_memoryOk {s : State} {c : Ctx} {traps : List (Option TrapInfo)} {k : Group → Res} (hs : s.memoryOk = true)
    (hk : ∀ a0, (k a0).memoryOk = true) : (tileGate s c traps k).memoryOk = true := by
  unfold tileGate
  repeat' split
  all_goals simp [hs, hk]

@[simp] theorem putTile_memoryOk (s : State) (c : Ctx) (g : Group) (t : Nat) (f : Nat → Nat → FRes) (poison : Nat → Bool) :
    (putTile s c g t f poison).memoryOk = s.memoryOk := by rfl

/-! ## Machine/Tile -/

@[simp] theorem execTmma_memoryOk {s : State} {w : MainWord} (hs : s.memoryOk = true) : outcomeOk (execTmma w s) = true := by
  unfold execTmma
  refine runMain_memoryOk hs fun s c hs => ?_
  dsimp only
  repeat' split
  all_goals simp [hs]

@[simp] theorem execTzero_memoryOk {s : State} {w : MainWord} (hs : s.memoryOk = true) : outcomeOk (execTzero w s) = true := by
  unfold execTzero
  simp +contextual [hs]

@[simp] theorem execTld_memoryOk {s : State} {w : MainWord} (hs : s.memoryOk = true) : outcomeOk (execTld w s) = true := by
  unfold execTld
  refine runMain_memoryOk hs fun s c hs => ?_
  dsimp only
  split <;> simp [hs]

@[simp] theorem execTdrn_memoryOk {s : State} {w : MainWord} (hs : s.memoryOk = true) : outcomeOk (execTdrn w s) = true := by
  unfold execTdrn
  refine runMain_memoryOk hs fun s c hs => ?_
  dsimp only
  repeat' split
  all_goals simp [hs]

@[simp] theorem deliverReduction_memoryOk {s : State} {c : Ctx} {w : MainWord} {count : Nat} {elems : Tile → Nat → List Nat}
    {poison : Tile → Nat → Bool} (hs : s.memoryOk = true) : (deliverReduction s c w count elems poison).memoryOk = true := by
  unfold deliverReduction
  simp [hs]

@[simp] theorem execTredr_memoryOk {s : State} {w : MainWord} (hs : s.memoryOk = true) : outcomeOk (execTredr w s) = true := by
  unfold execTredr
  simp +contextual [hs]

@[simp] theorem execTredc_memoryOk {s : State} {w : MainWord} (hs : s.memoryOk = true) : outcomeOk (execTredc w s) = true := by
  unfold execTredc
  simp +contextual [hs]

@[simp] theorem execTbcr_memoryOk {s : State} {w : MainWord} (hs : s.memoryOk = true) : outcomeOk (execTbcr w s) = true := by
  unfold execTbcr
  simp +contextual [hs]

@[simp] theorem execTbcc_memoryOk {s : State} {w : MainWord} (hs : s.memoryOk = true) : outcomeOk (execTbcc w s) = true := by
  unfold execTbcc
  simp +contextual [hs]

@[simp] theorem execTrot_memoryOk {s : State} {w : MainWord} (hs : s.memoryOk = true) : outcomeOk (execTrot w s) = true := by
  unfold execTrot
  simp +contextual [hs]

@[simp] theorem execTew_memoryOk {s : State} {w : MainWord} (hs : s.memoryOk = true) : outcomeOk (execTew w s) = true := by
  unfold execTew
  simp +contextual [hs]

@[simp] theorem execTget_memoryOk {s : State} {w : MainWord} (hs : s.memoryOk = true) : outcomeOk (execTget w s) = true := by
  unfold execTget
  simp +contextual [hs]

@[simp] theorem execTset_memoryOk {s : State} {w : MainWord} (hs : s.memoryOk = true) : outcomeOk (execTset w s) = true := by
  unfold execTset
  simp +contextual [hs]

/-! ## Machine/Context -/

theorem State.writeImages_memoryOk {s : State} {c : Ctx} {images : List (Dword × List Byte)} (hs : s.memoryOk = true) {s1 : State}
    (hs1 : s.writeImages c images = some s1) : s1.memoryOk = true := by
  unfold State.writeImages at hs1
  extract_lets parts keys direct s2 ready at hs1
  have hready : ∀ s2, ready = some s2 → s2.memoryOk = true := by
    intro s2 h2
    simp only [ready] at h2
    split at h2
    · cases h2
      exact hs
    · split at h2 <;> cases h2
      exact State.drainCore_memoryOk hs
  obtain ⟨s3, h3, rfl⟩ := Option.map_eq_some_iff.1 hs1
  obtain ⟨s2, h2, h3⟩ := Option.bind_eq_some_iff.1 h3
  refine foldl_memoryOk _ (fun s q h => ?_) _ (State.pathFor_memoryOk (hready s2 h2) h3)
  exact State.groupStore_memoryOk (State.countMigration_memoryOk (State.touch_memoryOk h))

@[simp] theorem State.readImage_memoryOk {s : State} {c : Ctx} {a : Dword} {n : Nat} (hs : s.memoryOk = true) :
    (s.readImage c a n).1.memoryOk = true := by
  refine foldl_fst_memoryOk _ (fun acc q hacc => ?_) _ hs
  exact State.groupLoad_memoryOk (State.countMigration_memoryOk (State.touch_memoryOk hacc))

@[simp] theorem execSavev_memoryOk {s : State} {w : MainWord} (hs : s.memoryOk = true) : outcomeOk (execSavev w s) = true := by
  unfold execSavev
  refine runMain_memoryOk hs fun s c hs => ?_
  dsimp only
  split
  · exact hs
  · split
    · rfl
    · split
      · rfl
      · split
        · exact State.drainCore_memoryOk hs
        next s1 h1 => exact (State.modGroup_memoryOk _ _ _ _).trans (State.writeImages_memoryOk hs h1)

@[simp] theorem State.redirectMail_memoryOk (s : State) (c : Ctx) (a b : Dword) : (s.redirectMail c a b).memoryOk = s.memoryOk := by rfl

@[simp] theorem execSavevState_memoryOk {s : State} {w : MainWord} (hs : s.memoryOk = true) : outcomeOk (execSavevState w s) = true := by
  unfold execSavevState
  refine runMain_memoryOk hs fun s c hs => ?_
  dsimp only
  split
  · exact hs
  · split
    · exact hs
    · split
      · rfl
      · split
        · exact State.drainCore_memoryOk hs
        next s2 h2 =>
          have h3 := State.writeImages_memoryOk hs h2
          show State.memoryOk _ = true
          split <;> simp [h3]

theorem State.readHeader_memoryOk {s : State} {c : Ctx} {a : Dword} {kind : Nat} (hs : s.memoryOk = true) {r : State × List Byte}
    (hr : s.readHeader c a kind = .ok r) : r.1.memoryOk = true := by
  rw [State.readHeader] at hr
  split at hr
  · cases hr
  · dsimp only at hr
    split at hr <;> cases hr
    exact State.readImage_memoryOk hs

theorem State.openImage_memoryOk {s : State} {c : Ctx} {a : Dword} {kind : Nat} (hs : s.memoryOk = true)
    {r : State × List Byte × List (Nat × Nat × Byte)} (hr : s.openImage c a kind = .ok r) : r.1.memoryOk = true := by
  have hread : ∀ r, s.readHeader c a kind = .ok r → r.1.memoryOk = true := fun r => State.readHeader_memoryOk hs
  revert hr
  rw [State.openImage]
  generalize s.readHeader c a kind = x at hread ⊢
  cases c.imageMisaligned a with
  | some t => exact nofun
  | none =>
    cases x with
    | error t => exact nofun
    | ok p =>
      dsimp only
      have h1 := fun n => State.readImage_memoryOk (c := c) (a := a) (n := n) (hread p rfl)
      cases c.imageFault p.1 a (imageField p.2 4 4) .read with
      | some t => exact nofun
      | none =>
        intro hr
        cases hr
        exact h1 _

@[simp] theorem execRestv_memoryOk {s : State} {w : MainWord} (hs : s.memoryOk = true) : outcomeOk (execRestv w s) = true := by
  unfold execRestv
  refine runMain_memoryOk hs fun s c hs => ?_
  dsimp only
  split
  · exact hs
  · split
    · rfl
    next s1 bs bad h =>
      have h1 : s1.memoryOk = true := State.openImage_memoryOk hs h
      split
      · exact (State.modGroup_memoryOk _ _ _ _).trans h1
      · exact (State.modGroup_memoryOk _ _ _ _).trans h1
      · split
        · exact hs
        · exact (State.modGroup_memoryOk _ _ _ _).trans h1

@[simp] theorem State.rebindName_memoryOk (s : State) (tid gid : Nat) (name : Dword) :
    (s.rebindName tid gid name).memoryOk = s.memoryOk := by
  unfold State.rebindName
  simp

@[simp] theorem State.reloadMail_memoryOk {s : State} {c : Ctx} {b : Dword} {regs : List Nat} (hs : s.memoryOk = true) :
    (s.reloadMail c b regs).memoryOk = true := by
  unfold State.reloadMail
  simp +contextual [hs]

@[simp] theorem execRestvState_memoryOk {s : State} {w : MainWord} (hs : s.memoryOk = true) : outcomeOk (execRestvState w s) = true := by
  obtain ⟨readHeader, hheader⟩ : ∃ f, f = State.readHeader := ⟨_, rfl⟩
  obtain ⟨openImage, himage⟩ : ∃ f, f = State.openImage := ⟨_, rfl⟩
  rw [execRestvState, ← hheader, ← himage]
  refine runMain_memoryOk hs fun s c hs => ?_
  split
  · exact hs
  · split
    · rfl
    next s1 bs _ h =>
      have h1 : s1.memoryOk = true := State.openImage_memoryOk hs (himage ▸ h)
      extract_lets b
      split
      · rfl
      next s2 _ h =>
        have h2 : s2.memoryOk = true := State.readHeader_memoryOk h1 (hheader ▸ h)
        extract_lets delivered
        split
        · rfl
        · exact (State.modGroup_memoryOk _ _ _ _).trans (State.reloadMail_memoryOk ((State.rebindName_memoryOk _ _ _ _).trans h2))

/-! ## Machine/Fetch -/

@[simp] theorem State.fillLine_memoryOk {s : State} {u : CoreUnit} {asn : Half} {va : Dword} {x : Xlat} (hs : s.memoryOk = true) :
    (s.fillLine u asn va x).memoryOk = true := by
  unfold State.fillLine
  simp [hs]

@[simp] theorem State.codeAt_known_memoryOk (s : State) (t : Team) (g : Group) (va : Dword) (ws : List Word) :
    (State.codeAt.known t g va s ws).1.memoryOk = s.memoryOk := by rfl

@[simp] theorem State.codeAt_fill_memoryOk {s : State} {t : Team} {g : Group} {u : CoreUnit} {va : Dword} {x : Xlat}
    (hs : s.memoryOk = true) : (State.codeAt.fill s t g u va x).1.memoryOk = true := by
  unfold State.codeAt.fill
  simp [hs]

@[simp] theorem State.codeAt_memoryOk {s : State} {t : Team} {g : Group} {u : CoreUnit} {va : Dword} {x : Xlat} (hs : s.memoryOk = true) :
    (s.codeAt t g u va x).1.memoryOk = true := by
  unfold State.codeAt
  repeat' split
  all_goals simp [hs]

@[simp] theorem State.byMark_memoryOk {s : State} {t : Team} {g : Group} {p : LanePos} {ws : List Word} (hs : s.memoryOk = true) :
    (s.byMark t g p ws).memoryOk = true := by
  unfold State.byMark
  dsimp only
  repeat' split
  all_goals simp [hs]

@[simp] theorem State.fetchEntry_memoryOk {s : State} {t : Team} {g : Group} {u : CoreUnit} {p : LanePos} (hs : s.memoryOk = true) :
    (s.fetchEntry t g u p).memoryOk = true := by
  unfold State.fetchEntry
  extract_lets +onlyGivenNames m trap sp
  have htrap : ∀ cause val val2, (trap cause val val2).memoryOk = true := fun _ _ _ => State.fetchFault_memoryOk hs
  split
  · split
    · exact hs
    · exact htrap _ _ _
  next x _ =>
    extract_lets +onlyGivenNames s1
    have h1 : s1.memoryOk = true := State.touch_memoryOk hs
    split
    · exact h1
    · extract_lets +onlyGivenNames r
      have hr : r.1.memoryOk = true := State.codeAt_memoryOk h1
      split
      · exact htrap _ _ _
      · exact State.byMark_memoryOk hr

@[simp] theorem State.closeFetch_memoryOk {s : State} {t : Team} {g : Group} {u : CoreUnit} {p : LanePos} {f : Fetched}
    (hs : s.memoryOk = true) (hf : f.memoryOk = true) : (s.closeFetch t g u p f).memoryOk = true := by
  unfold State.closeFetch
  split
  · split
    · exact hf
    · exact State.underWay_memoryOk hs
  · split
    · exact (State.answersUsed_memoryOk _).trans hf
    · exact State.underWay_memoryOk hs
  · rfl

@[simp] theorem State.fetchGroup_memoryOk {s : State} {tid gid : Nat} (hs : s.memoryOk = true) :
    (s.fetchGroup tid gid).memoryOk = true := by
  unfold State.fetchGroup
  repeat' split
  all_goals simp [hs]

@[simp] theorem State.fetchEngine_memoryOk {s : State} {tid : Nat} {k : EngineKind} (hs : s.memoryOk = true) :
    (s.fetchEngine tid k).memoryOk = true := by
  unfold State.fetchEngine
  split <;> simp [hs]

/-! ## Machine/EngineBase -/

@[simp] theorem State.modCluster_memoryOk (s : State) (tid : Nat) (f : Cluster → Cluster) :
    (s.modCluster tid f).memoryOk = s.memoryOk := by rfl

@[simp] theorem State.modEngine_memoryOk (s : State) (tid : Nat) (k : EngineKind) (f : Engine → Engine) :
    (s.modEngine tid k f).memoryOk = s.memoryOk := by rfl

@[simp] theorem State.engineProgress_memoryOk (s : State) (t : Team) : (s.engineProgress t).memoryOk = s.memoryOk := by
  unfold State.engineProgress
  simp

@[simp] theorem State.engineFault_memoryOk {s : State} {x : EngAt} {cause : Byte} {pc word : Nat} {val2 : Dword} (hs : s.memoryOk = true) :
    (s.engineFault x cause pc word val2).memoryOk = true := by
  unfold State.engineFault
  simp [hs]

@[simp] theorem settleEngine_memoryOk {s : State} {x : EngAt} {r : EngRes} (hs : s.memoryOk = true) (hr : r.memoryOk = true) :
    (settleEngine s x r).memoryOk = true := by
  cases r with
  | fault cause word => simp [settleEngine, hs]
  | next s1 e | jump s1 e target | stay s1 e | wait s1 =>
    rw [EngRes.memoryOk] at hr
    simp [settleEngine, hs, hr]

@[simp] theorem runEngine_memoryOk {s : State} {body : State → EngAt → EngRes} (hs : s.memoryOk = true)
    (hbody : ∀ s x, s.memoryOk = true → (body s x).memoryOk = true) : outcomeOk (runEngine s body) = true := by
  unfold runEngine
  split <;> simp [hs, hbody]

@[simp] theorem stackWord_memoryOk {s : State} {n m : Nat} {f : List Word → List Word} (hs : s.memoryOk = true) :
    outcomeOk (stackWord n m f s) = true := by
  unfold stackWord
  simp +contextual [hs]

@[simp] theorem binaryWord_memoryOk {s : State} {f : Word → Word → Word} (hs : s.memoryOk = true) : outcomeOk (binaryWord f s) = true := by
  unfold binaryWord
  simp [hs]

/-! ## Machine/EngineWords -/

@[simp] theorem execPush_memoryOk {s : State} {lit : BitVec 13} (hs : s.memoryOk = true) : outcomeOk (execPush lit s) = true := by
  unfold execPush
  simp [hs]

@[simp] theorem execExt_memoryOk {s : State} {lit : BitVec 13} (hs : s.memoryOk = true) : outcomeOk (execExt lit s) = true := by
  unfold execExt
  simp [hs]

@[simp] theorem execDup_memoryOk {s : State} (hs : s.memoryOk = true) : outcomeOk (execDup s) = true := by
  unfold execDup
  simp [hs]

@[simp] theorem execDrop_memoryOk {s : State} (hs : s.memoryOk = true) : outcomeOk (execDrop s) = true := by
  unfold execDrop
  simp [hs]

@[simp] theorem execSwap_memoryOk {s : State} (hs : s.memoryOk = true) : outcomeOk (execSwap s) = true := by
  unfold execSwap
  simp [hs]

@[simp] theorem execOver_memoryOk {s : State} (hs : s.memoryOk = true) : outcomeOk (execOver s) = true := by
  unfold execOver
  simp [hs]

@[simp] theorem execAdd_memoryOk {s : State} (hs : s.memoryOk = true) : outcomeOk (execAdd s) = true := by
  unfold execAdd
  simp [hs]

@[simp] theorem execSub_memoryOk {s : State} (hs : s.memoryOk = true) : outcomeOk (execSub s) = true := by
  unfold execSub
  simp [hs]

@[simp] theorem execMul_memoryOk {s : State} (hs : s.memoryOk = true) : outcomeOk (execMul s) = true := by
  unfold execMul
  simp [hs]

@[simp] theorem execEngAnd_memoryOk {s : State} (hs : s.memoryOk = true) : outcomeOk (execEngAnd s) = true := by
  unfold execEngAnd
  simp [hs]

@[simp] theorem execEngOr_memoryOk {s : State} (hs : s.memoryOk = true) : outcomeOk (execEngOr s) = true := by
  unfold execEngOr
  simp [hs]

@[simp] theorem execEngXor_memoryOk {s : State} (hs : s.memoryOk = true) : outcomeOk (execEngXor s) = true := by
  unfold execEngXor
  simp [hs]

@[simp] theorem execEngShl_memoryOk {s : State} (hs : s.memoryOk = true) : outcomeOk (execEngShl s) = true := by
  unfold execEngShl
  simp [hs]

@[simp] theorem execEngShr_memoryOk {s : State} (hs : s.memoryOk = true) : outcomeOk (execEngShr s) = true := by
  unfold execEngShr
  simp [hs]

@[simp] theorem execGetl_memoryOk {s : State} {reg : Fin 3} (hs : s.memoryOk = true) : outcomeOk (execGetl reg s) = true := by
  unfold execGetl
  simp +contextual [hs]

@[simp] theorem execSetl_memoryOk {s : State} {reg : Fin 3} (hs : s.memoryOk = true) : outcomeOk (execSetl reg s) = true := by
  unfold execSetl
  refine runEngine_memoryOk hs fun s x hs => ?_
  split <;> simp [hs]

@[simp] theorem execEngLoop_memoryOk {s : State} {reg : Fin 3} (hs : s.memoryOk = true) : outcomeOk (execEngLoop reg s) = true := by
  unfold execEngLoop
  refine runEngine_memoryOk hs fun s x hs => ?_
  dsimp only
  repeat' split
  all_goals simp [hs]

@[simp] theorem execEndl_memoryOk {s : State} {reg : Fin 3} (hs : s.memoryOk = true) : outcomeOk (execEndl reg s) = true := by
  unfold execEndl
  simp [hs]

@[simp] theorem execJmp_memoryOk {s : State} (hs : s.memoryOk = true) : outcomeOk (execJmp s) = true := by
  unfold execJmp
  refine runEngine_memoryOk hs fun s x hs => ?_
  split <;> simp [hs]

@[simp] theorem execJz_memoryOk {s : State} (hs : s.memoryOk = true) : outcomeOk (execJz s) = true := by
  unfold execJz
  refine runEngine_memoryOk hs fun s x hs => ?_
  split <;> simp [hs]

@[simp] theorem execHalt_memoryOk {s : State} (hs : s.memoryOk = true) : outcomeOk (execHalt s) = true := by
  unfold execHalt
  simp [hs]

@[simp] theorem execWaitc_memoryOk {s : State} (hs : s.memoryOk = true) : outcomeOk (execWaitc s) = true := by
  unfold execWaitc
  refine runEngine_memoryOk hs fun s x hs => ?_
  repeat' split
  all_goals simp [hs]

@[simp] theorem execSigc_memoryOk {s : State} (hs : s.memoryOk = true) : outcomeOk (execSigc s) = true := by
  unfold execSigc
  refine runEngine_memoryOk hs fun s x hs => ?_
  split <;> simp [hs]

@[simp] theorem execTkpop_memoryOk {s : State} {queue : BitVec 4} (hs : s.memoryOk = true) : outcomeOk (execTkpop queue s) = true := by
  unfold execTkpop
  simp +contextual [hs]

@[simp] theorem execTkpsh_memoryOk {s : State} {queue : BitVec 4} (hs : s.memoryOk = true) : outcomeOk (execTkpsh queue s) = true := by
  unfold execTkpsh
  simp +contextual [hs]

@[simp] theorem execTktst_memoryOk {s : State} {queue : BitVec 4} (hs : s.memoryOk = true) : outcomeOk (execTktst queue s) = true := by
  unfold execTktst
  simp +contextual [hs]

@[simp] theorem generatorWord_memoryOk {s : State} {gen : BitVec 3} {n m : Nat} {bad : List Word → Bool}
    {f : AddrGen → List Word → AddrGen × List Word} (hs : s.memoryOk = true) : outcomeOk (generatorWord gen n m bad f s) = true := by
  unfold generatorWord
  simp +contextual [hs]

@[simp] theorem execAgset_memoryOk {s : State} {gen : BitVec 3} (hs : s.memoryOk = true) : outcomeOk (execAgset gen s) = true := by
  unfold execAgset
  simp [hs]

@[simp] theorem execAgstr_memoryOk {s : State} {gen : BitVec 3} (hs : s.memoryOk = true) : outcomeOk (execAgstr gen s) = true := by
  unfold execAgstr
  simp [hs]

@[simp] theorem execAgwrap_memoryOk {s : State} {gen : BitVec 3} (hs : s.memoryOk = true) : outcomeOk (execAgwrap gen s) = true := by
  unfold execAgwrap
  simp [hs]

@[simp] theorem execAgrd_memoryOk {s : State} {gen : BitVec 3} (hs : s.memoryOk = true) : outcomeOk (execAgrd gen s) = true := by
  unfold execAgrd
  simp [hs]

@[simp] theorem execEngineIllegalWord_memoryOk {s : State} (hs : s.memoryOk = true) :
    outcomeOk (execEngineIllegalWord s) = true := runEngine_memoryOk hs fun _ _ _ => rfl

/-! ## Machine/EngineLaunch -/

@[simp] theorem launchWord_memoryOk {s : State} {c : EngCode} {pop push : BitVec 4} (hs : s.memoryOk = true) :
    outcomeOk (launchWord c pop push s) = true := by
  unfold launchWord
  refine runEngine_memoryOk hs fun s x hs => ?_
  simp [hs]

@[simp] theorem execCpyin_memoryOk {s : State} {pop push : BitVec 4} (hs : s.memoryOk = true) :
    outcomeOk (execCpyin pop push s) = true := by
  unfold execCpyin
  simp [hs]

@[simp] theorem execCpyout_memoryOk {s : State} {pop push : BitVec 4} (hs : s.memoryOk = true) :
    outcomeOk (execCpyout pop push s) = true := by
  unfold execCpyout
  simp [hs]

@[simp] theorem execGath_memoryOk {s : State} {pop push : BitVec 4} (hs : s.memoryOk = true) : outcomeOk (execGath pop push s) = true := by
  unfold execGath
  simp [hs]

@[simp] theorem execScat_memoryOk {s : State} {pop push : BitVec 4} (hs : s.memoryOk = true) : outcomeOk (execScat pop push s) = true := by
  unfold execScat
  simp [hs]

@[simp] theorem execMdfil_memoryOk {s : State} {pop push : BitVec 4} (hs : s.memoryOk = true) :
    outcomeOk (execMdfil pop push s) = true := by
  unfold execMdfil
  simp [hs]

@[simp] theorem execWpre_memoryOk {s : State} {pop push : BitVec 4} (hs : s.memoryOk = true) : outcomeOk (execWpre pop push s) = true := by
  unfold execWpre
  simp [hs]

@[simp] theorem execWswp_memoryOk {s : State} {pop push : BitVec 4} (hs : s.memoryOk = true) : outcomeOk (execWswp pop push s) = true := by
  unfold execWswp
  simp [hs]

@[simp] theorem execStrm_memoryOk {s : State} {pop push : BitVec 4} (hs : s.memoryOk = true) : outcomeOk (execStrm pop push s) = true := by
  unfold execStrm
  simp [hs]

@[simp] theorem execStrms_memoryOk {s : State} {pop push : BitVec 4} (hs : s.memoryOk = true) :
    outcomeOk (execStrms pop push s) = true := by
  unfold execStrms
  simp [hs]

@[simp] theorem execDrn_memoryOk {s : State} {pop push : BitVec 4} (hs : s.memoryOk = true) : outcomeOk (execDrn pop push s) = true := by
  unfold execDrn
  simp [hs]

@[simp] theorem execDclr_memoryOk {s : State} {pop push : BitVec 4} (hs : s.memoryOk = true) : outcomeOk (execDclr pop push s) = true := by
  unfold execDclr
  simp [hs]

@[simp] theorem execKscl_memoryOk {s : State} {pop push : BitVec 4} (hs : s.memoryOk = true) : outcomeOk (execKscl pop push s) = true := by
  unfold execKscl
  simp [hs]

@[simp] theorem execKpack_memoryOk {s : State} {pop push : BitVec 4} (hs : s.memoryOk = true) :
    outcomeOk (execKpack pop push s) = true := by
  unfold execKpack
  simp [hs]

@[simp] theorem execKunpk_memoryOk {s : State} {pop push : BitVec 4} (hs : s.memoryOk = true) :
    outcomeOk (execKunpk pop push s) = true := by
  unfold execKunpk
  simp [hs]

/-! ## Machine/EngineCopy -/

@[simp] theorem State.modOp_memoryOk (s : State) (x : EngAt) (i : Nat) (f : EngOp → EngOp) : (s.modOp x i f).memoryOk = s.memoryOk := by rfl

@[simp] theorem State.startRow_memoryOk (s : State) (x : EngAt) (i : Nat) (o : EngOp) : (s.startRow x i o).memoryOk = s.memoryOk := by
  unfold State.startRow
  simp

@[simp] theorem State.engineRead_memoryOk {s : State} {x : EngAt} {hint : Nat} {a : Dword} {n : Nat} {y : XRes} (hs : s.memoryOk = true) :
    (s.engineRead x hint a n y).1.memoryOk = true := by
  unfold State.engineRead
  split
  · exact hs
  next y =>
    have h1 := State.countMigration_memoryOk (h := x.cluster.id.hub) (asn := x.team.asn) (va := a) (x := y)
      (State.touch_memoryOk (sp := engineSpace x) (va := a) (k := .read) (x := y) hs)
    dsimp only
    split <;> simp [h1]

@[simp] theorem State.engineWrite_memoryOk {s : State} {x : EngAt} {o : EngOp} {row : Nat} {a : Dword} {y : Xlat}
    {cells : List (Nat × Byte)} (hs : s.memoryOk = true) : (s.engineWrite x o row a y cells).memoryOk = true :=
  State.performEntry_memoryOk (State.evictLine_memoryOk (State.countMigration_memoryOk (State.touch_memoryOk hs)))

@[simp] theorem State.movePart_memoryOk {s : State} {x : EngAt} {o : EngOp} {r : RowAt} {q : Nat × Nat × XRes} (hs : s.memoryOk = true) :
    (s.movePart x o r q).memoryOk = true := by
  unfold State.movePart
  split <;> simp [hs]

@[simp] theorem moveParts_memoryOk {s : State} {x : EngAt} {o : EngOp} {r : RowAt} {qs : List (Nat × Nat × XRes)} {at_ : Nat}
    (hs : s.memoryOk = true) : (moveParts x o r qs at_ s).1.memoryOk = true := by
  induction qs generalizing s at_ with
  | nil => exact hs
  | cons q qs ih =>
    unfold moveParts
    split
    · exact hs
    · exact ih (State.movePart_memoryOk hs)

@[simp] theorem State.endRow_memoryOk (s : State) (x : EngAt) (i : Nat) (o : EngOp) (width reached : Nat) :
    (s.endRow x i o width reached).memoryOk = s.memoryOk := by
  unfold State.endRow
  simp

@[simp] theorem State.moveRow_memoryOk {s : State} {x : EngAt} {i : Nat} {o : EngOp} (hs : s.memoryOk = true) :
    (s.moveRow x i o).memoryOk = true := by
  unfold State.moveRow
  simp [hs]

@[simp] theorem State.opFault_memoryOk {s : State} {x : EngAt} {i : Nat} {cause : Byte} {row : Nat} {refusing : Byte}
    (hs : s.memoryOk = true) : (s.opFault x i cause row refusing).memoryOk = true := by
  unfold State.opFault
  dsimp only
  repeat' split
  all_goals simp [hs]

@[simp] theorem State.stopOp_memoryOk {s : State} {x : EngAt} {i : Nat} {o : EngOp} {off : Nat} {f : XFault} (hs : s.memoryOk = true) :
    (s.stopOp x i o off f).memoryOk = true := by
  unfold State.stopOp
  simp [hs]

@[simp] theorem State.writeRefused_memoryOk {s : State} {x : EngAt} {o : EngOp} (hs : s.memoryOk = true) :
    (s.writeRefused x o).memoryOk = true := by
  unfold State.writeRefused
  extract_lets +onlyGivenNames p c row
  have hrow : ∀ s n, s.memoryOk = true → (row s n).memoryOk = true := by
    intro s n hs
    simp only [row]
    split <;> split
    any_goals exact hs
    all_goals
      refine foldl_memoryOk _ (fun s q hs => ?_) _ hs
      split
      · split
        · exact hs
        · exact State.engineWrite_memoryOk hs
      · exact hs
  exact foldl_memoryOk _ (fun s n h => hrow s _ h) _ hs

@[simp] theorem State.refuseOp_memoryOk {s : State} {x : EngAt} {i : Nat} {o : EngOp} {row : Nat} {cause : Byte} (hs : s.memoryOk = true) :
    (s.refuseOp x i o row cause).memoryOk = true := by
  unfold State.refuseOp
  simp [hs]

/-! ## Machine/EngineOps -/

@[simp] theorem State.turnOp_memoryOk {s : State} {x : EngAt} {q : EngOp × Nat} (hs : s.memoryOk = true) :
    (s.turnOp x q).memoryOk = true := by
  unfold State.turnOp
  dsimp only
  repeat' split
  all_goals simp [hs]

@[simp] theorem execEngineOpStart_memoryOk {s : State} {team : Nat} {engine : EngineKind} (hs : s.memoryOk = true) :
    outcomeOk (execEngineOpStart team engine s) = true := by
  unfold execEngineOpStart
  repeat' split
  all_goals simp [hs]

@[simp] theorem execEngineOpFinish_memoryOk {s : State} {team : Nat} {engine : EngineKind} (hs : s.memoryOk = true) :
    outcomeOk (execEngineOpFinish team engine s) = true := by
  unfold execEngineOpFinish
  repeat' split
  all_goals simp [hs]

@[simp] theorem execEngineTranslationFault_memoryOk {s : State} {team : Nat} (hs : s.memoryOk = true) :
    outcomeOk (execEngineTranslationFault team s) = true := by
  unfold execEngineTranslationFault
  repeat' split
  all_goals simp [hs]

@[simp] theorem execEnginePoisonAtStore_memoryOk {s : State} {team : Nat} (hs : s.memoryOk = true) :
    outcomeOk (execEnginePoisonAtStore team s) = true := by
  unfold execEnginePoisonAtStore
  repeat' split
  all_goals simp [hs]

@[simp] theorem State.engineRefused_memoryOk {s : State} {team op row : Nat} {cause : Byte} (hs : s.memoryOk = true) :
    (s.engineRefused team op row cause).memoryOk = true := by
  unfold State.engineRefused
  repeat' split
  all_goals simp [hs]

@[simp] theorem execEngineWriteRefused_memoryOk {s : State} {team : Nat} {cause : Byte} (hs : s.memoryOk = true) :
    outcomeOk (execEngineWriteRefused team cause s) = true := by
  unfold execEngineWriteRefused
  repeat' split
  all_goals simp [hs]

@[simp] theorem State.settleArray_memoryOk {s : State} {tid : Nat} (hs : s.memoryOk = true) : (s.settleArray tid).memoryOk = true := by
  unfold State.settleArray
  dsimp only
  repeat' split
  all_goals simp [hs]

@[simp] theorem execEngineStop_memoryOk {s : State} {team : Nat} {engine : EngineKind} (hs : s.memoryOk = true) :
    outcomeOk (execEngineStop team engine s) = true := by
  unfold execEngineStop
  repeat' split
  all_goals simp [hs]

@[simp] theorem execEngineFaultReport_memoryOk {s : State} {team : Nat} (hs : s.memoryOk = true) :
    outcomeOk (execEngineFaultReport team s) = true := by
  unfold execEngineFaultReport
  split <;> simp [hs]

/-! ## Machine/CtrlReg -/

@[simp] theorem execMfcr_memoryOk {s : State} {w : MainWord} (hs : s.memoryOk = true) : outcomeOk (execMfcr w s) = true := by
  unfold execMfcr
  simp [hs]

@[simp] theorem State.disposeOp_memoryOk (s : State) (tid : Nat) (decl : Bool) : (s.disposeOp tid decl).memoryOk = s.memoryOk := by
  unfold State.disposeOp
  split <;> simp

@[simp] theorem State.disposeCopy_memoryOk (s : State) (tid id : Nat) (decl : Bool) :
    (s.disposeCopy tid id decl).memoryOk = s.memoryOk := by
  unfold State.disposeCopy
  split <;> simp

theorem State.completeRequest_memoryOk {s : State} {h : HubId} {tag : Half} {decl : Bool} (hs : s.memoryOk = true) {s1 : State}
    (hs1 : s.completeRequest h tag decl = some s1) : s1.memoryOk = true := by
  unfold State.completeRequest at hs1
  obtain ⟨r, -, rfl⟩ := Option.map_eq_some_iff.1 hs1
  cases r.source <;> simp [hs]

@[simp] theorem execPrqcResume_memoryOk {s : State} {hub : HubId} {tag : Half} (hs : s.memoryOk = true) :
    outcomeOk (execPrqcResume hub tag s) = true := by
  unfold execPrqcResume
  cases hc : s.completeRequest hub tag false with
  | none => exact hs
  | some s1 => exact State.completeRequest_memoryOk hs hc

@[simp] theorem execPrqcDecline_memoryOk {s : State} {hub : HubId} {tag : Half} (hs : s.memoryOk = true) :
    outcomeOk (execPrqcDecline hub tag s) = true := by
  unfold execPrqcDecline
  cases hc : s.completeRequest hub tag true with
  | none => exact hs
  | some s1 => exact State.completeRequest_memoryOk hs hc

@[simp] theorem writePrqc_memoryOk {s : State} {c : Ctx} {v : Dword} (hs : s.memoryOk = true) : (writePrqc s c v).memoryOk = true := by
  refine Sync.andThen_memoryOk (State.release_memoryOk hs) fun s1 h1 => ?_
  refine (State.modGroup_memoryOk _ _ _ _).trans ?_
  cases h : s1.completeRequest c.hub (v.extractLsb' 0 16) (v.getLsbD 16) with
  | none => exact h1
  | some s2 => exact State.completeRequest_memoryOk h1 h

@[simp] theorem execBankFormatWrite_memoryOk {s : State} {team : Nat} {high : Bool} {value : Dword} (hs : s.memoryOk = true) :
    outcomeOk (execBankFormatWrite team high value s) = true := by
  unfold execBankFormatWrite
  repeat' split
  all_goals simp [hs]

@[simp] theorem writeFormats_memoryOk {s : State} {c : Ctx} {w : MainWord} {high : Bool} {v : Dword} (hs : s.memoryOk = true) :
    (writeFormats s c w high v).memoryOk = true := by
  unfold writeFormats
  split <;> simp [hs]

@[simp] theorem State.endControl_memoryOk (s : State) (tid : Nat) : (s.endControl tid).memoryOk = s.memoryOk := by rfl

@[simp] theorem execCres_memoryOk {s : State} {team : Nat} (hs : s.memoryOk = true) : outcomeOk (execCres team s) = true := by
  unfold execCres
  repeat' split
  all_goals simp [hs]

@[simp] theorem writeCres_memoryOk {s : State} {c : Ctx} {w : MainWord} {v : Dword} (hs : s.memoryOk = true) :
    (writeCres s c w v).memoryOk = true := by
  unfold writeCres
  simp [hs]

@[simp] theorem State.writeCr_memoryOk {s : State} {c : Ctx} {w : MainWord} {n : Nat} {v : Dword} (hs : s.memoryOk = true) :
    (s.writeCr c w n v).memoryOk = true := by
  unfold State.writeCr
  split <;> simp [hs]

@[simp] theorem execMtcr_memoryOk {s : State} {w : MainWord} (hs : s.memoryOk = true) : outcomeOk (execMtcr w s) = true := by
  unfold execMtcr
  simp +contextual [hs]

@[simp] theorem execRegisterWrite_memoryOk {s : State} {hub : HubId} {offset : Nat} {value : Dword} (hs : s.memoryOk = true) :
    outcomeOk (execRegisterWrite hub offset value s) = true := by
  unfold execRegisterWrite
  simp [hs]

/-! ## Machine/Launch -/

@[simp] theorem State.offerPacket_memoryOk (s : State) (h : HubId) (q : Nat) (sp : Space) (raw : Option (List Byte)) :
    (s.offerPacket h q sp raw).1.memoryOk = s.memoryOk := by
  unfold State.offerPacket
  dsimp only
  repeat' split
  all_goals simp

@[simp] theorem State.readPacket_memoryOk {s : State} {c : Ctx} {a : Dword} (hs : s.memoryOk = true) :
    (s.readPacket c a).1.memoryOk = true := by
  unfold State.readPacket
  repeat' split
  all_goals simp [hs]

@[simp] theorem execLnch_memoryOk {s : State} {w : MainWord} (hs : s.memoryOk = true) : outcomeOk (execLnch w s) = true := by
  unfold execLnch
  refine runMain_memoryOk hs fun s c hs => ?_
  dsimp only
  repeat' split
  all_goals simp +contextual [hs]

@[simp] theorem State.ringDoorbell_memoryOk (s : State) (hub : HubId) (queue : Nat) : (s.ringDoorbell hub queue).memoryOk = s.memoryOk := by
  unfold State.ringDoorbell
  simp

@[simp] theorem execDoorbell_memoryOk {s : State} {hub : HubId} {queue : Nat} (hs : s.memoryOk = true) :
    outcomeOk (execDoorbell hub queue s) = true := by
  unfold execDoorbell
  simp [hs]

@[simp] theorem engsRun_memoryOk {s : State} {g : Sig} {w : MainWord} {body : State → Ctx → EngAt → EngArgs → Res} (hs : s.memoryOk = true)
    (hbody : ∀ s c x a, s.memoryOk = true → (body s c x a).memoryOk = true) : outcomeOk (engsRun s g w body) = true := by
  unfold engsRun
  refine runMain_memoryOk hs fun s c hs => ?_
  dsimp only
  split
  · exact hs
  · split
    · exact hs
    · exact hbody _ _ _ _ hs

@[simp] theorem engsAnswer_memoryOk {s : State} {c : Ctx} {w : MainWord} {v : Nat} {poison : Bool} (hs : s.memoryOk = true) :
    (engsAnswer s c w v poison).memoryOk = true := by
  unfold engsAnswer
  simp [hs]

@[simp] theorem execEngsGo_memoryOk {s : State} {w : MainWord} (hs : s.memoryOk = true) : outcomeOk (execEngsGo w s) = true := by
  unfold execEngsGo
  refine engsRun_memoryOk hs fun s c x a hs => ?_
  split <;> simp [hs]

@[simp] theorem execEngsSt_memoryOk {s : State} {w : MainWord} (hs : s.memoryOk = true) : outcomeOk (execEngsSt w s) = true := by
  unfold execEngsSt
  simp +contextual [hs]

@[simp] theorem execEngsCmd_memoryOk {s : State} {w : MainWord} (hs : s.memoryOk = true) : outcomeOk (execEngsCmd w s) = true := by
  unfold execEngsCmd
  refine engsRun_memoryOk hs fun s c x a hs => ?_
  simp [hs]

@[simp] theorem execEngsSig_memoryOk {s : State} {w : MainWord} (hs : s.memoryOk = true) : outcomeOk (execEngsSig w s) = true := by
  unfold execEngsSig
  refine engsRun_memoryOk hs fun s c x a hs => ?_
  split <;> simp [hs]

@[simp] theorem State.dropEngineRequest_memoryOk (s : State) (tid : Nat) : (s.dropEngineRequest tid).memoryOk = s.memoryOk := by rfl

@[simp] theorem execEngr_memoryOk {s : State} {w : MainWord} (hs : s.memoryOk = true) : outcomeOk (execEngr w s) = true := by
  unfold execEngr
  refine runMain_memoryOk hs fun s c hs => ?_
  dsimp only
  repeat' split
  all_goals simp +contextual [hs]

/-! ## Machine/Mail -/

theorem State.giveName_memoryOk {s : State} {tid gid : Nat} (hs : s.memoryOk = true) {r : State × Dword} (hr : s.giveName tid gid = some r) :
    r.1.memoryOk = true := by
  unfold State.giveName at hr
  split at hr
  · split at hr
    · cases hr
      exact hs
    · cases hr
    · cases hr
      simp [hs]
  · cases hr

@[simp] theorem execName_memoryOk {s : State} {w : MainWord} (hs : s.memoryOk = true) : outcomeOk (execName w s) = true := by
  unfold execName
  refine runMain_memoryOk hs fun s c hs => ?_
  have hown : ((s.giveName c.tid c.gid).getD (s, 0)).1.memoryOk = true := by
    cases h : s.giveName c.tid c.gid with
    | none => exact hs
    | some r => exact State.giveName_memoryOk hs h
  split
  · exact hs
  · split
    · rfl
    · refine (State.modGroup_memoryOk _ _ _ _).trans ?_
      split
      · split
        · exact hown
        · split
          next leader _ s1 n h => exact (State.modGroup_memoryOk _ _ _ _).trans (State.giveName_memoryOk hs h)
          · exact hown
      · exact hown

@[simp] theorem State.logMail_memoryOk {s : State} {t : Team} {g : Group} {m : Mail} (hs : s.memoryOk = true) :
    (s.logMail t g m).memoryOk = true := by
  unfold State.logMail
  simp [hs]

@[simp] theorem State.deliverMail_memoryOk {s : State} {m : Mail} {t : Team} {g : Group} (hs : s.memoryOk = true) :
    (s.deliverMail m t g).1.memoryOk = true := by
  unfold State.deliverMail
  repeat' split
  all_goals simp [hs]

theorem State.hubWrite_memoryOk {s : State} {sp : Space} {va : Dword} {bytes : List Byte} (hs : s.memoryOk = true) {s1 : State}
    (hs1 : s.hubWrite sp va bytes = some s1) : s1.memoryOk = true :=
  foldl_bind_memoryOk id _ (fun b p c hb hc => by
    dsimp only at hc
    split at hc
    · cases hc
    · split at hc <;> cases hc
      exact State.hubStore_memoryOk hb) _ (fun b hb => by cases hb; exact hs) hs1

@[simp] theorem State.deliverSaved_memoryOk {s : State} {m : Mail} {t : Team} {g : Group} (hs : s.memoryOk = true) :
    (s.deliverSaved m t g).1.memoryOk = true := by
  unfold State.deliverSaved
  dsimp only
  split
  · exact hs
  · split
    · exact hs
    · split
      · exact hs
      next s2 h =>
        obtain ⟨s1, h1, h2⟩ := Option.bind_eq_some_iff.1 h
        exact State.logMail_memoryOk ((State.modGroup_memoryOk _ _ _ _).trans (State.hubWrite_memoryOk (State.hubWrite_memoryOk hs h1) h2))

@[simp] theorem State.direct_memoryOk {s : State} {m : Mail} {forwarded : Bool} (hs : s.memoryOk = true) :
    (s.direct m forwarded).memoryOk = true := by
  unfold State.direct
  dsimp only
  repeat' split
  all_goals simp [hs]

@[simp] theorem State.modMail_memoryOk (s : State) (id : Nat) (f : Mail → Mail) : (s.modMail id f).memoryOk = s.memoryOk := by rfl

@[simp] theorem State.mailErrors_memoryOk (s : State) (lost : Mail → Bool) : (s.mailErrors lost).memoryOk = s.memoryOk := by
  unfold State.mailErrors
  simp

@[simp] theorem State.directed_memoryOk {s : State} {m : Mail} {again : Instr} {d : Directed} (hs : s.memoryOk = true)
    (hd : d.memoryOk = true) : (s.directed m again d).memoryOk = true := by
  cases d with
  | answer s1 reason => exact (State.due_memoryOk _ _).trans ((State.modMail_memoryOk _ _ _).trans hd)
  | forward s1 => exact (State.due_memoryOk _ _).trans ((State.modMail_memoryOk _ _ _).trans hd)
  | wait => exact (State.due_memoryOk _ _).trans hs

@[simp] theorem execMailArrival_memoryOk {s : State} {mail : Nat} (hs : s.memoryOk = true) : outcomeOk (execMailArrival mail s) = true := by
  unfold execMailArrival
  repeat' split
  all_goals simp [hs]

@[simp] theorem execMailForward_memoryOk {s : State} {mail : Nat} (hs : s.memoryOk = true) : outcomeOk (execMailForward mail s) = true := by
  unfold execMailForward
  repeat' split
  all_goals simp [hs]

@[simp] theorem State.refuseMail_memoryOk (s : State) (m : Mail) (reason : Nat) : (s.refuseMail m reason).memoryOk = s.memoryOk := by
  unfold State.refuseMail
  split <;> simp

@[simp] theorem execMailAck_memoryOk {s : State} {mail : Nat} (hs : s.memoryOk = true) : outcomeOk (execMailAck mail s) = true := by
  unfold execMailAck
  repeat' split
  all_goals simp [hs]

@[simp] theorem execMailUndeliverable_memoryOk {s : State} {team gid : Nat} (hs : s.memoryOk = true) :
    outcomeOk (execMailUndeliverable team gid s) = true := by
  unfold execMailUndeliverable
  simp [hs]

@[simp] theorem execHoldArm_memoryOk {s : State} {w : MainWord} (hs : s.memoryOk = true) : outcomeOk (execHoldArm w s) = true := by
  unfold execHoldArm
  refine runMain_memoryOk hs fun s c hs => ?_
  dsimp only
  repeat' split
  all_goals simp [hs]

@[simp] theorem execHoldOff_memoryOk {s : State} {w : MainWord} (hs : s.memoryOk = true) : outcomeOk (execHoldOff w s) = true := by
  unfold execHoldOff
  refine runMain_memoryOk hs fun s c hs => ?_
  dsimp only
  repeat' split
  all_goals simp [hs]

@[simp] theorem State.sendMail_memoryOk {s : State} {c : Ctx} {name : Dword} {reg : Nat} {key : Half} {words : List Word} {scope : Nat}
    (hs : s.memoryOk = true) : (s.sendMail c name reg key words scope).memoryOk = true := by
  unfold State.sendMail
  simp [hs]

@[simp] theorem execRstv_memoryOk {s : State} {w : MainWord} (hs : s.memoryOk = true) : outcomeOk (execRstv w s) = true := by
  unfold execRstv
  refine runMain_memoryOk hs fun s c hs => ?_
  simp +contextual [hs]

/-! ## Machine/Waits -/

@[simp] theorem State.finishWait_memoryOk (s : State) (tid gid : Nat) (w : EntryWait) : (s.finishWait tid gid w).memoryOk = s.memoryOk := by
  unfold State.finishWait
  simp

@[simp] theorem State.completeWait_memoryOk {s : State} {t : Team} {g : Group} {u : CoreUnit} {w : EntryWait} (hs : s.memoryOk = true) :
    (s.completeWait t g u w).memoryOk = true := by
  unfold State.completeWait
  split
  · split <;> simp [hs]
  next scope _ _ =>
    dsimp only
    split
    next s1 h =>
      have h1 := fst_memoryOk_of_eq (State.settleStores_memoryOk hs) h
      split
      next s2 f h2 =>
        have h3 := State.reportFailures_memoryOk (c := ctxFor t g u w.entry zeroWord) (stores := true) h1
        rw [h2] at h3
        exact State.meetTrap_memoryOk h3
      · simp [h1]
    next s1 _ h => exact fst_memoryOk_of_eq (State.settleStores_memoryOk hs) h
  · split <;> simp [hs]
  · split <;> simp [hs]
  · exact hs

@[simp] theorem State.wakeWait_memoryOk {s : State} {tid gid : Nat} {w : EntryWait} (hs : s.memoryOk = true) :
    (s.wakeWait tid gid w).memoryOk = true := by
  unfold State.wakeWait
  split
  · exact hs
  · split
    · exact hs
    · split
      · exact hs
      · extract_lets again
        have hagain : ∀ k, (again k).memoryOk = true := fun k => (State.modGroup_memoryOk _ _ _ _).trans hs
        split
        · exact hs
        · generalize w.kind = kind
          cases kind with
          | barrier _ _ | fence _ _ | closing _ | reorder _ => exact State.completeWait_memoryOk hs
          | memoryWord _ _ _ | rereading _ | completing _ | retrying => exact hs
          | completes _ | copies | transaction | bankFormat | twin => exact hagain _
          | remote start asked =>
            cases asked with
            | true => exact hs
            | false =>
              refine (State.memoryOk_ite _ _ _).trans ?_
              split
              · exact hs
              · exact hagain _
          | _ =>
            refine (State.memoryOk_ite _ _ _).trans ?_
            split
            · exact (State.modGroup_memoryOk _ _ _ _).trans hs
            · exact hs

@[simp] theorem execEntryWake_memoryOk {s : State} {team gid : Nat} (hs : s.memoryOk = true) :
    outcomeOk (execEntryWake team gid s) = true := by
  unfold execEntryWake
  split <;> simp +contextual [hs]

@[simp] theorem execWaiteRecheck_memoryOk {s : State} {team gid : Nat} (hs : s.memoryOk = true) :
    outcomeOk (execWaiteRecheck team gid s) = true := by
  unfold execWaiteRecheck
  simp [hs]

@[simp] theorem execReservationExpiry_memoryOk {s : State} {hub : HubId} {index : Nat} (hs : s.memoryOk = true) :
    outcomeOk (execReservationExpiry hub index s) = true := by
  unfold execReservationExpiry
  repeat' split
  all_goals simp [hs]

@[simp] theorem execStoreCombiningDrain_memoryOk {s : State} {core : CoreId} {index : Nat} (hs : s.memoryOk = true) :
    outcomeOk (execStoreCombiningDrain core index s) = true := by
  unfold execStoreCombiningDrain
  dsimp only
  repeat' split
  all_goals simp [hs]

@[simp] theorem execCodeLineFill_memoryOk {s : State} {unit : CoreUnit} {asn : Half} {va : Dword} (hs : s.memoryOk = true) :
    outcomeOk (execCodeLineFill unit asn va s) = true := by
  unfold execCodeLineFill
  split
  · exact hs
  · split
    · exact hs
    · split
      · exact hs
      · exact State.closeEvent_memoryOk hs (State.fillLine_memoryOk (State.touch_memoryOk hs))

@[simp] theorem execBranchIntoLiteral_memoryOk {s : State} (hs : s.memoryOk = true) : outcomeOk (execBranchIntoLiteral s) = true := by
  unfold execBranchIntoLiteral
  dsimp only
  repeat' split
  all_goals simp [hs]

/-! ## Machine/Harvest -/

@[simp] theorem State.harvestLimit_memoryOk (s : State) (t : Team) (a : Dword) : (s.harvestLimit t a).memoryOk = s.memoryOk := by
  unfold State.harvestLimit
  simp

@[simp] theorem execHarvOn_memoryOk {s : State} {w : MainWord} (hs : s.memoryOk = true) : outcomeOk (execHarvOn w s) = true := by
  unfold execHarvOn
  refine runMain_memoryOk hs fun s c hs => ?_
  repeat' split
  all_goals simp [hs]

@[simp] theorem execHarvOff_memoryOk {s : State} {w : MainWord} (hs : s.memoryOk = true) : outcomeOk (execHarvOff w s) = true := by
  unfold execHarvOff
  refine runMain_memoryOk hs fun s c hs => ?_
  repeat' split
  all_goals simp [hs]

@[simp] theorem hchk_memoryOk {s : State} {w : MainWord} {m : BitVec 4} {value : Group → Dword} {after : Group → Group}
    (hs : s.memoryOk = true) : outcomeOk (hchk s w m value after) = true := by
  unfold hchk
  simp [hs]

@[simp] theorem execHchkLost_memoryOk {s : State} {w : MainWord} (hs : s.memoryOk = true) : outcomeOk (execHchkLost w s) = true := by
  unfold execHchkLost
  simp [hs]

@[simp] theorem execHchkLostc_memoryOk {s : State} {w : MainWord} (hs : s.memoryOk = true) : outcomeOk (execHchkLostc w s) = true := by
  unfold execHchkLostc
  simp [hs]

@[simp] theorem execHchkRevs_memoryOk {s : State} {w : MainWord} (hs : s.memoryOk = true) : outcomeOk (execHchkRevs w s) = true := by
  unfold execHchkRevs
  simp [hs]

@[simp] theorem State.finishOut_memoryOk {s : State} {tid : Nat} (hs : s.memoryOk = true) : (s.finishOut tid).memoryOk = true := by
  unfold State.finishOut
  split
  · exact hs
  · refine foldl_memoryOk _ (fun s c hs => foldl_memoryOk _ (fun s p hs => ?_) _ hs) _ hs
    split
    · exact hs
    · split
      · exact State.writePiece_memoryOk hs
      · exact hs

@[simp] theorem execHarvestRevoke_memoryOk {s : State} {team gid : Nat} (hs : s.memoryOk = true) :
    outcomeOk (execHarvestRevoke team gid s) = true := by
  unfold execHarvestRevoke
  simp [hs]

/-! ## Machine/Slots -/

@[simp] theorem State.finalCommit_memoryOk {s : State} {t : Team} (hs : s.memoryOk = true) : (s.finalCommit t).memoryOk = true := by
  unfold State.finalCommit
  simp [hs]

@[simp] theorem State.settleTeam_memoryOk {s : State} {tid : Nat} (hs : s.memoryOk = true) : (s.settleTeam tid).memoryOk = true := by
  unfold State.settleTeam
  repeat' split
  all_goals simp [hs]

@[simp] theorem execGroupSlotFree_memoryOk {s : State} {team gid : Nat} (hs : s.memoryOk = true) :
    outcomeOk (execGroupSlotFree team gid s) = true := by
  unfold execGroupSlotFree
  repeat' split
  all_goals simp [hs]

@[simp] theorem execCompletionRecordFault_memoryOk {s : State} {hub : HubId} {va : Dword} {cause status : Byte} (hs : s.memoryOk = true) :
    outcomeOk (execCompletionRecordFault hub va cause status s) = true := by
  unfold execCompletionRecordFault
  simp [hs]

@[simp] theorem execRollbackComplete_memoryOk {s : State} {team : Nat} (hs : s.memoryOk = true) :
    outcomeOk (execRollbackComplete team s) = true := by
  unfold execRollbackComplete
  simp [hs]

/-! ## Machine/Bundle -/

theorem State.hubReadAll_memoryOk {s : State} {sp : Space} {va : Dword} {n : Nat} (hs : s.memoryOk = true) {r : State × HubBytes}
    (hr : s.hubReadAll sp va n = some r) : r.1.memoryOk = true :=
  foldl_bind_memoryOk Prod.fst _ (fun b p c hb hc => by
    dsimp only at hc
    split at hc
    · cases hc
    · split at hc
      · cases hc
      · split at hc <;> cases hc
        exact State.hubFetch_memoryOk hb) _ (fun b hb => by cases hb; exact hs) hr

theorem State.hubReadClean_memoryOk {s : State} {sp : Space} {va : Dword} {n : Nat} (hs : s.memoryOk = true) {r : State × List Byte}
    (hr : s.hubReadClean sp va n = some r) : r.1.memoryOk = true := by
  obtain ⟨a, ha, hr⟩ := Option.bind_eq_some_iff.1 hr
  split at hr <;> cases hr
  exact State.hubReadAll_memoryOk hs ha

@[simp] theorem State.readImages_memoryOk {s : State} {sp : Space} {base : Dword} {cls : Nat} {d : List Byte} {records : List DirRecord}
    (hs : s.memoryOk = true) : (s.readImages sp base cls d records).memoryOk = true := by
  unfold State.readImages
  extract_lets +onlyGivenNames get consts engines
  have hget : ∀ (b : State × List HubBytes) (x : Nat × Nat) c, b.1.memoryOk = true →
      (if x.2 = 0 then some (b.1, b.2 ++ [{ bytes := [], bad := [] }])
        else (b.1.hubReadAll sp (base + BitVec.ofNat 64 x.1) x.2).map (fun r => (r.1, b.2 ++ [r.2]))) = some c → c.1.memoryOk = true := by
    intro b x c hb hc
    split at hc
    · cases hc
      exact hb
    · obtain ⟨r, hr, rfl⟩ := Option.map_eq_some_iff.1 hc
      exact State.hubReadAll_memoryOk hb hr
  split
  · exact hs
  next s1 cs h =>
    have h1 : s1.memoryOk = true := foldl_bind_memoryOk Prod.fst _ hget _ (fun b hb => by cases hb; exact hs) h
    split
    · exact h1
    next s2 es h =>
      have h2 : s2.memoryOk = true := foldl_bind_memoryOk Prod.fst _ hget _ (fun b hb => by cases hb; exact h1) h
      split <;> exact h2

@[simp] theorem State.readBundle_memoryOk {s : State} {sp : Space} {p : Packet} (hs : s.memoryOk = true) :
    (s.readBundle sp p).memoryOk = true := by
  unfold State.readBundle
  extract_lets code base cls
  split
  · exact hs
  next s1 hd h =>
    have h1 : s1.memoryOk = true := State.hubReadClean_memoryOk hs h
    split
    · exact h1
    · split
      · exact h1
      · split
        · exact h1
        next s2 d h =>
          have h2 : s2.memoryOk = true := State.hubReadClean_memoryOk h1 h
          extract_lets named r
          have hr : r.1.memoryOk = true := by
            refine foldl_fst_memoryOk _ (fun acc x hacc => ?_) _ h2
            split
            · exact hacc
            next s3 bs h => exact State.hubReadClean_memoryOk hacc h
          split
          · exact hr
          · split
            · exact hr
            · exact State.readImages_memoryOk hr

@[simp] theorem State.readMap_memoryOk {s : State} {sp : Space} {h : HubId} {p : Packet} {d : KernelDesc} (hs : s.memoryOk = true) :
    (s.readMap sp h p d).1.memoryOk = true := by
  unfold State.readMap
  extract_lets need holds
  have hholds : ∀ s mapped m, s.memoryOk = true → (holds s mapped m).1.memoryOk = true := fun _ _ _ h => h
  split
  · exact hholds _ _ _ hs
  · split
    · exact hs
    · split
      · exact hs
      next s1 hd h =>
        have h1 : s1.memoryOk = true := State.hubReadClean_memoryOk hs h
        extract_lets n
        split
        · exact h1
        · split
          · exact h1
          next s2 bs h =>
            have h2 : s2.memoryOk = true := State.hubReadClean_memoryOk h1 h
            split
            · exact h2
            · exact hholds _ _ _ h2

@[simp] theorem State.launchError_memoryOk {s : State} {h : HubId} {q seq reason : Nat} (hs : s.memoryOk = true) :
    (s.launchError h q seq reason).memoryOk = true := by
  unfold State.launchError
  simp [hs]

@[simp] theorem State.passPacket_memoryOk (s : State) (h : HubId) (q : Nat) (p : Packet) (d : KernelDesc) (m : PlacementMap) :
    (s.passPacket h q p d m).memoryOk = s.memoryOk := by
  unfold State.passPacket
  simp

@[simp] theorem execBundleValidation_memoryOk {s : State} {hub : HubId} {queue : Nat} (hs : s.memoryOk = true) :
    outcomeOk (execBundleValidation hub queue s) = true := by
  unfold execBundleValidation
  dsimp only
  split
  · exact hs
  next p _ =>
    split
    · exact hs
    · refine State.closeEvent_memoryOk hs ?_
      have hread := State.readBundle_memoryOk (sp := queueSpace hub ((s.hub hub).queue queue)) (p := p) hs
      generalize s.readBundle (queueSpace hub ((s.hub hub).queue queue)) p = v at hread ⊢
      cases v with
      | bad s1 reason => exact State.launchError_memoryOk hread
      | good s1 d vsize =>
        dsimp only
        split
        · exact State.launchError_memoryOk hread
        · split
          next s2 h => exact State.launchError_memoryOk (fst_memoryOk_of_eq (State.readMap_memoryOk hread) h)
          next s2 m h => exact (State.passPacket_memoryOk _ _ _ _ _ _).trans (fst_memoryOk_of_eq (State.readMap_memoryOk hread) h)

@[simp] theorem State.hubAsks_memoryOk {s : State} {h : HubId} {line : Nat} (hs : s.memoryOk = true) :
    (s.hubAsks h line).1.memoryOk = true := by
  unfold State.hubAsks
  simp [hs]

@[simp] theorem State.hubAcquire_memoryOk (s : State) (h : HubId) (line : Nat) : (s.hubAcquire h line).memoryOk = s.memoryOk := by
  unfold State.hubAcquire
  simp

@[simp] theorem execDependenceSignalRead_memoryOk {s : State} {hub : HubId} {queue signal : Nat} (hs : s.memoryOk = true) :
    outcomeOk (execDependenceSignalRead hub queue signal s) = true := by
  unfold execDependenceSignalRead
  dsimp only
  split
  · exact hs
  next p _ =>
    split
    · exact hs
    · split
      · exact State.launchError_memoryOk hs
      next x hx =>
        split
        · exact State.launchError_memoryOk hs
        · have h1 := State.hubAsks_memoryOk (h := hub) (line := lineOfKey x.key) hs
          split
          · exact h1
          · refine State.closeEvent_memoryOk hs ?_
            have h2 := State.hubFetch_memoryOk (sp := queueSpace hub ((s.hub hub).queue queue)) (va := p.signalAddress signal) (n := 8) (x := x) h1
            split
            · exact State.launchError_memoryOk ((State.hubAcquire_memoryOk _ _ _).trans h2)
            · split <;> simp [h2]

/-! ## Machine/Placement -/

@[simp] theorem State.emitAll_memoryOk (s : State) (h : HubId) : (s.emitAll h).memoryOk = s.memoryOk := by
  unfold State.emitAll
  simp

@[simp] theorem State.returnIteration_memoryOk (s : State) (t : Team) : (s.returnIteration t).memoryOk = s.memoryOk := by
  unfold State.returnIteration
  simp

@[simp] theorem State.returnOne_memoryOk (s : State) (t : Team) : (s.returnOne t).memoryOk = s.memoryOk := by
  unfold State.returnOne
  split <;> simp

@[simp] theorem State.returnPlacement_memoryOk (s : State) (tid : Nat) : (s.returnPlacement tid).memoryOk = s.memoryOk := by
  unfold State.returnPlacement
  repeat' split
  all_goals simp

@[simp] theorem State.yieldHarvest_memoryOk (s : State) (us : List CoreUnit) : (s.yieldHarvest us).memoryOk = s.memoryOk := by
  unfold State.yieldHarvest
  simp

theorem State.placeIteration_memoryOk {s : State} {h k : HubId} {q : Queue} {p : Packet} {d : KernelDesc} {m : PlacementMap}
    {claimed : List CoreUnit} {ix : List Nat} (hs : s.memoryOk = true) {s1 : State}
    (hs1 : s.placeIteration h k q p d m claimed ix = some s1) : s1.memoryOk = true := by
  unfold State.placeIteration at hs1
  extract_lets teams at hs1
  split at hs1
  · cases hs1
  · obtain ⟨cs, -, rfl⟩ := Option.map_eq_some_iff.1 hs1
    simp [hs]

theorem State.placeTeam_memoryOk {s : State} {h : HubId} {t : Team} {claimed : List CoreUnit} (hs : s.memoryOk = true) {s1 : State}
    (hs1 : s.placeTeam h t claimed = some s1) : s1.memoryOk = true := by
  obtain ⟨cs, -, rfl⟩ := Option.map_eq_some_iff.1 hs1
  simp [hs]

@[simp] theorem State.requestPreemption_memoryOk (s : State) (tid : Nat) : (s.requestPreemption tid).memoryOk = s.memoryOk := by
  unfold State.requestPreemption
  split <;> simp

@[simp] theorem State.evict_memoryOk (s : State) (tid : Nat) : (s.evict tid).memoryOk = s.memoryOk := by
  unfold State.evict
  repeat' split
  all_goals simp

@[simp] theorem State.clearHarvest_memoryOk (s : State) (u : CoreUnit) : (s.clearHarvest u).memoryOk = s.memoryOk := by
  unfold State.clearHarvest
  split <;> simp

@[simp] theorem State.makeWay_memoryOk (s : State) (rank : Nat) (w : Wanted) (claimed : List CoreUnit) :
    (s.makeWay rank w claimed).1.memoryOk = s.memoryOk := by
  unfold State.makeWay
  dsimp only
  repeat' split
  all_goals simp

@[simp] theorem State.press_memoryOk (s : State) (q : Queue) (w : Wanted) (claimed : List CoreUnit) :
    (s.press q w claimed).1.memoryOk = s.memoryOk := by
  unfold State.press
  repeat' split
  all_goals simp

@[simp] theorem State.leftSaved_memoryOk (s : State) (h : HubId) (t : Team) : (s.leftSaved h t).memoryOk = s.memoryOk := by
  unfold State.leftSaved
  simp

@[simp] theorem State.considerPacket_memoryOk {s : State} {h k : HubId} {q : Queue} {p : Packet} {claimed : List CoreUnit}
    (hs : s.memoryOk = true) : (s.considerPacket h k q p claimed).1.memoryOk = true := by
  unfold State.considerPacket
  split
  · split
    · exact hs
    next ix rest _ =>
      split
      next s1 h => exact State.placeIteration_memoryOk hs h
      · extract_lets r
        have hr : r.1.memoryOk = true := by
          simp only [r]
          split
          · exact hs
          · exact (State.press_memoryOk _ _ _ _).trans hs
        split
        next s1 h =>
          obtain ⟨ix, -, h⟩ := List.exists_of_findSome?_eq_some h
          exact State.placeIteration_memoryOk hr h
        · exact hr
  · exact hs

@[simp] theorem State.considerTeam_memoryOk {s : State} {h : HubId} {t : Team} {claimed : List CoreUnit} (hs : s.memoryOk = true) :
    (s.considerTeam h t claimed).1.memoryOk = true := by
  unfold State.considerTeam
  split
  next s1 h => exact State.placeTeam_memoryOk hs h
  · dsimp only
    split
    · exact hs
    · exact foldl_memoryOk _ (fun s u h => (State.clearHarvest_memoryOk s u).trans h) _ hs
    · split <;> simp [hs]

@[simp] theorem State.consider_memoryOk {s : State} {h : HubId} {claimed : List CoreUnit} {c : Candidate} (hs : s.memoryOk = true) :
    (s.consider h claimed c).1.memoryOk = true := by
  unfold State.consider
  dsimp only
  repeat' split
  all_goals simp [hs]

@[simp] theorem execPlacementConsideration_memoryOk {s : State} {hub : HubId} (hs : s.memoryOk = true) :
    outcomeOk (execPlacementConsideration hub s) = true := by
  unfold execPlacementConsideration
  simp +contextual [hs]

@[simp] theorem State.commitPlacement_memoryOk (s : State) (tid : Nat) : (s.commitPlacement tid).memoryOk = s.memoryOk := by
  unfold State.commitPlacement
  split <;> simp

@[simp] theorem State.acknowledge_memoryOk (s : State) (tid : Nat) : (s.acknowledge tid).memoryOk = s.memoryOk := by
  unfold State.acknowledge
  repeat' split
  all_goals simp

@[simp] theorem execCoreReservation_memoryOk {s : State} {team : Nat} (hs : s.memoryOk = true) :
    outcomeOk (execCoreReservation team s) = true := by
  unfold execCoreReservation
  dsimp only
  repeat' split
  all_goals simp [hs]

@[simp] theorem State.unpark_memoryOk (s : State) (t : Team) : (s.unpark t).memoryOk = s.memoryOk := by rfl

@[simp] theorem State.raiseFor_memoryOk (s : State) (t : Team) (clock : Dword) : (s.raiseFor t clock).memoryOk = s.memoryOk := by
  unfold State.raiseFor
  simp

@[simp] theorem State.acquireLaunch_memoryOk (s : State) (t : Team) : (s.acquireLaunch t).memoryOk = s.memoryOk := by
  unfold State.acquireLaunch
  simp

@[simp] theorem State.freshPaths_memoryOk (s : State) (t : Team) : (s.freshPaths t).memoryOk = s.memoryOk := by rfl

@[simp] theorem State.startTeam_memoryOk (s : State) (t : Team) : (s.startTeam t).memoryOk = s.memoryOk := by
  unfold State.startTeam
  simp

@[simp] theorem execRangeClearDone_memoryOk {s : State} {team : Nat} (hs : s.memoryOk = true) :
    outcomeOk (execRangeClearDone team s) = true := by
  unfold execRangeClearDone
  repeat' split
  all_goals simp [hs]

@[simp] theorem execWithdrawal_memoryOk {s : State} {team : Nat} (hs : s.memoryOk = true) : outcomeOk (execWithdrawal team s) = true := by
  unfold execWithdrawal
  repeat' split
  all_goals simp [hs]

/-! ## Machine/SaveArea -/

theorem State.writeBlobs_memoryOk {s : State} {sp : Space} {base : Dword} {bs : List Blob} (hs : s.memoryOk = true) {s1 : State}
    (hs1 : s.writeBlobs sp base bs = .ok s1) : s1.memoryOk = true :=
  foldl_except_bind_memoryOk id _ (fun b p c hb hc =>
    foldl_except_bind_memoryOk id _ (fun b q c hb hc => by
      dsimp only at hc
      split at hc
      · cases hc
      · split at hc <;> cases hc
        exact State.hubStore_memoryOk hb) _ (fun b' hb' => by cases hb'; exact hb) hc) _ (fun b hb => by cases hb; exact hs) hs1

theorem State.readBlob_memoryOk {s : State} {sp : Space} {va : Dword} {n : Nat} (hs : s.memoryOk = true) {r : State × List Byte}
    (hr : s.readBlob sp va n = .ok r) : r.1.memoryOk = true :=
  foldl_except_bind_memoryOk Prod.fst _ (fun b p c hb hc => by
    dsimp only at hc
    split at hc
    · cases hc
    · split at hc
      · cases hc
      · split at hc <;> cases hc
        exact State.hubFetch_memoryOk hb) _ (fun b hb => by cases hb; exact hs) hr

theorem State.readArrivals_memoryOk {s : State} {sp : Space} {t : Team} (hs : s.memoryOk = true) {r : State × Team}
    (hr : s.readArrivals sp t = .ok r) : r.1.memoryOk = true :=
  foldl_except_bind_memoryOk Prod.fst _ (fun b g c hb hc => by
    obtain ⟨r, hr, rfl⟩ := except_map_eq_ok hc
    exact State.readBlob_memoryOk hb hr) _ (fun b hb => by cases hb; exact hs) hr

theorem State.readScratches_memoryOk {s : State} {sp : Space} {t : Team} (hs : s.memoryOk = true) {r : State × Team}
    (hr : s.readScratches sp t = .ok r) : r.1.memoryOk = true := by
  unfold State.readScratches at hr
  split at hr
  · cases hr; exact hs
  · refine foldl_except_bind_memoryOk Prod.fst _ (fun b g c hb hc => ?_) _ (fun b hb => by cases hb; exact hs) hr
    obtain ⟨r, hr, rfl⟩ := except_map_eq_ok hc
    exact State.readBlob_memoryOk hb hr

theorem State.readSpilled_memoryOk {s : State} {sp : Space} {t : Team} (hs : s.memoryOk = true) {r : State × Team}
    (hr : s.readSpilled sp t = .ok r) : r.1.memoryOk = true := by
  unfold State.readSpilled at hr
  split at hr
  · cases hr
    exact hs
  · refine foldl_except_bind_memoryOk Prod.fst _ (fun a g c ha hc => ?_) _ (fun b hb => by cases hb; exact hs) hr
    dsimp only at hc
    obtain ⟨x1, h1, hc⟩ := readThen_eq_ok hc
    obtain ⟨x2, h2, hc⟩ := readThen_eq_ok hc
    obtain ⟨x3, h3, hc⟩ := readThen_eq_ok hc
    obtain ⟨x4, h4, hc⟩ := readThen_eq_ok hc
    cases hc
    exact State.readBlob_memoryOk (State.readBlob_memoryOk (State.readBlob_memoryOk (State.readBlob_memoryOk ha h1) h2) h3) h4

/-! ## Machine/Preempt -/

@[simp] theorem execPreemption_memoryOk {s : State} {team gid : Nat} (hs : s.memoryOk = true) :
    outcomeOk (execPreemption team gid s) = true := by
  unfold execPreemption
  simp [hs]

@[simp] theorem execSaveBudgetExpiry_memoryOk {s : State} {team gid : Nat} (hs : s.memoryOk = true) :
    outcomeOk (execSaveBudgetExpiry team gid s) = true := by
  unfold execSaveBudgetExpiry
  split <;> simp [hs]

@[simp] theorem execClusterFreezeDone_memoryOk {s : State} {team : Nat} (hs : s.memoryOk = true) :
    outcomeOk (execClusterFreezeDone team s) = true := by
  unfold execClusterFreezeDone
  repeat' split
  all_goals simp [hs]

@[simp] theorem State.markSaved_memoryOk (s : State) (t : Team) : (s.markSaved t).memoryOk = s.memoryOk := by
  unfold State.markSaved
  split <;> simp

@[simp] theorem State.hubSave_memoryOk {s : State} {t : Team} (hs : s.memoryOk = true) : (s.hubSave t).memoryOk = true := by
  unfold State.hubSave
  split
  next s1 h => exact (State.markSaved_memoryOk _ _).trans (State.writeBlobs_memoryOk hs h)
  · exact State.killPacket_memoryOk hs

@[simp] theorem execTeamSaveComplete_memoryOk {s : State} {team : Nat} (hs : s.memoryOk = true) :
    outcomeOk (execTeamSaveComplete team s) = true := by
  unfold execTeamSaveComplete
  split <;> simp [hs]

@[simp] theorem State.enterResumed_memoryOk (s : State) (t : Team) : (s.enterResumed t).memoryOk = s.memoryOk := by
  unfold State.enterResumed
  simp

theorem State.restoreVector_memoryOk {s : State} {t : Team} {sp : Space} (hs : s.memoryOk = true) {s1 : State}
    (hs1 : s.restoreVector t sp = .ok s1) : s1.memoryOk = true := by
  obtain ⟨x1, h1, hs1⟩ := readThen_eq_ok hs1
  obtain ⟨a, ha, hs1⟩ := except_bind_eq_ok hs1
  obtain ⟨b, hb, hs1⟩ := except_bind_eq_ok hs1
  have hb := State.readScratches_memoryOk (State.readArrivals_memoryOk (State.readBlob_memoryOk hs h1) ha) hb
  split at hs1
  · obtain ⟨c, hc, rfl⟩ := except_map_eq_ok hs1
    exact (State.setTeam_memoryOk _ _).trans (State.readSpilled_memoryOk hb hc)
  · cases hs1
    simp [hb]

@[simp] theorem State.retryStop_memoryOk (s : State) (tid : Nat) : (s.retryStop tid).memoryOk = s.memoryOk := by
  unfold State.retryStop
  repeat' split
  all_goals simp

theorem State.restoreArray_memoryOk {s : State} {t : Team} {sp : Space} (hs : s.memoryOk = true) {s1 : State}
    (hs1 : s.restoreArray t sp = .ok s1) : s1.memoryOk = true := by
  unfold State.restoreArray at hs1
  split at hs1
  · obtain ⟨x1, h1, hs1⟩ := readThen_eq_ok hs1
    obtain ⟨s2, h2, rfl⟩ := except_map_eq_ok hs1
    simp [State.writeBlobs_memoryOk (State.readBlob_memoryOk hs h1) h2]
  · cases hs1
    exact hs

@[simp] theorem State.restoreScalar_memoryOk (s : State) (t : Team) : (s.restoreScalar t).memoryOk = s.memoryOk := by
  unfold State.restoreScalar
  simp

@[simp] theorem State.resumed_memoryOk (s : State) (t : Team) : (s.resumed t).memoryOk = s.memoryOk := by
  unfold State.resumed
  simp

@[simp] theorem State.hubRestore_memoryOk {s : State} {t : Team} (hs : s.memoryOk = true) : (s.hubRestore t).memoryOk = true := by
  unfold State.hubRestore
  extract_lets +onlyGivenNames sp r
  have hr : ∀ s1, r = .ok s1 → s1.memoryOk = true := by
    intro s1 h
    simp only [r] at h
    split at h
    · exact State.restoreVector_memoryOk hs h
    · exact State.restoreArray_memoryOk hs h
    · cases h
      simp [hs]
  clear_value r
  cases r with
  | ok s1 => simp [hr s1 rfl]
  | error cause => exact State.killPacket_memoryOk hs

@[simp] theorem execTeamRestoreComplete_memoryOk {s : State} {team : Nat} (hs : s.memoryOk = true) :
    outcomeOk (execTeamRestoreComplete team s) = true := by
  unfold execTeamRestoreComplete
  split <;> simp [hs]

@[simp] theorem State.spillOldest_memoryOk {s : State} {core : CoreId} (hs : s.memoryOk = true) : (s.spillOldest core).memoryOk = true := by
  unfold State.spillOldest
  dsimp only
  repeat' split
  all_goals simp [hs]

@[simp] theorem State.spill_memoryOk {s : State} {core : CoreId} {n : Nat} (hs : s.memoryOk = true) :
    (State.spill core n s).memoryOk = true := by
  induction n generalizing s with
  | zero => exact hs
  | succ n ih =>
    unfold State.spill
    split
    · exact ih (State.spillOldest_memoryOk hs)
    · exact hs

@[simp] theorem State.parkTeam_memoryOk {s : State} {core : CoreId} {tid : Nat} (hs : s.memoryOk = true) :
    (s.parkTeam core tid).memoryOk = true := by
  unfold State.parkTeam
  split <;> simp [hs]

@[simp] theorem execRevocationComplete_memoryOk {s : State} {core : CoreId} (hs : s.memoryOk = true) :
    outcomeOk (execRevocationComplete core s) = true := by
  unfold execRevocationComplete
  split
  · exact hs
  · split
    · exact hs
    · exact State.spill_memoryOk (foldl_memoryOk _ (fun s tid h => State.parkTeam_memoryOk h) _ hs)

/-! ## Machine/Patrol -/

@[simp] theorem State.patrol_memoryOk (s : State) (cycles : Nat) : (s.patrol cycles).memoryOk = s.memoryOk := by rfl

@[simp] theorem execGroupPatrolExpiry_memoryOk {s : State} {team gid : Nat} (hs : s.memoryOk = true) :
    outcomeOk (execGroupPatrolExpiry team gid s) = true := by
  unfold execGroupPatrolExpiry
  repeat' split
  all_goals simp [hs]

@[simp] theorem State.clusterExpiry_memoryOk {s : State} {tid : Nat} (hs : s.memoryOk = true) : (s.clusterExpiry tid).memoryOk = true := by
  unfold State.clusterExpiry
  split <;> simp [hs]

@[simp] theorem execClusterPatrolExpiry_memoryOk {s : State} {team : Nat} (hs : s.memoryOk = true) :
    outcomeOk (execClusterPatrolExpiry team s) = true := by
  unfold execClusterPatrolExpiry
  repeat' split
  all_goals simp [hs]

@[simp] theorem execQueuePatrolExpiry_memoryOk {s : State} {hub : HubId} {queue : Nat} (hs : s.memoryOk = true) :
    outcomeOk (execQueuePatrolExpiry hub queue s) = true := by
  unfold execQueuePatrolExpiry
  split <;> simp +contextual [hs]

/-! ## Machine/Coherence -/

@[simp] theorem execPeerRead_memoryOk {s : State} {home : HubId} {peer : Nat} {line : PageLine} (hs : s.memoryOk = true) :
    outcomeOk (execPeerRead home peer line s) = true := by
  unfold execPeerRead
  dsimp only
  repeat' split
  all_goals simp [hs]

@[simp] theorem State.exclusive_memoryOk {s : State} {h : HubId} {peer line : Nat} (hs : s.memoryOk = true) :
    (s.exclusive h peer line).memoryOk = true := by
  unfold State.exclusive
  simp [hs]

@[simp] theorem execReadExclusive_memoryOk {s : State} {home : HubId} {peer line : Nat} (hs : s.memoryOk = true) :
    outcomeOk (execReadExclusive home peer line s) = true := by
  unfold execReadExclusive
  split <;> simp [hs]

@[simp] theorem execUpgrade_memoryOk {s : State} {home : HubId} {peer line : Nat} (hs : s.memoryOk = true) :
    outcomeOk (execUpgrade home peer line s) = true := by
  unfold execUpgrade
  split <;> simp [hs]

@[simp] theorem execInvalidationAcknowledgement_memoryOk {s : State} {home : HubId} {peer line : Nat} (hs : s.memoryOk = true) :
    outcomeOk (execInvalidationAcknowledgement home peer line s) = true := by
  unfold execInvalidationAcknowledgement
  dsimp only
  repeat' split
  all_goals simp [hs]

@[simp] theorem execWriteBack_memoryOk {s : State} {home : HubId} {peer line : Nat} (hs : s.memoryOk = true) :
    outcomeOk (execWriteBack home peer line s) = true := by
  unfold execWriteBack
  dsimp only
  split
  · exact hs
  · split
    · exact hs
    · refine (State.modHub_memoryOk _ _ _).trans ?_
      split
      · exact State.writeBytes_memoryOk hs
      · exact hs

@[simp] theorem execIoCoherentRead_memoryOk {s : State} {home : HubId} {line : Nat} (hs : s.memoryOk = true) :
    outcomeOk (execIoCoherentRead home line s) = true := by
  unfold execIoCoherentRead
  simp [hs]

@[simp] theorem execIoCoherentWrite_memoryOk {s : State} {home : HubId} {line : PageLine} {bytes : List (Nat × Byte)}
    (hs : s.memoryOk = true) : outcomeOk (execIoCoherentWrite home line bytes s) = true := by
  unfold execIoCoherentWrite
  dsimp only
  repeat' split
  all_goals simp [hs]

@[simp] theorem State.performIn_memoryOk {s : State} {id : Nat} {is : TxnKind → Bool} {again : Instr} (hs : s.memoryOk = true) :
    (s.performIn id is again).memoryOk = true := by
  unfold State.performIn
  split <;> simp [hs]

@[simp] theorem execPlainRead_memoryOk {s : State} {txn : Nat} (hs : s.memoryOk = true) : outcomeOk (execPlainRead txn s) = true := by
  unfold execPlainRead
  simp [hs]

@[simp] theorem execLeasedRead_memoryOk {s : State} {txn : Nat} (hs : s.memoryOk = true) : outcomeOk (execLeasedRead txn s) = true := by
  unfold execLeasedRead
  simp [hs]

@[simp] theorem execHomeWrite_memoryOk {s : State} {txn : Nat} (hs : s.memoryOk = true) : outcomeOk (execHomeWrite txn s) = true := by
  unfold execHomeWrite
  simp [hs]

@[simp] theorem State.answerArrives_memoryOk (s : State) (x : Txn) (a : TxnAnswer) : (s.answerArrives x a).memoryOk = s.memoryOk := by
  unfold State.answerArrives
  split <;> simp

@[simp] theorem State.failTxn_memoryOk {s : State} {x : Txn} {cause : Byte} (hs : s.memoryOk = true) :
    (s.failTxn x cause).memoryOk = true := by
  unfold State.failTxn
  repeat' split
  all_goals simp [hs]

@[simp] theorem State.answerTxn_memoryOk {s : State} {x : Txn} {a : TxnAnswer} (hs : s.memoryOk = true) :
    (s.answerTxn x a).memoryOk = true := by
  unfold State.answerTxn
  repeat' split
  all_goals simp [hs]

@[simp] theorem execTransactionResponse_memoryOk {s : State} {txn : Nat} (hs : s.memoryOk = true) :
    outcomeOk (execTransactionResponse txn s) = true := by
  unfold execTransactionResponse
  repeat' split
  all_goals simp [hs]

@[simp] theorem State.electReference_memoryOk (s : State) : s.electReference.memoryOk = s.memoryOk := by rfl

@[simp] theorem State.dropHeld_memoryOk (s : State) (hub : HubId) : (s.dropHeld hub).memoryOk = s.memoryOk := by
  unfold State.dropHeld
  simp

@[simp] theorem State.planeDies_memoryOk (s : State) (hub : HubId) (plane : Nat) : (s.planeDies hub plane).memoryOk = s.memoryOk := by
  unfold State.planeDies
  simp

@[simp] theorem State.portLeaves_memoryOk (s : State) (plane : Nat) (state : BitVec 2) :
    (s.portLeaves plane state).memoryOk = s.memoryOk := by
  unfold State.portLeaves
  simp

@[simp] theorem State.takeRef_memoryOk (s : State) (hub : HubId) (ref : Dword) : (s.takeRef hub ref).memoryOk = s.memoryOk := by
  unfold State.takeRef
  simp

@[simp] theorem execRefUpdate_memoryOk {s : State} {hub : HubId} {ref : Dword} (hs : s.memoryOk = true) :
    outcomeOk (execRefUpdate hub ref s) = true := by
  unfold execRefUpdate
  simp [hs]

@[simp] theorem State.broadcast_memoryOk (s : State) (planes : List Nat) : (s.broadcast planes).memoryOk = s.memoryOk := by
  unfold State.broadcast
  simp

@[simp] theorem execRefBroadcast_memoryOk {s : State} (hs : s.memoryOk = true) : outcomeOk (execRefBroadcast s) = true := by
  unfold execRefBroadcast
  split <;> simp [hs]

@[simp] theorem execGuardAnswer_memoryOk {s : State} {hub : HubId} (hs : s.memoryOk = true) : outcomeOk (execGuardAnswer hub s) = true := by
  unfold execGuardAnswer
  simp [hs]

@[simp] theorem execLeaseFenceTimeout_memoryOk {s : State} {hub : HubId} (hs : s.memoryOk = true) :
    outcomeOk (execLeaseFenceTimeout hub s) = true := by
  unfold execLeaseFenceTimeout
  simp [hs]

@[simp] theorem execLeaseCut_memoryOk {s : State} {hub : HubId} (hs : s.memoryOk = true) : outcomeOk (execLeaseCut hub s) = true := by
  unfold execLeaseCut
  simp [hs]

@[simp] theorem execReleasePublished_memoryOk {s : State} {hub : HubId} {line : Nat} (hs : s.memoryOk = true) :
    outcomeOk (execReleasePublished hub line s) = true := by
  unfold execReleasePublished
  simp +contextual [hs]

@[simp] theorem execPersistBufferDrain_memoryOk {s : State} {hub : HubId} {index : Nat} (hs : s.memoryOk = true) :
    outcomeOk (execPersistBufferDrain hub index s) = true := by
  unfold execPersistBufferDrain
  simp [hs]

@[simp] theorem execEnergyStoreDecline_memoryOk {s : State} {hub : HubId} {cap : Nat} (hs : s.memoryOk = true) :
    outcomeOk (execEnergyStoreDecline hub cap s) = true := by
  unfold execEnergyStoreDecline
  simp [hs]

/-! ## Machine/Events -/

@[simp] theorem State.tagSource_memoryOk (s : State) (source : StopSource) (tag : Half) :
    (s.tagSource source tag).memoryOk = s.memoryOk := by
  unfold State.tagSource
  repeat' split
  all_goals simp

@[simp] theorem execPageRequest_memoryOk {s : State} {source : StopSource} (hs : s.memoryOk = true) :
    outcomeOk (execPageRequest source s) = true := by
  unfold execPageRequest
  dsimp only
  repeat' split
  all_goals simp +contextual [hs]

@[simp] theorem execEventDelivery_memoryOk {s : State} {hub : HubId} (hs : s.memoryOk = true) :
    outcomeOk (execEventDelivery hub s) = true := by
  unfold execEventDelivery
  split <;> simp [hs]

@[simp] theorem execCorrectedError_memoryOk {s : State} {hub : HubId} (hs : s.memoryOk = true) :
    outcomeOk (execCorrectedError hub s) = true := by
  unfold execCorrectedError
  simp [hs]

@[simp] theorem State.registerError_memoryOk (s : State) (team gid reg lane kind : Nat) (f : GroupRegs → GroupRegs) :
    (s.registerError team gid reg lane kind f).memoryOk = s.memoryOk := by rfl

@[simp] theorem State.poisonTier_memoryOk {s : State} {a : Nat} (hs : s.memoryOk = true) : (s.poisonTier a).memoryOk = true := by
  unfold State.poisonTier
  refine (State.memoryOk_iff _).2 ⟨s.mem_wf hs, ?_, s.tier_wf hs, Marks.write_wf _ _ (s.tierPoison_wf hs)⟩
  dsimp only
  split <;> simp [hs]

@[simp] theorem State.errorIn_memoryOk {s : State} {target : ErrorTarget} (hs : s.memoryOk = true) :
    (s.errorIn target).memoryOk = true := by
  cases target <;> dsimp only [State.errorIn]
  all_goals repeat' split
  all_goals simp [hs]

@[simp] theorem execUncorrectableError_memoryOk {s : State} {target : ErrorTarget} (hs : s.memoryOk = true) :
    outcomeOk (execUncorrectableError target s) = true := by
  unfold execUncorrectableError
  simp [hs]

@[simp] theorem State.loseCopy_memoryOk {s : State} {h : HubId} {p : PeerLine} (hs : s.memoryOk = true) :
    (s.loseCopy h p).memoryOk = true := by
  unfold State.loseCopy
  extract_lets s1
  have h1 : s1.memoryOk = true := (State.modHub_memoryOk _ _ _).trans hs
  split
  · exact State.poisonWords_memoryOk h1
  · exact h1

@[simp] theorem State.losePeers_memoryOk {s : State} {h : HubId} {pos : Nat} (hs : s.memoryOk = true) :
    (s.losePeers h pos).memoryOk = true := by
  unfold State.losePeers
  extract_lets gone s1
  have h1 : s1.memoryOk = true := foldl_memoryOk _ (fun s p h => State.loseCopy_memoryOk h) _ hs
  refine foldl_memoryOk _ (fun s d hs => ?_) _ h1
  split
  · exact hs
  · dsimp only
    split
    · exact (State.modHub_memoryOk _ _ _).trans hs
    · split <;> simp [hs]

@[simp] theorem State.loseNotes_memoryOk {s : State} {h : HubId} {pos : Nat} (hs : s.memoryOk = true) :
    (s.loseNotes h pos).memoryOk = true := by
  refine foldl_memoryOk _ (fun s k h => ?_) _ hs
  simp only [State.modHub_memoryOk]
  exact State.withMemPoison_memoryOk h (Memory.foldl_wf _ (fun _ (n : Note) hm => poisonWords_wf (n.line * 128) 128 0x60 hm) _ _
    (s.memPoison_wf h))

@[simp] theorem State.loseTeams_memoryOk {s : State} {h : HubId} {pos : Nat} (hs : s.memoryOk = true) :
    (s.loseTeams h pos).memoryOk = true := by
  unfold State.loseTeams
  simp +contextual [hs]

@[simp] theorem State.isolate_memoryOk {s : State} {h : HubId} {pos : Nat} (hs : s.memoryOk = true) :
    (s.isolate h pos).memoryOk = true := by
  have h1 : ((s.losePeers h pos).loseNotes h pos).memoryOk = true := State.loseNotes_memoryOk (State.losePeers_memoryOk hs)
  unfold State.isolate
  split
  · exact hs
  · refine (State.modHub_memoryOk _ _ _).trans ?_
    split
    · refine (foldl_memoryOk_eq _ (fun s p => State.portLeaves_memoryOk s p 3) _ _).trans ?_
      exact State.loseTeams_memoryOk h1
    · exact State.loseTeams_memoryOk h1

@[simp] theorem execChctlIso_memoryOk {s : State} {hub : HubId} {pos : Nat} (hs : s.memoryOk = true) :
    outcomeOk (execChctlIso hub pos s) = true := by
  unfold execChctlIso
  simp [hs]

@[simp] theorem execChipletFatalError_memoryOk {s : State} {hub : HubId} {pos : Nat} (hs : s.memoryOk = true) :
    outcomeOk (execChipletFatalError hub pos s) = true := by
  unfold execChipletFatalError
  simp [hs]

@[simp] theorem execUcieLinkFailure_memoryOk {s : State} {hub : HubId} {pos : Nat} (hs : s.memoryOk = true) :
    outcomeOk (execUcieLinkFailure hub pos s) = true := by
  unfold execUcieLinkFailure
  simp [hs]

@[simp] theorem State.setTable_memoryOk (s : State) (h : HubId) (pos : Nat) (table : List Byte) :
    (s.setTable h pos table).memoryOk = s.memoryOk := by rfl

@[simp] theorem execChctlRen_memoryOk {s : State} {hub : HubId} {pos : Nat} (hs : s.memoryOk = true) :
    outcomeOk (execChctlRen hub pos s) = true := by
  unfold execChctlRen
  dsimp only
  repeat' split
  all_goals simp [hs]

@[simp] theorem execEnumerationComplete_memoryOk {s : State} {hub : HubId} {pos : Nat} {table : List Byte} (hs : s.memoryOk = true) :
    outcomeOk (execEnumerationComplete hub pos table s) = true := by
  unfold execEnumerationComplete
  dsimp only
  repeat' split
  all_goals simp [hs]

@[simp] theorem execBridgeFailure_memoryOk {s : State} (hs : s.memoryOk = true) : outcomeOk (execBridgeFailure s) = true := by
  unfold execBridgeFailure
  simp [hs]

/-! ## Machine/Fabric -/

@[simp] theorem execLinkTimeout_memoryOk {s : State} {_hub : HubId} {plane : Nat} (hs : s.memoryOk = true) :
    outcomeOk (execLinkTimeout _hub plane s) = true := by
  unfold execLinkTimeout
  simp [hs]

@[simp] theorem execSwitchTimeout_memoryOk {s : State} {hub : HubId} {plane package : Nat} (hs : s.memoryOk = true) :
    outcomeOk (execSwitchTimeout hub plane package s) = true := by
  unfold execSwitchTimeout
  simp [hs]

@[simp] theorem State.releaseTxn_memoryOk (s : State) (plane : Nat) (x : Txn) : (s.releaseTxn plane x).memoryOk = s.memoryOk := by
  unfold State.releaseTxn
  simp

@[simp] theorem State.releaseMail_memoryOk (s : State) (plane : Nat) (m : Mail) : (s.releaseMail plane m).memoryOk = s.memoryOk := by
  unfold State.releaseMail
  simp

@[simp] theorem State.releaseHeld_memoryOk (s : State) (hub : HubId) (i : Nat) : (s.releaseHeld hub i).memoryOk = s.memoryOk := by
  unfold State.releaseHeld
  simp

@[simp] theorem execPlaneRemap_memoryOk {s : State} {hub : HubId} {plane : Nat} (hs : s.memoryOk = true) :
    outcomeOk (execPlaneRemap hub plane s) = true := by
  unfold execPlaneRemap
  split <;> simp [hs]

@[simp] theorem State.planeLives_memoryOk (s : State) (hub : HubId) (plane : Nat) : (s.planeLives hub plane).memoryOk = s.memoryOk := by
  unfold State.planeLives
  simp

@[simp] theorem State.portTrains_memoryOk (s : State) (plane : Nat) : (s.portTrains plane).memoryOk = s.memoryOk := by
  unfold State.portTrains
  simp

@[simp] theorem State.planeRises_memoryOk (s : State) (hub : HubId) (plane : Nat) : (s.planeRises hub plane).memoryOk = s.memoryOk := by
  unfold State.planeRises
  split <;> simp

@[simp] theorem execPlaneUp_memoryOk {s : State} {hub : HubId} {plane : Nat} (hs : s.memoryOk = true) :
    outcomeOk (execPlaneUp hub plane s) = true := by
  unfold execPlaneUp
  simp [hs]

@[simp] theorem execTransactionTimeout_memoryOk {s : State} {txn : Nat} (hs : s.memoryOk = true) :
    outcomeOk (execTransactionTimeout txn s) = true := by
  unfold execTransactionTimeout
  split <;> simp [hs]

@[simp] theorem State.pauseTimers_memoryOk (s : State) (ticks : Dword) : (s.pauseTimers ticks).memoryOk = s.memoryOk := by rfl

@[simp] theorem execMembershipBeat_memoryOk {s : State} (hs : s.memoryOk = true) : outcomeOk (execMembershipBeat s) = true := by
  unfold execMembershipBeat
  simp [hs]

@[simp] theorem State.setPackage_memoryOk (s : State) (p : PeerPackage) : (s.setPackage p).memoryOk = s.memoryOk := by rfl

@[simp] theorem execBeatReceived_memoryOk {s : State} {package : Nat} {recovering : Bool} (hs : s.memoryOk = true) :
    outcomeOk (execBeatReceived package recovering s) = true := by
  unfold execBeatReceived
  repeat' split
  all_goals simp [hs]

@[simp] theorem State.failPackage_memoryOk (s : State) (package : Nat) : (s.failPackage package).memoryOk = s.memoryOk := by
  unfold State.failPackage
  split <;> simp

@[simp] theorem execMembershipTimeout_memoryOk {s : State} {package : Nat} (hs : s.memoryOk = true) :
    outcomeOk (execMembershipTimeout package s) = true := by
  unfold execMembershipTimeout
  simp [hs]

@[simp] theorem execRecoveryLimit_memoryOk {s : State} {package : Nat} (hs : s.memoryOk = true) :
    outcomeOk (execRecoveryLimit package s) = true := by
  unfold execRecoveryLimit
  simp [hs]

@[simp] theorem execPackageRejoin_memoryOk {s : State} {package : Nat} (hs : s.memoryOk = true) :
    outcomeOk (execPackageRejoin package s) = true := by
  unfold execPackageRejoin
  split <;> simp [hs]

@[simp] theorem execPortStop_memoryOk {s : State} {_hub : HubId} {plane : Nat} (hs : s.memoryOk = true) :
    outcomeOk (execPortStop _hub plane s) = true := by
  unfold execPortStop
  simp [hs]

@[simp] theorem execFrameAuthFailure_memoryOk {s : State} {_hub : HubId} {plane : Nat} (hs : s.memoryOk = true) :
    outcomeOk (execFrameAuthFailure _hub plane s) = true := by
  unfold execFrameAuthFailure
  repeat' split
  all_goals simp [hs]

@[simp] theorem execRekeyStart_memoryOk {s : State} {_hub : HubId} {plane : Nat} (hs : s.memoryOk = true) :
    outcomeOk (execRekeyStart _hub plane s) = true := by
  unfold execRekeyStart
  simp [hs]

@[simp] theorem execRekeyComplete_memoryOk {s : State} {_hub : HubId} {plane : Nat} (hs : s.memoryOk = true) :
    outcomeOk (execRekeyComplete _hub plane s) = true := by
  unfold execRekeyComplete
  repeat' split
  all_goals simp [hs]

@[simp] theorem execAccessTableWrite_memoryOk {s : State} {target : AccessTarget} {index : Nat} {entry : AccessEntry}
    (hs : s.memoryOk = true) : outcomeOk (execAccessTableWrite target index entry s) = true := by
  unfold execAccessTableWrite
  split <;> simp [hs]

@[simp] theorem State.hostWindow_memoryOk (s : State) (address : Nat) (data : List Byte) :
    (s.hostWindow address data).memoryOk = s.memoryOk := by
  unfold State.hostWindow
  simp

@[simp] theorem State.hostWrite_memoryOk {s : State} {k : Nat} {data : List Byte} (hs : s.memoryOk = true) :
    (s.hostWrite k data).memoryOk = true := by
  refine foldl_memoryOk _ (fun s p hs => ?_) _ hs
  split
  · exact hs
  · split
    · split <;> simp [hs]
    · exact State.homeWrite_memoryOk hs

@[simp] theorem State.hostRead_memoryOk (s : State) (k n : Nat) : (s.hostRead k n).memoryOk = s.memoryOk := by
  unfold State.hostRead
  simp

@[simp] theorem execHostAccess_memoryOk {s : State} {window write : Bool} {address : Nat} {data : List Byte} (hs : s.memoryOk = true) :
    outcomeOk (execHostAccess window write address data s) = true := by
  unfold execHostAccess
  split <;> simp [hs]

/-! ## Machine/Fence -/

@[simp] theorem State.fenceWait_memoryOk {s : State} {c : Ctx} {order scope : Nat} (hs : s.memoryOk = true) :
    (s.fenceWait c order scope).1.memoryOk = true := by
  unfold State.fenceWait
  simp [hs]

@[simp] theorem execFence_memoryOk {s : State} {w : MainWord} (hs : s.memoryOk = true) : outcomeOk (execFence w s) = true := by
  unfold execFence
  refine runMain_memoryOk hs fun s c hs => ?_
  have h1 := State.fenceWait_memoryOk (c := c) (order := xOrder w) (scope := xScope w) hs
  split
  · exact hs
  · dsimp only
    split
    · exact h1
    · refine Sync.andThen_memoryOk (State.reportFailures_memoryOk h1) fun s1 h1 => ?_
      split <;> simp [h1]

@[simp] theorem execPersist_memoryOk {s : State} {w : MainWord} (hs : s.memoryOk = true) : outcomeOk (execPersist w s) = true := by
  unfold execPersist
  refine runMain_memoryOk hs fun s c hs => ?_
  have hacquire : ∀ s1 : State, s1.memoryOk = true →
      (Res.done (s1.acquire c.tid c.gid c.group.coreIx 5 c.unit false)).memoryOk = true :=
    fun s1 h1 => (State.acquire_memoryOk _ _ _ _ _ _ _).trans h1
  have h1 := State.settleStores_memoryOk (c := c) (scope := 5) (fence := true) hs
  split
  · exact hs
  · split
    · exact Sync.andThen_memoryOk (State.reportFailures_memoryOk hs) hacquire
    · dsimp only
      split
      · exact h1
      · exact Sync.andThen_memoryOk (State.reportFailures_memoryOk h1) hacquire

/-! ## Machine/Power -/

@[simp] theorem State.recordLoss_memoryOk {s : State} {h : HubId} (hs : s.memoryOk = true) : (s.recordLoss h).memoryOk = true := by
  unfold State.recordLoss
  dsimp only
  split
  · exact hs
  · exact State.withTier_memoryOk hs (Memory.writeBytes_wf _ _ (s.tier_wf hs)) (poisonWords_wf _ _ _ (s.tierPoison_wf hs))

@[simp] theorem State.settleGranules_memoryOk {s : State} (hs : s.memoryOk = true) : s.settleGranules.memoryOk = true := by
  unfold State.settleGranules
  simp +contextual [hs]

@[simp] theorem State.lastTier_memoryOk {s : State} (hs : s.memoryOk = true) : s.lastTier.memoryOk = true := by
  unfold State.lastTier
  extract_lets drain s1
  have hdrain : ∀ s h, s.memoryOk = true → (drain s h).memoryOk = true :=
    fun s h hs => foldl_memoryOk _ (fun _ _ h => State.toTier_memoryOk h) _ hs
  exact State.recordLoss_memoryOk (State.recordLoss_memoryOk (State.settleGranules_memoryOk (hdrain _ _ (hdrain _ _ hs))))

@[simp] theorem State.dark_memoryOk {s : State} (hs : s.memoryOk = true) : s.dark.memoryOk = true :=
  (State.memoryOk_iff _).2 ⟨s.tier_wf hs, s.tierPoison_wf hs, s.tier_wf hs, s.tierPoison_wf hs⟩

@[simp] theorem execPowerLoss_memoryOk {s : State} (hs : s.memoryOk = true) : outcomeOk (execPowerLoss s) = true := by
  unfold execPowerLoss
  simp [hs]

@[simp] theorem State.boot_memoryOk {s : State} (hs : s.memoryOk = true) : s.boot.memoryOk = true := by
  unfold State.boot
  extract_lets f h0 h1 starts words
  refine State.withMem_memoryOk (s := s) hs ?_
  split
  · exact s.mem_wf hs
  · exact Memory.writeCells_wf _ (Memory.writeCells_wf _ (s.mem_wf hs))

@[simp] theorem execPowerOnReset_memoryOk {s : State} (hs : s.memoryOk = true) : outcomeOk (execPowerOnReset s) = true := by
  unfold execPowerOnReset
  simp [hs]

@[simp] theorem execSupplySag_memoryOk {s : State} {hub : HubId} {pos : Nat} (hs : s.memoryOk = true) :
    outcomeOk (execSupplySag hub pos s) = true := by
  unfold execSupplySag
  simp [hs]

@[simp] theorem execSagRecovery_memoryOk {s : State} {hub : HubId} {pos : Nat} (hs : s.memoryOk = true) :
    outcomeOk (execSagRecovery hub pos s) = true := by
  unfold execSagRecovery
  simp [hs]

@[simp] theorem execPowerLimitStep_memoryOk {s : State} {watts : Nat} (hs : s.memoryOk = true) :
    outcomeOk (execPowerLimitStep watts s) = true := by
  unfold execPowerLimitStep
  simp [hs]

/-! ## Machine/Dispatch -/

@[simp] theorem exec_memoryOk {s : State} {i : Instr} (hs : s.memoryOk = true) : outcomeOk (exec i s) = true := by
  unfold exec
  split <;> simp [hs]

/-! ## Machine/Turn -/

@[simp] theorem State.take_memoryOk (s : State) (t : Turn) : (s.take t).memoryOk = s.memoryOk := by
  unfold State.take
  split <;> simp

@[simp] theorem State.schedule_memoryOk (s : State) : s.schedule.memoryOk = s.memoryOk := by
  unfold State.schedule
  split <;> simp

@[simp] theorem State.pass_memoryOk {s : State} (hs : s.memoryOk = true) : s.pass.memoryOk = true := by
  unfold State.pass
  simp [hs]

@[simp] theorem State.afterStep_memoryOk {s : State} (hs : s.memoryOk = true) : s.afterStep.memoryOk = true := by
  unfold State.afterStep
  simp [hs]

/-! ## Machine/Step -/

@[simp] theorem finish_memoryOk {r : Host.Outcome State Fault Refusal} (hr : outcomeOk r = true) : outcomeOk (finish r) = true := by
  cases r with
  | next s => exact State.afterStep_memoryOk hr
  | fault r => rfl
  | refused r => rfl

@[simp] theorem runFetched_memoryOk {r : Fetched} (hr : r.memoryOk = true) : outcomeOk (runFetched r) = true := by
  cases r with
  | instr s i => exact finish_memoryOk (exec_memoryOk hr)
  | taken s => exact State.afterStep_memoryOk hr
  | missing => rfl

@[simp] theorem step_memoryOk {s : State} (hs : s.memoryOk = true) : outcomeOk (step s) = true := by
  unfold step
  split <;> simp [hs]

/-! ## The obligation -/

/-- Settles O58: `step` runs the turn that is next and lets the time pass, and each of its operations keeps the canonical form. -/
theorem memoryInvariant : Obligations.MemoryInvariant := by
  intro s t hs ht
  have h := step_memoryOk hs
  rw [ht] at h
  exact h

end Sys2Proof.Machine
